-- ==== Sys2Proof/Word.lean ====
section
/-! DEFINITION. The words of the LM4810: bytes, Yarrow words, and the unit of time. -/

namespace Sys2Proof

/-- One byte (R8). -/
abbrev Byte := BitVec 8

/-- A run of bytes in ascending address order. -/
abbrev Bytes := List (BitVec 8)

/-- A 24-bit Yarrow data word (R411). -/
abbrev Word24 := BitVec 24

/-- A 56-bit Yarrow accumulator (R411). -/
abbrev Acc := BitVec 56

/-- A 48-bit Yarrow program word (R442). -/
abbrev ProgWord := BitVec 48

/-- An instant or a length of time, in units of 1/65,536 ns (R12). -/
abbrev Time := Nat

/-- A finite map as an association list with strictly rising keys. -/
abbrev Map (α : Type) := List (Nat × α)

end Sys2Proof
end

