-- ==== Sys2Proof/Syntax.lean ====
section
/-! DEFINITION. The commands the device takes: requests of the host, events on its pins and lines, and what comes about
inside it, one constructor per row of the table of operations. -/

namespace Sys2Proof

/-- A Senak command as Uzogan copies it from its slot (R52), with the counter reading at which it completes. -/
structure Request where
  at_ : Time := 0
  slot : Fin 64 := 0
  /-- Byte 0x00, reserved. -/
  rsv0 : Byte := 0
  flags : Byte := 0
  hostSeq : BitVec 32 := 0
  gen : BitVec 32 := 0
  len : BitVec 32 := 0
  /-- Bytes 0x10 to 0x1F, reserved. -/
  rsv : Bytes := []
  /-- The parameter area from 0x20; bytes past its end are 0. -/
  params : Bytes := []
  deriving DecidableEq, Repr

/-- A BAR2 access at an offset (R50). -/
inductive Bar2 where
  | read (off n : Nat)
  | write (off : Nat) (data : Bytes)
  deriving DecidableEq, Repr

/-- An enqueue of a work item (R114): the producer port, the running item's consumer where an item enqueues it, the descriptor. -/
structure Enqueue where
  port : Nat
  by_ : Option (Fin 36 × Fin 9) := none
  desc : Bytes
  deriving DecidableEq, Repr

/-- The end of one unit's self-test (R630 to R632, R643). -/
structure UnitTest where
  site : Fin 256
  /-- 0 pass, 1 logic failure, 2 memory failure. -/
  result : Fin 3
  element : Fin 6 := 0
  address : BitVec 32 := 0
  deriving DecidableEq, Repr

/-- An offset that firmware reports from a Sync exchange (R529, R535). -/
structure PtpOffset where
  port : Fin 4
  /-- The correction fields of the Sync and its follow-up, in 1/65,536 ns. -/
  correction : Int := 0
  /-- Mean path delay in ns. -/
  delay : BitVec 32
  deriving DecidableEq, Repr

/-- A PTP or ESMC message (R534, R535): type 0 Sync, 1 Announce, 2 delay request or response, 3 follow-up, 4 ESMC. -/
structure PtpMessage where
  port : Fin 4
  type : Fin 5
  domain : Byte := 0
  /-- Grandmaster identity of an Announce, and whether the best master algorithm now selects it as parent. -/
  grandmaster : BitVec 64 := 0
  selected : Bool := false
  utc : Byte := 37
  leap : BitVec 2 := 0
  /-- The instant that a message to be sent carries. -/
  stamp : Time := 0
  /-- Its octets from the PTP header on. -/
  data : Bytes := []
  deriving DecidableEq, Repr

/-- A frame that a producer hands to a timed queue (R537). -/
structure TimedFrame where
  launch : Time
  /-- The producer's own tolerance and late action, where it has them (R540). -/
  own : Option (Nat × Bool) := none
  flow : BitVec 20 := 0xFFFFF
  data : Bytes := []
  tsTag : Option (BitVec 16) := none
  deriving DecidableEq, Repr

/-- What wakes the device from Sleep (R598). -/
inductive WakeAccess where
  | doorbell | userPage (page : Fin 16) | streamPort (port : Fin 64)
  deriving DecidableEq, Repr

/-- What the board shows at the rise of PORST_N: the voltage on CFGSEL in units of 25 mV steps (R616), whether VDD_AON held
so that the retained log is valid (R653), whether each flash copy and each firmware slot reads back well (R647, R655). -/
structure ColdBoot where
  cfgCode : Fin 64 := 63
  logKept : Bool := true
  flashOk : Bool := true
  slotOk : Bool := true
  /-- Whether the flash describes at least 64 MiB (R646). -/
  flashBig : Bool := true
  /-- Whether PERST_N is high. -/
  perstHigh : Bool := true
  deriving DecidableEq, Repr

/-- What sends and receives RTCP (R187, R248, R318). -/
inductive RtcpObject where
  | leg (n : Fin 8192) | vid (v : Fin 4096) | relay (v : Fin 4096) | sub (n : Fin 32768)
  deriving DecidableEq, Repr

/-- A configuration request of the host (R44, R599). -/
inductive ConfigAccess where
  | busMaster (on : Bool) | power (d0 : Bool) | turnOff
  /-- A read of a 32-bit word of configuration space, by byte offset. -/
  | read (off : Nat)
  /-- A write of one of the four words of BAR0 and BAR2. -/
  | bar (i : Fin 4) (v : BitVec 32)
  | other
  deriving DecidableEq, Repr

/-- A received frame as its headers show it (R499 to R512); data is what follows the UDP header, or the EtherType of a frame
that is not IP. -/
structure Frame where
  etherType : BitVec 16 := 0x0800
  vlan : BitVec 12 := 0
  srcMac : BitVec 48 := 0
  dstMac : BitVec 48 := 0
  /-- IP version 4 or 6; 0 for other frames. -/
  ip : Fin 7 := 0
  proto : Byte := 17
  dscp : BitVec 6 := 0
  /-- Addresses of 16 octets; an IPv4 address fills the first 4. -/
  src : Bytes := []
  dst : Bytes := []
  sport : BitVec 16 := 0
  dport : BitVec 16 := 0
  data : Bytes := []
  /-- Octets of the whole frame but its FCS. -/
  raw : Bytes := []
  /-- Octets from the destination MAC through the FCS. -/
  len : Nat := 64
  fcsOk : Bool := true
  /-- Whether the UDP checksum is 0. -/
  sum0 : Bool := false
  /-- Sequence number and LAN identifier of a PRP trailer or HSR tag. -/
  red : Option (BitVec 16 × BitVec 4) := none
  deriving DecidableEq, Repr

/-- A component of the 8 kHz copy of a tick's stage-4 signal (R184): frequency in 0.1 Hz, level in 0.1 dBm0. -/
structure Component where
  f : Nat
  level : Int
  deriving DecidableEq, Repr

/-- What a leg's tick item meets outside the packets it holds (R165, R178, R182, R184, R216): the words of its serial audio slot, and what
the tick's stage-4 signal holds for the tone detectors; the octets of its TSLOT are the switch's. -/
structure LegTick where
  leg : Fin 8192
  /-- Words of the slot, one per sample, as they come in, of the slot's width. -/
  line : List Nat := []
  tones : List Component := []
  /-- Level of 300 to 640 Hz in 0.1 dBm0. -/
  band : Int := -1000
  /-- HDLC flags that V.21 channel 2 has carried since it began. -/
  flags : Nat := 0
  /-- Amplitude modulation at 15 Hz, and a phase reversal, of 2100 Hz. -/
  am : Bool := false
  reversal : Bool := false
  /-- Whether DTMF is taken where the spec leaves it open, between 1.5 % and 3.5 % off (R184). -/
  lean : Bool := false
  deriving DecidableEq, Repr

/-- An error that Sorrel's ECC finds (R329): corrected, in a packet buffer at a queue's head or in transmission, or in the state of a
subscription, a line model or a policer. -/
inductive SorrelError where
  | corrected (port : Fin 4)
  | buffer (port : Fin 4) (queue : Fin 8)
  | sending (port : Fin 4)
  | subscription (n : Fin 32768)
  | line (leg : Fin 8192)
  | policer (key : Nat)
  deriving DecidableEq, Repr

/-- What a sequence parameter set says (R231, R233): the lowest codec code of its profile, tools, format, size, buffering. -/
structure SeqFacts where
  profile : Fin 7 := 0
  /-- An interlaced tool; a chroma format other than 4:2:0; FMO, ASO, SP or SI slices, range or screen-content extensions. -/
  interlaced : Bool := false
  chroma : Bool := false
  tool : Bool := false
  depth : Nat := 8
  w : Nat := 64
  h : Nat := 64
  /-- max_dec_pic_buffering. -/
  buffering : Nat := 1
  deriving DecidableEq, Repr

/-- What the bits of a slice lead a decoder through (R243, R244): its 16 × 16 areas in decoding order, each with the VID_CLK cycles that it
takes, and whether a syntax element is out of range, or the bits run out, after them. -/
structure SliceFacts where
  areas : List (Nat × Nat) := []
  bad : Bool := false
  deriving DecidableEq, Repr

/-- What a picture's bits say (R242 to R246). -/
structure DecodeResult where
  /-- Random-access picture. -/
  rap : Bool := false
  /-- The SPS activated with it. -/
  sps : Option SeqFacts := none
  slices : List SliceFacts := []
  /-- Its number, the numbers of the pictures that it references, and of those that stay references after it. -/
  number : Nat := 0
  refs : List Nat := []
  /-- Those of them a read of which in DRAM was uncorrectable (R577). -/
  unread : List Nat := []
  keeps : List Nat := []
  deriving DecidableEq, Repr

/-- What coding a slice gives (R252, R254): the bits of its header and of each row as rate control first codes it, and the mean QP. -/
structure SliceCode where
  header : Nat := 0
  rows : List Nat := []
  qp : Fin 52 := 26
  deriving DecidableEq, Repr

/-- What a received SDH frame carries of an AU-4 (R469, R471): H1 and H2, B3 errored bits, G1 and H4. -/
structure AuFrame where
  pointer : BitVec 16
  b3 : Nat
  g1 : BitVec 8
  h4 : BitVec 8
  deriving DecidableEq, Repr

/-- What it carries of a TU-12 whose multiframe ends in it: V1 and V2, V5, BIP-2 errors. -/
structure TuFrame where
  index : Nat
  pointer : BitVec 16
  v5 : BitVec 8
  errors : Nat
  deriving DecidableEq, Repr

/-- A frame period of an SDH port (R470): the bit positions at which the A1 and A2 pattern begins; and, as a framer at its alignment
reads them, B1 and B2 errored bits, M1, K2 and S1, its AU-4s and TU-12s. -/
structure SdhFrame where
  patterns : List Nat
  b1 : Nat
  b2 : Nat
  m1 : Nat
  k2 : BitVec 8
  s1 : BitVec 8
  aus : List AuFrame
  tus : List TuFrame
  deriving DecidableEq, Repr

/-- An error in the TDM memories (R488): corrected, in a page word of an output, or in the slip store of an E1 number. -/
inductive TdmError where
  | corrected
  | page (output : Fin 32768)
  | slip (e : Fin 1024)
  deriving DecidableEq, Repr

/-- A request that reaches a DRAM controller (R571): a read of a line, or a write of its 64 bytes. -/
structure LineAccess where
  line : Nat
  write : Option Bytes
  deriving DecidableEq, Repr

/-- What a read of a DRAM line meets (R575): nothing, an error confined to one device, or more. -/
inductive LineErr where
  | good
  | device (d : Fin 10)
  | several
  deriving DecidableEq, Repr

/-- How DRAM training ends (R566, R567, R574): the population (bit 0: 2 DIMMs per channel; 1: 2 ranks; 2: 32 Gb) and the slowest DIMM's
rate in MT/s, a population that breaks R566, or a step that fails on a channel. -/
inductive TrainResult where
  | trained (population : BitVec 3) (rate : Nat)
  | refused
  | failed (channel : Fin 8) (step : Fin 5)
  deriving DecidableEq, Repr

/-- A read of BAR0: its offset and how many octets (R45, R46). -/
structure BarRead where
  off : Nat
  n : Nat
  deriving DecidableEq, Repr

/-- Data that the device takes back from DRAM at an instant, and what of it meets an uncorrectable error (R577): items by their places, or
flows. -/
structure ReadBack where
  at_ : Time
  bad : List Nat := []
  deriving DecidableEq, Repr

/-- A frame that an output's engine has finished with, and whether it met an uncorrectable line (R271, R577). -/
structure FrameEnd where
  out : Fin 64
  unread : Bool := false
  deriving DecidableEq, Repr

/-- A request that runs on a security engine: the instant of its end, the engine in the order of those in service, and how many of its runs
mismatch (R366 to R368). -/
structure CryptoRun where
  at_ : Time
  engine : Fin 3 := 0
  mismatch : Fin 3 := 0
  deriving DecidableEq, Repr

/-- An error in a key slot: corrected where it is of a single bit (R344). -/
structure SlotError where
  slot : Nat
  single : Bool := false
  deriving DecidableEq, Repr

/-- The multiframes of a pair's working and protecting paths that a check of its alignment reads, oldest first (R482). -/
structure PairStreams where
  working : List Bytes := []
  protecting : List Bytes := []
  deriving DecidableEq, Repr

/-- The commands of the device: one constructor per row of the table of operations. -/
inductive Instr where
  /-- BAR0_REGISTER_WRITE (R46): A host write to a BAR0 register or mailbox slot that has no row of its own stores the value, or is ignored if narrow or reserved. -/
  | bar0RegisterWrite (off : Nat) (data : Bytes)
  /-- BAR0_READ_DOMAIN_NOT_READY (R47): A BAR0 read of a user page or host stream port block whose domain is not ready returns all ones, sets DEV_FAULT.NOT_READY and starts waking the domain. -/
  | bar0ReadDomainNotReady (t : Time) (r : BarRead)
  /-- HELD_BAR0_WRITE_APPLY (R47): A BAR0 write held for a domain that was not ready is applied, in arrival order, once the domain is ready. -/
  | heldBar0WriteApply (t : Time)
  /-- BAR2_ACCESS (R50): A host BAR2 read or write reaches DRAM through the window, or is dropped and counted. -/
  | bar2Access (a : Bar2)
  /-- DWIN_BASE_WRITE (R51): A write to DWIN_BASE moves the BAR2 window for accesses that reach the endpoint after it. -/
  | dwinBaseWrite (v : BitVec 32)
  /-- DWIN_ERR_READ (R49): A read of DWIN_ERR returns the count of dropped BAR2 accesses and clears it. -/
  | dwinErrRead
  /-- DEV_FAULT_CLEAR (R49): A W1C write to DEV_FAULT clears the fault bits written as 1. -/
  | devFaultClear (v : BitVec 32)
  /-- MSIX_VECTOR_UNMASK (R44): Unmasking an MSI-X vector whose pending bit is set sends its held message. -/
  | msixVectorUnmask (v : Fin 64)
  /-- MBX_RING (R55): A write to MBX_RING rings a slot's doorbell, setting BUSY and queuing it, or refuses it if the slot is busy. -/
  | mbxRing (t : Time) (v : BitVec 32)
  /-- MBX_DONE_CLEAR (R54): A W1C write to MBX_DONE_LO or MBX_DONE_HI clears completion bits. -/
  | mbxDoneClear (hi : Bool) (v : BitVec 32)
  /-- MBX_ERR_READ (R54): A read of MBX_ERR returns the refused-doorbell count and clears it. -/
  | mbxErrRead
  /-- DOORBELL_TAKE (R56): Uzogan takes the oldest doorbell from the queue, copies the slot and begins executing the command. -/
  | doorbellTake (t : Time)
  /-- EVQ_SIZE_WRITE (R65): A write to EVQ_SIZE sets size, hold-off and enable; setting EN from 0 to 1 resets HEAD, TAIL and PHASE. -/
  | evqSizeWrite (v : BitVec 32)
  /-- EVQ_BASE_WRITE (R65): A write to EVQ_BASE_LO or EVQ_BASE_HI sets the ring address, ignored while EN is 1. -/
  | evqBaseWrite (hi : Bool) (v : BitVec 32)
  /-- EVQ_HEAD_WRITE (R69): The host writes EVQ_HEAD to free entries it has read. -/
  | evqHeadWrite (v : BitVec 32)
  /-- EVQ_LOST_READ (R64): A read of EVQ_LOST returns the discarded-event count and clears it. -/
  | evqLostRead
  /-- EVENT_RING_WRITE (R67): The device writes the oldest waiting event as one 32-byte entry to the ring and advances TAIL when the ring has room. -/
  | eventRingWrite (t : Time)
  /-- EVQ_HOLDOFF_EXPIRY (R70): When the hold-off passes with TAIL differing from HEAD, vector 0 is sent. -/
  | evqHoldoffExpiry (t : Time)
  /-- SYS_NOP (R76): SYS.NOP copies its parameters to the response unchanged. -/
  | sysNop (r : Request)
  /-- SYS_INFO (R77): SYS.INFO returns the device identity, capacities and limits latched at execution. -/
  | sysInfo (r : Request)
  /-- SYS_RESET (R78): SYS.RESET completes with OK, posts a notice and schedules a warm or cold reset after the delay. -/
  | sysReset (r : Request)
  /-- SYS_RESET_DELAY_EXPIRY (R78): When the delay of a SYS.RESET passes, the warm or cold reset starts. -/
  | sysResetDelayExpiry (t : Time)
  /-- SYS_QUIESCE (R79): SYS.QUIESCE stops dispatch to a block and answers PENDING, or resumes the block. -/
  | sysQuiesce (r : Request)
  /-- QUIESCE_IDLE (R79): A quiescing block becomes idle and its SYS.QUIESCE reports OK. -/
  | quiesceIdle (t : Time) (b : Fin 36)
  /-- QUIESCE_TIMEOUT (R79): The quiesce timeout passes before the block is idle; the command reports OBJECT_IN_USE and the block resumes. -/
  | quiesceTimeout (t : Time) (b : Fin 36)
  /-- SYS_EVENT_MASK (R80): SYS.EVENT_MASK sets the lowest severity written to the ring for each group. -/
  | sysEventMask (r : Request)
  /-- SYS_STATS (R81): SYS.STATS returns the Senak counters and optionally clears them. -/
  | sysStats (r : Request)
  /-- GEN_STATUS (R106): GEN.STATUS returns the generation numbers, roles, boundaries, staged-change count and snapshot state. -/
  | genStatus (r : Request)
  /-- GEN_COMMIT (R90): GEN.COMMIT prepares and admits the staged generation, arms it for a boundary and opens a new staged generation. -/
  | genCommit (r : Request)
  /-- GEN_ROLLBACK (R102): GEN.ROLLBACK prepares the previous generation, arms it at the earliest boundary and opens a new staged generation. -/
  | genRollback (r : Request)
  /-- GEN_DISCARD (R101): GEN.DISCARD returns the staged generation to a copy of the armed or active one. -/
  | genDiscard (r : Request)
  /-- GEN_CANCEL (R100): GEN.CANCEL withdraws an armed commit and returns its changes to the staged generation. -/
  | genCancel (r : Request)
  /-- GEN_SNAPSHOT (R105): GEN.SNAPSHOT takes or releases a frozen copy of all statistics and runtime state. -/
  | genSnapshot (r : Request)
  /-- SNAPSHOT_EXPIRY (R105): A snapshot held for 10 s is released automatically. -/
  | snapshotExpiry (t : Time)
  /-- GEN_ACTIVATE (R98): At the armed boundary the armed generation becomes active, the active becomes previous and every engine switches. -/
  | genActivate
  /-- TICK_BOUNDARY (R111): At each tick boundary Clover checks deadlines, activates an armed generation and takes the new tick's items from the tick generator. -/
  | tickBoundary
  /-- ITEM_DEADLINE (R126): At the end of an item's deadline tick, a waiting item expires and a running one is a core fault of cause 4. -/
  | itemDeadline
  /-- WORK_ITEM_ENQUEUE (R114): A producer enqueues a 32-byte work item, which Clover checks, numbers and places in its ready lists. -/
  | workItemEnqueue (t : Time) (e : Enqueue)
  /-- ENQUEUE_STALL_RELEASE (R130): A producer stalled by back-pressure completes its enqueue when an entry frees. -/
  | enqueueStallRelease (t : Time)
  /-- SPILL_BLOCK (R128): While shared use is at or above the high mark, Clover moves a block of 64 waiting items to SPILL. -/
  | spillBlock (t : Time)
  /-- REFILL_BLOCK (R128): Below the low mark, Clover returns a block of 64 spilled items in dispatch order. -/
  | refillBlock (r : ReadBack)
  /-- ITEM_DISPATCH (R117): Clover hands the highest-ranked ready item to a free consumer. -/
  | itemDispatch (t : Time) (b : Fin 36) (p : Fin 9) (corrected : Nat)
  /-- ITEM_COMPLETE (R138): An item completes, its context selector flips and its outputs and enqueued items become eligible for release. -/
  | itemComplete (t : Time) (b : Fin 36) (p : Fin 9)
  /-- SCHED_STATUS (R133): SCHED.STATUS returns the store and spill state latched at a boundary. -/
  | schedStatus (r : Request)
  /-- SCHED_STATS (R134): SCHED.STATS returns the scheduler counters and optionally clears them. -/
  | schedStats (r : Request)
  /-- SCHED_FLOW (R135): SCHED.FLOW returns the waiting, in-service and sequence state of one flow. -/
  | schedFlow (r : Request)
  /-- CORE_FAULT (R142): A core fault fences the core, discards the shadow page and re-enqueues the item at level 0. -/
  | coreFault (t : Time) (b : Fin 16) (p : Fin 9) (cause : Fin 4)
  /-- SPARE_LOADED (R142): The cluster's spare is powered and loaded with the fenced position's image, claiming that position. -/
  | spareLoaded (t : Time) (b : Fin 16)
  /-- SPARE_ENTRY (R142): At the first boundary at least 20 µs after a fault, the spare takes the fenced position and the fenced core starts self-test. -/
  | spareEntry (t : Time) (b : Fin 16)
  /-- CORE_SELFTEST_END (R146): Self-test of a fenced core ends with pass or fail. -/
  | coreSelftestEnd (t : Time) (b : Fin 30) (r : UnitTest)
  /-- CORE_RETURN (R146): At the first boundary after self-test, a passing core takes an empty position or becomes the spare, and a failing one is marked unusable. -/
  | coreReturn (t : Time) (b : Fin 30)
  /-- CLUSTER_MEMORY_UE (R144): An uncorrectable cluster-memory error completes the item without output or restarts the context from initial state. -/
  | clusterMemoryUe (t : Time) (b : Fin 16) (p : Fin 9) (page : Bool)
  /-- LOAD_SHED_START (R149): From the boundary after degradation, firmware stops injecting whole legs until the charge fits the degraded limit. -/
  | loadShedStart (t : Time) (b : Fin 16)
  /-- LOAD_SHED_END (R149): Shedding ends at the first boundary at which the limit covers the charge. -/
  | loadShedEnd (t : Time) (b : Fin 16)
  /-- CAMPION_ENGINE_FAULT (R150): A Campion engine fault fences the engine and CAM8 takes over its state and replays the slice from the journal. -/
  | campionEngineFault (t : Time) (e : Fin 9)
  /-- CAMPION_SLICE_WATCHDOG (R141): A slice exceeding twice its cycle bound expires the watchdog and causes an engine fault. -/
  | campionSliceWatchdog (t : Time) (e : Fin 9)
  /-- MALLOW_ENGINE_FAULT (R152): A Mallow fault abandons the frame in composition, repeats each output's previous frame and passes outputs to MAL4. -/
  | mallowEngineFault (t : Time) (e : Fin 5)
  /-- CONTEXT_JOURNAL_COPY (R154): Every 16 ticks Clover copies each context's current page and selector to JOURNAL. -/
  | contextJournalCopy (t : Time)
  /-- WARM_RESUME (R155): At the first boundary after a warm boot, contexts restart from JOURNAL and unfinished pictures are completed. -/
  | warmResume (r : ReadBack)
  /-- FAULT_STATUS (R157): FAULT.STATUS returns the site maps, limit and demand of a block. -/
  | faultStatus (r : Request)
  /-- FAULT_STATS (R158): FAULT.STATS returns the fault counters and optionally clears them. -/
  | faultStats (r : Request)
  /-- FAULT_INJECT (R159): FAULT.INJECT arms a fault on the next item that a position takes. -/
  | faultInject (r : Request)
  /-- LEG_SET (R189): LEG.SET creates or replaces a leg in the staged generation. -/
  | legSet (r : Request)
  /-- LEG_DELETE (R190): LEG.DELETE removes a leg from the staged generation. -/
  | legDelete (r : Request)
  /-- LEG_QUERY (R191): LEG.QUERY returns a leg's configuration from a named generation. -/
  | legQuery (r : Request)
  /-- LEG_STATS (R194): LEG.STATS returns a leg's counters and state latched at a boundary. -/
  | legStats (r : Request)
  /-- LEG_DETECTOR (R192): LEG.DETECTOR defines a programmable tone detector. -/
  | legDetector (r : Request)
  /-- LEG_TONE_PLAY (R193): LEG.TONE_PLAY requests a tone or DTMF string on an active leg from the next boundary. -/
  | legTonePlay (r : Request)
  /-- LEG_TONE_STOP (R191): LEG.TONE_STOP ends a leg's tone at the next boundary. -/
  | legToneStop (r : Request)
  /-- TONE_COMMAND_TAKE_EFFECT (R186): A tone play or stop takes effect at its boundary, the later in doorbell order standing. -/
  | toneCommandTakeEffect (t : Time) (leg : Fin 8192)
  /-- LEG_TONE_DONE (R186): When a tone's repeats are exhausted at the end of the last off time, the tone ends and LEG.TONE_DONE is raised. -/
  | legToneDone (t : Time) (leg : Fin 8192)
  /-- LEG_ITEM (R165): A leg's tick item runs its receive and send chains for one tick. -/
  | legItem (t : Time) (x : LegTick)
  /-- EC_REENABLE_EXPIRY (R182): After the receive level stays below −36 dBm0 for 250 ms, cancellation resumes. -/
  | ecReenableExpiry (t : Time) (leg : Fin 8192)
  /-- LEG_RX_PACKET (R166): A packet classified to a leg is checked and stored in the jitter buffer, or discarded and counted. -/
  | legRxPacket (t : Time) (leg : Fin 8192)
  /-- LEG_MEDIA_TIMEOUT (R173): No valid packet for the media timeout moves the leg to TIMED_OUT. -/
  | legMediaTimeout (t : Time) (leg : Fin 8192)
  /-- JB_DELAY_STEP (R170): At each boundary whose tick number is a multiple of 200, D moves 1 ms toward the target. -/
  | jbDelayStep (t : Time) (leg : Fin 8192)
  /-- JB_HELD_DECAY (R170): Each 10 s without a late packet lowers the held target by 1 ms. -/
  | jbHeldDecay (t : Time) (leg : Fin 8192)
  /-- RTCP_SEND (R187): At a randomised RTCP interval, a leg or stream sends a compound RTCP packet. -/
  | rtcpSend (t : Time) (o : RtcpObject)
  /-- RTCP_RECEIVE (R318): A received RTCP packet updates statistics and passes PLI, FIR and TMMBR feedback on. -/
  | rtcpReceive (t : Time) (o : RtcpObject)
  /-- CONF_ITEM (R197): A conference's tick item forms the sums, minus-one mixes, equaliser outputs and shared encodes. -/
  | confItem (t : Time) (conf : Fin 2048)
  /-- CONF_SET (R219): CONF.SET creates or replaces a conference. -/
  | confSet (r : Request)
  /-- CONF_DELETE (R220): CONF.DELETE removes a conference. -/
  | confDelete (r : Request)
  /-- CONF_QUERY (R219): CONF.QUERY returns a conference's configuration. -/
  | confQuery (r : Request)
  /-- CONF_MEMBER (R221): CONF.MEMBER adds a leg to a conference or replaces its membership. -/
  | confMember (r : Request)
  /-- CONF_REMOVE (R221): CONF.REMOVE removes a leg from a conference. -/
  | confRemove (r : Request)
  /-- CONF_MEMBERS (R223): CONF.MEMBERS lists a conference's members from a starting index. -/
  | confMembers (r : Request)
  /-- CONF_STATUS (R224): CONF.STATUS returns the selected talkers and counters. -/
  | confStatus (r : Request)
  /-- ROUTE_SET (R225): ROUTE.SET creates or changes a route. -/
  | routeSet (r : Request)
  /-- ROUTE_DELETE (R225): ROUTE.DELETE removes a route. -/
  | routeDelete (r : Request)
  /-- ROUTE_LIST (R225): ROUTE.LIST returns the routes of a destination leg. -/
  | routeList (r : Request)
  /-- ROUTE_SAP_SET (R226): ROUTE.SAP_SET configures a serial audio port. -/
  | routeSapSet (r : Request)
  /-- ROUTE_SAP_QUERY (R226): ROUTE.SAP_QUERY returns a serial audio port's settings. -/
  | routeSapQuery (r : Request)
  /-- SAP_STOP (R217): A reconfigured serial audio port stops at the first boundary after the command. -/
  | sapStop (t : Time) (p : Fin 4)
  /-- SAP_RESTART (R217): A serial audio port restarts with its settings at the following boundary, or after READY following a warm reset. -/
  | sapRestart (t : Time) (p : Fin 4)
  /-- VID_SET (R261): VID.SET creates or replaces a video stream. -/
  | vidSet (r : Request)
  /-- VID_DELETE (R263): VID.DELETE removes a video stream. -/
  | vidDelete (r : Request)
  /-- VID_QUERY (R263): VID.QUERY returns a stream's configuration. -/
  | vidQuery (r : Request)
  /-- VID_STATS (R264): VID.STATS returns a stream's counters and state. -/
  | vidStats (r : Request)
  /-- VID_KEYFRAME (R265): VID.KEYFRAME makes a key-picture request or sends a PLI or FIR. -/
  | vidKeyframe (r : Request)
  /-- VID_PARAMSETS (R266): VID.PARAMSETS loads parameter sets for a decode stream. -/
  | vidParamsets (r : Request)
  /-- VID_GRAB (R267): VID.GRAB starts copying a stream's picture into HWIN and answers PENDING. -/
  | vidGrab (r : Request)
  /-- VID_GRAB_DONE (R267): The picture copy into HWIN completes and SYS.CMD_DONE reports it. -/
  | vidGrabDone (t : Time) (slot : Fin 64)
  /-- VIDEO_RTP_RECEIVE (R236): A video RTP packet is checked and added to the picture being assembled, or discarded. -/
  | videoRtpReceive (t : Time) (v : Fin 4096)
  /-- ASSEMBLE_TIMEOUT (R238): The assemble timeout since a picture's first packet completes the picture. -/
  | assembleTimeout (t : Time) (v : Fin 4096)
  /-- VIDEO_DECODE_PICTURE (R242): Campion decodes a complete picture, concealing and substituting as needed, and moves the stream's state. -/
  | videoDecodePicture (t : Time) (v : Fin 4096) (d : DecodeResult)
  /-- KEY_INTERVAL_END (R248): At the end of the key interval, merged key requests are sent as one. -/
  | keyIntervalEnd (t : Time) (v : Fin 4096)
  /-- VID_MEDIA_TIMEOUT (R242): No valid packet for the media timeout moves a decode stream to TIMED_OUT. -/
  | vidMediaTimeout (t : Time) (v : Fin 4096)
  /-- ENCODE_PICTURE_START (R249): At T(i) an encode stream takes its source picture and starts coding picture i. -/
  | encodePictureStart (t : Time) (v : Fin 4096)
  /-- VIDEO_ENCODE_SLICE (R256): Campion codes one slice row by row under rate control and queues its packets for launch. -/
  | videoEncodeSlice (t : Time) (v : Fin 4096) (c : SliceCode)
  /-- LAYOUT_SET (R289): LAYOUT.SET creates or changes a layout. -/
  | layoutSet (r : Request)
  /-- LAYOUT_LAYER (R290): LAYOUT.LAYER sets one layer of a layout. -/
  | layoutLayer (r : Request)
  /-- LAYOUT_IMAGE (R291): LAYOUT.IMAGE starts copying an image from HWIN into a slot and answers PENDING. -/
  | layoutImage (r : Request)
  /-- LAYOUT_IMAGE_DONE (R291): The image load into a slot completes and SYS.CMD_DONE reports it. -/
  | layoutImageDone (t : Time) (layout : Fin 256) (layer : Fin 8) (slot : Fin 2)
  /-- LAYOUT_SCALER (R292): LAYOUT.SCALER loads half of one direction of a coefficient set. -/
  | layoutScaler (r : Request)
  /-- LAYOUT_GAMMA (R293): LAYOUT.GAMMA loads a quarter of a gamma table. -/
  | layoutGamma (r : Request)
  /-- LAYOUT_DELETE (R294): LAYOUT.DELETE removes a layout. -/
  | layoutDelete (r : Request)
  /-- LAYOUT_QUERY (R294): LAYOUT.QUERY returns a layout and its layers. -/
  | layoutQuery (r : Request)
  /-- OUT_SET (R295): OUT.SET creates or changes a composed output. -/
  | outSet (r : Request)
  /-- OUT_REGION (R296): OUT.REGION sets one signature region. -/
  | outRegion (r : Request)
  /-- OUT_DELETE (R297): OUT.DELETE removes an output. -/
  | outDelete (r : Request)
  /-- OUT_QUERY (R297): OUT.QUERY returns an output and its regions. -/
  | outQuery (r : Request)
  /-- OUT_STATS (R297): OUT.STATS returns an output's counters. -/
  | outStats (r : Request)
  /-- OUT_SIGNATURES (R297): OUT.SIGNATURES returns the last completed frame's region CRCs. -/
  | outSignatures (r : Request)
  /-- COMPOSE_FRAME_START (R270): At F(i) an output starts composing frame i, or skips it. -/
  | composeFrameStart (t : Time) (o : Fin 64)
  /-- COMPOSE_FRAME_COMPLETE (R271): The last row of a frame is written, the signatures are compared and it becomes the completed frame. -/
  | composeFrameComplete (t : Time) (f : FrameEnd)
  /-- LAYOUT_FLATTEN (R284): A level-7 item flattens a layout's static run into a cache surface. -/
  | layoutFlatten (t : Time) (layout : Fin 256)
  /-- ETH_FRAME_RECEIVE (R319): A frame received on a port passes the rate limit, redundancy entity, classification and policers and goes to its consumer. -/
  | ethFrameReceive (t : Time) (port : Fin 4) (f : Frame) (fec : Fin 3)
  /-- POLICER_INTERVAL (R320): At each 1 µs interval of TIME every policer bucket receives its tokens. -/
  | policerInterval (t : Time)
  /-- FWD_SOURCE_TIMEOUT (R300): No valid relay packet for the media timeout puts its subscriptions in SOURCE_LOST. -/
  | fwdSourceTimeout (t : Time) (v : Fin 4096)
  /-- RATE_WINDOW (R309): At each 100 ms window boundary Sorrel computes layer rates and target rungs. -/
  | rateWindow (t : Time)
  /-- TMMBR_RECEIVE (R313): A TMMBR lowers the capacity in force, recomputes targets and is answered with a TMMBN. -/
  | tmmbrReceive (t : Time) (n : Fin 32768) (owner : BitVec 32) (bps : Nat)
  /-- KEY_WAIT_EXPIRY (R302): A subscription's key wait passes and a key request is made. -/
  | keyWaitExpiry (t : Time) (n : Fin 32768)
  /-- RELAY_KEY_INTERVAL_END (R312): Merged relay key requests are sent when the relay's key interval ends. -/
  | relayKeyIntervalEnd (t : Time) (v : Fin 4096)
  /-- SHAPER_RELEASE (R307): A packet waiting in a line queue leaves when the shaper has tokens for it. -/
  | shaperRelease (t : Time) (leg : Fin 8192)
  /-- PORT_TRANSMIT (R323): A free port starts the next eligible timed frame or the WFQ head with the smallest tag. -/
  | portTransmit (t : Time) (port : Fin 4)
  /-- SORREL_ECC_ERROR (R329): An uncorrectable error in Sorrel drops or stomps a frame, resets subscription state or refills a policer. -/
  | sorrelEccError (t : Time) (e : SorrelError)
  /-- FWD_RELAY_SET (R331): FWD.RELAY_SET creates or replaces a relay. -/
  | fwdRelaySet (r : Request)
  /-- FWD_SUB_SET (R332): FWD.SUB_SET creates or replaces a subscription. -/
  | fwdSubSet (r : Request)
  /-- FWD_LINE_SET (R333): FWD.LINE_SET creates or replaces a leg's line model. -/
  | fwdLineSet (r : Request)
  /-- FWD_POLICER_SET (R334): FWD.POLICER_SET creates or replaces a policer. -/
  | fwdPolicerSet (r : Request)
  /-- FWD_QUEUE_SET (R335): FWD.QUEUE_SET sets one WFQ queue or the port settings. -/
  | fwdQueueSet (r : Request)
  /-- FWD_COLOUR_MAP (R335): FWD.COLOUR_MAP sets the DSCP pre-colour map. -/
  | fwdColourMap (r : Request)
  /-- FWD_DELETE (R336): FWD.DELETE removes a forwarding object or restores queue defaults. -/
  | fwdDelete (r : Request)
  /-- FWD_QUERY (R336): FWD.QUERY returns a forwarding object's SET block. -/
  | fwdQuery (r : Request)
  /-- FWD_SUB_STATS (R337): FWD.SUB_STATS returns a subscription's counters and state. -/
  | fwdSubStats (r : Request)
  /-- FWD_PORT_STATS (R338): FWD.PORT_STATS returns a port's forwarding counters. -/
  | fwdPortStats (r : Request)
  /-- CRYPTO_REQUEST (R350): A security engine accepts a request, snapshots its slot and counter, and runs SRTP, SRTCP, sealing or a generic operation. -/
  | cryptoRequest (t : Time) (queue : Fin 2) (engine mismatch : Fin 3)
  /-- GRACE_KEY_EXPIRY (R351): A grace key is dropped when its grace time ends. -/
  | graceKeyExpiry (t : Time) (slot : Nat)
  /-- KEY_SLOT_LOST (R344): An uncorrectable error in a key slot empties the slot. -/
  | keySlotLost (t : Time) (e : SlotError)
  /-- KEY_STATUS (R374): KEY.STATUS returns engines in service, queue enable and slot use. -/
  | keyStatus (r : Request)
  /-- KEY_INSTALL (R347): KEY.INSTALL writes one key slot, plain or wrapped. -/
  | keyInstall (r : Request)
  /-- KEY_ERASE (R352): KEY.ERASE zeroises a run of slots. -/
  | keyErase (r : Request)
  /-- KEY_QUERY (R373): KEY.QUERY returns a slot's kind, profile, binding and counters. -/
  | keyQuery (r : Request)
  /-- KEY_BIND (R372): KEY.BIND binds a slot to a user page or unbinds it. -/
  | keyBind (r : Request)
  /-- KEY_DERIVE (R372): KEY.DERIVE derives a host key from the root key into a slot. -/
  | keyDerive (r : Request)
  /-- KEY_CRYPT (R363): KEY.CRYPT starts a generic operation on HWIN data and answers PENDING. -/
  | keyCrypt (r : Request)
  /-- KEY_CRYPT_DONE (R363): The generic operation completes, writes output and result block, and SYS.CMD_DONE reports it. -/
  | keyCryptDone (r : CryptoRun)
  /-- KEY_QUEUES (R360): KEY.QUEUES enables or disables the four request queues. -/
  | keyQueues (r : Request)
  /-- KEY_STATS (R374): KEY.STATS returns the security engine counters. -/
  | keyStats (r : Request)
  /-- PG_CTRL_GO (R366): Writing GO on a user page sets BUSY and starts the page's operation. -/
  | pgCtrlGo (t : Time) (u : Fin 16) (v : BitVec 32)
  /-- PAGE_OPERATION_DONE (R366): A user-page operation completes, clearing BUSY and setting DONE with its result. -/
  | pageOperationDone (r : CryptoRun) (u : Fin 16)
  /-- PG_STATUS_DONE_CLEAR (R365): A W1C write to PG_STATUS clears DONE. -/
  | pgStatusDoneClear (u : Fin 16) (v : BitVec 32)
  /-- PG_ERR_READ (R365): A read of PG_ERR returns the count of writes ignored while busy and clears it. -/
  | pgErrRead (u : Fin 16)
  /-- RECORD_ARRIVE (R378): A leg or video record reaches the recorder and is written into its segment, staged, or discarded. -/
  | recordArrive (t : Time)
  /-- SEGMENT_OPEN (R384): At each second boundary the segment of that second opens with its header and seal space reserved. -/
  | segmentOpen (t : Time)
  /-- SEGMENT_SEAL (R384): At S + 1 s + 2 ms a segment is hashed, sealed and linked, and staged records move to the next segment. -/
  | segmentSeal (r : CryptoRun)
  /-- REC_CONFIG (R394): REC.CONFIG sets the ring mode and seal event flag. -/
  | recConfig (r : Request)
  /-- REC_SELECT (R393): REC.SELECT sets the recording selection of one object. -/
  | recSelect (r : Request)
  /-- REC_QUERY (R393): REC.QUERY returns an object's selection. -/
  | recQuery (r : Request)
  /-- REC_STATUS (R395): REC.STATUS returns the ring positions and chain state. -/
  | recStatus (r : Request)
  /-- REC_READ (R396): REC.READ starts a DMA copy of ring bytes to host memory and answers PENDING. -/
  | recRead (r : Request)
  /-- REC_READ_DONE (R396): The ring copy completes or ends on a failed write, and SYS.CMD_DONE reports it. -/
  | recReadDone (t : Time) (slot : Fin 64) (failed : Bool)
  /-- REC_RELEASE (R397): REC.RELEASE moves the drain position. -/
  | recRelease (r : Request)
  /-- REC_VERIFY (R398): REC.VERIFY starts checking one segment in HWIN and answers PENDING. -/
  | recVerify (r : Request)
  /-- REC_VERIFY_DONE (R398): The segment check ends with OK or AUTH_FAILED and SYS.CMD_DONE reports it. -/
  | recVerifyDone (t : Time) (slot : Fin 64)
  /-- REC_MARK (R399): REC.MARK writes a host mark record into the segment in progress. -/
  | recMark (r : Request)
  /-- REC_CLEAR (R390): REC.CLEAR requests the ring be discarded at the next second boundary. -/
  | recClear (r : Request)
  /-- REC_CLEAR_APPLY (R390): At the next second boundary the ring positions return to 0 and a new chain starts. -/
  | recClearApply (t : Time)
  /-- ZIP_START (R408): ZIP.START starts a compression or decompression job on a context and answers PENDING. -/
  | zipStart (r : Request)
  /-- ZIP_RESUME (R409): ZIP.RESUME continues a job whose output filled, into a new buffer. -/
  | zipResume (r : Request)
  /-- ZIP_RESET (R409): ZIP.RESET discards a context's stream. -/
  | zipReset (r : Request)
  /-- ZIP_QUERY (R409): ZIP.QUERY returns a context's state and last result block. -/
  | zipQuery (r : Request)
  /-- ZIP_JOB_END (R404): A job stops on input consumed, output full, end of stream, data error or fault, writes its result block and reports. -/
  | zipJobEnd (t : Time) (c : Fin 64) (fault : Bool)
  /-- DSP_PARTITION (R438): DSP.PARTITION sets or removes a user partition. -/
  | dspPartition (r : Request)
  /-- DSP_LOAD (R439): DSP.LOAD starts loading a user image from HWIN and answers PENDING. -/
  | dspLoad (r : Request)
  /-- DSP_LOAD_DONE (R439): The image load is checked and reported in SYS.CMD_DONE. -/
  | dspLoadDone (t : Time) (slot : Fin 64)
  /-- DSP_QUERY (R438): DSP.QUERY returns a partition's settings. -/
  | dspQuery (r : Request)
  /-- DSP_STATUS (R440): DSP.STATUS returns a partition's image state and counters. -/
  | dspStatus (r : Request)
  /-- IMAGE_ACTIVATE (R435): At the first boundary at least 1 ms after a load, the partition's cores reload the new image. -/
  | imageActivate (t : Time)
  /-- ITEM_CTRL_DONE (R428): Writing ITEM_CTRL.DONE ends the item once its DMA channels are idle. -/
  | itemCtrlDone (t : Time) (b : Fin 16) (p : Fin 9)
  /-- ENQ_GO (R430): Writing ENQ_GO enqueues the descriptor in ENQ_D0–ENQ_D15, or is refused. -/
  | enqGo (t : Time) (b : Fin 16) (p : Fin 9)
  /-- DOORBELL_WRITE (R419): A write to DOORBELL raises interrupt source 4 on the named cores of the cluster. -/
  | doorbellWrite (t : Time) (b : Fin 16) (p : Fin 9) (pos : BitVec 9)
  /-- INT_PEND_CLEAR (R419): A W1C write to INT_PEND clears pending interrupt sources. -/
  | intPendClear (t : Time) (b : Fin 16) (p : Fin 9) (v : BitVec 8)
  /-- DMA_CTRL_GO (R427): Writing DMA_CTRL.GO checks the range and starts a DMA transfer. -/
  | dmaCtrlGo (t : Time) (b : Fin 16) (p : Fin 9) (ch : Fin 4) (irq : Bool)
  /-- DMA_DONE (R427): A DMA transfer completes, sets DONE and raises its interrupt source if enabled. -/
  | dmaDone (t : Time) (b : Fin 16) (p : Fin 9) (ch : Fin 4) (failing : List Nat)
  /-- DMA_STAT_CLEAR (R419): A W1C write to DMA_STAT clears DONE or ERR. -/
  | dmaStatClear (t : Time) (b : Fin 16) (p : Fin 9) (ch : Fin 4) (clearDone clearErr : Bool)
  /-- INTERRUPT_ENTRY (R423): An enabled pending source at an interruptible boundary saves IPC and ISW and enters its vector. -/
  | interruptEntry (t : Time) (b : Fin 16) (p : Fin 9)
  /-- YARROW_NOP (R452): NOP performs only its parallel moves. -/
  | yarrowNop (t : Time) (b : Fin 16) (p : Fin 9) (w : BitVec 41)
  /-- YARROW_MPY (R452): MPY replaces ACCd with Xa × Xb. -/
  | yarrowMpy (t : Time) (b : Fin 16) (p : Fin 9) (w : BitVec 41)
  /-- YARROW_MAC (R452): MAC adds Xa × Xb to ACCd. -/
  | yarrowMac (t : Time) (b : Fin 16) (p : Fin 9) (w : BitVec 41)
  /-- YARROW_MSU (R452): MSU subtracts Xa × Xb from ACCd. -/
  | yarrowMsu (t : Time) (b : Fin 16) (p : Fin 9) (w : BitVec 41)
  /-- YARROW_QMPY (R452): QMPY forms four lane products into ACC0–ACC3. -/
  | yarrowQmpy (t : Time) (b : Fin 16) (p : Fin 9) (w : BitVec 41)
  /-- YARROW_QMAC (R452): QMAC accumulates four lane products. -/
  | yarrowQmac (t : Time) (b : Fin 16) (p : Fin 9) (w : BitVec 41)
  /-- YARROW_CMPY (R461): CMPY forms the four partial products of a complex multiply. -/
  | yarrowCmpy (t : Time) (b : Fin 16) (p : Fin 9) (w : BitVec 41)
  /-- YARROW_FTAP (R460): FTAP computes one filter tap in four lanes and shifts the sample registers. -/
  | yarrowFtap (t : Time) (b : Fin 16) (p : Fin 9) (w : BitVec 41)
  /-- YARROW_MACM (R452): MACM accumulates the product of the two words its moves load. -/
  | yarrowMacm (t : Time) (b : Fin 16) (p : Fin 9) (w : BitVec 41)
  /-- YARROW_ADD_ACC (R452): ADD adds ACCs to ACCd. -/
  | yarrowAddAcc (t : Time) (b : Fin 16) (p : Fin 9) (w : BitVec 41)
  /-- YARROW_SUB_ACC (R452): SUB subtracts ACCs from ACCd. -/
  | yarrowSubAcc (t : Time) (b : Fin 16) (p : Fin 9) (w : BitVec 41)
  /-- YARROW_ADDX (R452): ADDX adds a placed X register to ACCd. -/
  | yarrowAddx (t : Time) (b : Fin 16) (p : Fin 9) (w : BitVec 41)
  /-- YARROW_SUBX (R452): SUBX subtracts a placed X register from ACCd. -/
  | yarrowSubx (t : Time) (b : Fin 16) (p : Fin 9) (w : BitVec 41)
  /-- YARROW_NEG (R452): NEG negates ACCd. -/
  | yarrowNeg (t : Time) (b : Fin 16) (p : Fin 9) (w : BitVec 41)
  /-- YARROW_ABS (R452): ABS takes the absolute value of ACCd. -/
  | yarrowAbs (t : Time) (b : Fin 16) (p : Fin 9) (w : BitVec 41)
  /-- YARROW_CLR (R452): CLR clears ACCd. -/
  | yarrowClr (t : Time) (b : Fin 16) (p : Fin 9) (w : BitVec 41)
  /-- YARROW_MOVA (R452): MOVA copies ACCs to ACCd. -/
  | yarrowMova (t : Time) (b : Fin 16) (p : Fin 9) (w : BitVec 41)
  /-- YARROW_ASH (R465): ASH shifts ACCd by an immediate count. -/
  | yarrowAsh (t : Time) (b : Fin 16) (p : Fin 9) (w : BitVec 41)
  /-- YARROW_ASHB (R465): ASHB shifts ACCd by BE. -/
  | yarrowAshb (t : Time) (b : Fin 16) (p : Fin 9) (w : BitVec 41)
  /-- YARROW_TST (R452): TST sets flags from ACCd. -/
  | yarrowTst (t : Time) (b : Fin 16) (p : Fin 9) (w : BitVec 41)
  /-- YARROW_CFOLD (R461): CFOLD folds partial products into a complex product. -/
  | yarrowCfold (t : Time) (b : Fin 16) (p : Fin 9) (w : BitVec 41)
  /-- YARROW_BFLY (R461): BFLY forms a radix-2 butterfly, optionally halved. -/
  | yarrowBfly (t : Time) (b : Fin 16) (p : Fin 9) (w : BitVec 41)
  /-- YARROW_NORM (R463): NORM normalises ACCd and writes the shift to Xa. -/
  | yarrowNorm (t : Time) (b : Fin 16) (p : Fin 9) (w : BitVec 41)
  /-- YARROW_CVT (R414): CVT converts ACCd to a 24-bit X register with a shift. -/
  | yarrowCvt (t : Time) (b : Fin 16) (p : Fin 9) (w : BitVec 41)
  /-- YARROW_BEXP_X (R462): BEXP Xa merges the headroom of Xa into BE. -/
  | yarrowBexpX (t : Time) (b : Fin 16) (p : Fin 9) (w : BitVec 41)
  /-- YARROW_BEXP_ACC (R462): BEXP ACCd merges the headroom of ACCd into BE. -/
  | yarrowBexpAcc (t : Time) (b : Fin 16) (p : Fin 9) (w : BitVec 41)
  /-- YARROW_BEXPQ (R462): BEXPQ merges the headroom of ACC0–ACC3 into BE. -/
  | yarrowBexpq (t : Time) (b : Fin 16) (p : Fin 9) (w : BitVec 41)
  /-- YARROW_ADD_X (R452): ADD Xa, Xb adds X registers modulo 2^24. -/
  | yarrowAddX (t : Time) (b : Fin 16) (p : Fin 9) (w : BitVec 41)
  /-- YARROW_SUB_X (R452): SUB Xa, Xb subtracts X registers modulo 2^24. -/
  | yarrowSubX (t : Time) (b : Fin 16) (p : Fin 9) (w : BitVec 41)
  /-- YARROW_CMP (R452): CMP sets flags from Xa − Xb. -/
  | yarrowCmp (t : Time) (b : Fin 16) (p : Fin 9) (w : BitVec 41)
  /-- YARROW_AND (R452): AND forms the bitwise and of two X registers. -/
  | yarrowAnd (t : Time) (b : Fin 16) (p : Fin 9) (w : BitVec 41)
  /-- YARROW_OR (R452): OR forms the bitwise or of two X registers. -/
  | yarrowOr (t : Time) (b : Fin 16) (p : Fin 9) (w : BitVec 41)
  /-- YARROW_XOR (R452): XOR forms the bitwise exclusive or of two X registers. -/
  | yarrowXor (t : Time) (b : Fin 16) (p : Fin 9) (w : BitVec 41)
  /-- YARROW_LSL (R465): LSL shifts an X register left with zero fill. -/
  | yarrowLsl (t : Time) (b : Fin 16) (p : Fin 9) (w : BitVec 41)
  /-- YARROW_ASR (R465): ASR shifts an X register right with sign fill. -/
  | yarrowAsr (t : Time) (b : Fin 16) (p : Fin 9) (w : BitVec 41)
  /-- YARROW_LSR (R465): LSR shifts an X register right with zero fill. -/
  | yarrowLsr (t : Time) (b : Fin 16) (p : Fin 9) (w : BitVec 41)
  /-- YARROW_MOVE (R446): MOVE copies one register to another, converting where required. -/
  | yarrowMove (t : Time) (b : Fin 16) (p : Fin 9) (w : BitVec 40)
  /-- YARROW_MOVEI16 (R453): MOVEI with a 16-bit immediate loads a register. -/
  | yarrowMovei16 (t : Time) (b : Fin 16) (p : Fin 9) (w : BitVec 40)
  /-- YARROW_MOVEI24 (R453): The long MOVEI loads a register with a 24-bit constant. -/
  | yarrowMovei24 (t : Time) (b : Fin 16) (p : Fin 9) (w : BitVec 40) (w2 : BitVec 48)
  /-- YARROW_LD_X_DIRECT (R453): LD from a short direct X address. -/
  | yarrowLdXDirect (t : Time) (b : Fin 16) (p : Fin 9) (w : BitVec 40)
  /-- YARROW_LD_X_LONG (R453): LD from a long direct X address. -/
  | yarrowLdXLong (t : Time) (b : Fin 16) (p : Fin 9) (w : BitVec 40) (w2 : BitVec 48)
  /-- YARROW_LD_Y_DIRECT (R453): LD from a short direct Y address. -/
  | yarrowLdYDirect (t : Time) (b : Fin 16) (p : Fin 9) (w : BitVec 40)
  /-- YARROW_LD_Y_LONG (R453): LD from a long direct Y address. -/
  | yarrowLdYLong (t : Time) (b : Fin 16) (p : Fin 9) (w : BitVec 40) (w2 : BitVec 48)
  /-- YARROW_ST_X_DIRECT (R453): ST to a short direct X address. -/
  | yarrowStXDirect (t : Time) (b : Fin 16) (p : Fin 9) (w : BitVec 40)
  /-- YARROW_ST_X_LONG (R453): ST to a long direct X address. -/
  | yarrowStXLong (t : Time) (b : Fin 16) (p : Fin 9) (w : BitVec 40) (w2 : BitVec 48)
  /-- YARROW_ST_Y_DIRECT (R453): ST to a short direct Y address. -/
  | yarrowStYDirect (t : Time) (b : Fin 16) (p : Fin 9) (w : BitVec 40)
  /-- YARROW_ST_Y_LONG (R453): ST to a long direct Y address. -/
  | yarrowStYLong (t : Time) (b : Fin 16) (p : Fin 9) (w : BitVec 40) (w2 : BitVec 48)
  /-- YARROW_LD_X_INDEXED (R453): LD from X:(Pn+Nn). -/
  | yarrowLdXIndexed (t : Time) (b : Fin 16) (p : Fin 9) (w : BitVec 40)
  /-- YARROW_LD_Y_INDEXED (R453): LD from Y:(Pn+Nn). -/
  | yarrowLdYIndexed (t : Time) (b : Fin 16) (p : Fin 9) (w : BitVec 40)
  /-- YARROW_ST_X_INDEXED (R453): ST to X:(Pn+Nn). -/
  | yarrowStXIndexed (t : Time) (b : Fin 16) (p : Fin 9) (w : BitVec 40)
  /-- YARROW_ST_Y_INDEXED (R453): ST to Y:(Pn+Nn). -/
  | yarrowStYIndexed (t : Time) (b : Fin 16) (p : Fin 9) (w : BitVec 40)
  /-- YARROW_MODP (R453): MODP applies a pointer update under Mn without an access. -/
  | yarrowModp (t : Time) (b : Fin 16) (p : Fin 9) (w : BitVec 40)
  /-- YARROW_BRA (R455): BRA branches on a condition after two delay slots. -/
  | yarrowBra (t : Time) (b : Fin 16) (p : Fin 9) (w : BitVec 40)
  /-- YARROW_CALL (R455): CALL saves the return address in P7 and branches. -/
  | yarrowCall (t : Time) (b : Fin 16) (p : Fin 9) (w : BitVec 40)
  /-- YARROW_JMP (R455): JMP branches conditionally to the address in Pn. -/
  | yarrowJmp (t : Time) (b : Fin 16) (p : Fin 9) (w : BitVec 40)
  /-- YARROW_RTI (R455): RTI restores PC from IPC and SW from ISW. -/
  | yarrowRti (t : Time) (b : Fin 16) (p : Fin 9) (w : BitVec 40)
  /-- YARROW_REP_IMM (R464): REP #n repeats the next one-cycle instruction n times. -/
  | yarrowRepImm (t : Time) (b : Fin 16) (p : Fin 9) (w : BitVec 40)
  /-- YARROW_REP_LC (R464): REP LC repeats the next instruction LC times. -/
  | yarrowRepLc (t : Time) (b : Fin 16) (p : Fin 9) (w : BitVec 40)
  /-- TDM_SDH_SET (R492): TDM.SDH_SET configures an SDH port. -/
  | tdmSdhSet (r : Request)
  /-- TDM_PDH_SET (R493): TDM.PDH_SET configures a PDH port. -/
  | tdmPdhSet (r : Request)
  /-- TDM_TRIB_SET (R493): TDM.TRIB_SET configures a VC-12 tributary. -/
  | tdmTribSet (r : Request)
  /-- TDM_XC_SET (R494): TDM.XC_SET creates a cross-connect. -/
  | tdmXcSet (r : Request)
  /-- TDM_BYPASS_SET (R495): TDM.BYPASS_SET creates or replaces a bypass group. -/
  | tdmBypassSet (r : Request)
  /-- TDM_PROT_SET (R496): TDM.PROT_SET creates or replaces a protection pair. -/
  | tdmProtSet (r : Request)
  /-- TDM_PROT_CMD (R497): TDM.PROT_CMD places or clears an operator request on a pair. -/
  | tdmProtCmd (r : Request)
  /-- TDM_DELETE (R498): TDM.DELETE removes a cross-connect, bypass group or pair. -/
  | tdmDelete (r : Request)
  /-- TDM_QUERY (R498): TDM.QUERY returns a TDM object's SET block. -/
  | tdmQuery (r : Request)
  /-- TDM_STATUS (R499): TDM.STATUS returns a line's defects and state. -/
  | tdmStatus (r : Request)
  /-- TDM_COUNTERS (R499): TDM.COUNTERS returns a line's latched performance counters. -/
  | tdmCounters (r : Request)
  /-- TDM_CAS (R500): TDM.CAS reads or writes a timeslot's ABCD code. -/
  | tdmCas (r : Request)
  /-- LINE_SETTING_APPLY (R490): A port or tributary setting takes effect at the first tick boundary after its command. -/
  | lineSettingApply (t : Time)
  /-- SDH_FRAME_RECEIVE (R470): A received SDH frame is framed, its pointers interpreted and overhead processed. -/
  | sdhFrameReceive (t : Time) (port : Fin 4) (f : SdhFrame)
  /-- E1_FRAME_RECEIVE (R472): A received E1 frame is aligned, CRC-4 and CAS checked, and written to the slip store. -/
  | e1FrameReceive (t : Time) (e : Fin 1024) (v : BitVec 256)
  /-- T1_FRAME_RECEIVE (R475): A received T1 frame is aligned, CRC-6 checked and written to the slip store. -/
  | t1FrameReceive (t : Time) (n : Fin 16) (v : BitVec 193)
  /-- CRC4_MULTIFRAME_TIMEOUT (R473): No CRC-4 multiframe alignment within 8 ms raises multiframe loss and restarts the search. -/
  | crc4MultiframeTimeout (t : Time) (e : Fin 1024)
  /-- LOS_INPUT (R476): An optics or PDH LOS input changes, raising or clearing LOS. -/
  | losInput (t : Time) (line : Fin 20) (on : Bool)
  /-- TDM_INTERNAL_FRAME (R485): At each 125 µs internal frame start the switch takes frames from the slip stores, forms every output and bypass sum from the active page. -/
  | tdmInternalFrame (t : Time)
  /-- TDM_MEMORY_ERROR (R488): An uncorrectable page or slip-store error idles the output and the word is rewritten. -/
  | tdmMemoryError (t : Time) (e : TdmError)
  /-- PROT_ALIGN_SEARCH (R482): Every 100 ms an unaligned pair searches for its offset. -/
  | protAlignSearch (t : Time) (w : Fin 1008) (m : PairStreams)
  /-- PROT_ALIGN_RECHECK (R482): Once per second an aligned pair is rechecked. -/
  | protAlignRecheck (t : Time) (w : Fin 1008) (m : PairStreams)
  /-- PROT_HOLDOFF_EXPIRY (R484): SF or SD that persists for the hold-off time takes effect in the selector. -/
  | protHoldoffExpiry (t : Time) (w : Fin 1008)
  /-- WAIT_TO_RESTORE_EXPIRY (R484): Wait-to-restore ends and a revertive pair returns to working. -/
  | waitToRestoreExpiry (t : Time) (w : Fin 1008)
  /-- SD_SECOND (R484): At each second boundary the V5 BIP-2 count is judged against the SD threshold. -/
  | sdSecond (t : Time)
  /-- TDM_COUNTER_LATCH (R489): At each TIME second boundary all counters of every line are latched. -/
  | tdmCounterLatch (t : Time)
  /-- NET_PORT_SET (R516): NET.PORT_SET sets a port's mode, frame size, address and corrections. -/
  | netPortSet (r : Request)
  /-- NET_PAIR_SET (R517): NET.PAIR_SET sets a pair's redundancy mode and timers. -/
  | netPairSet (r : Request)
  /-- NET_CLASS_SET (R518): NET.CLASS_SET sets a receive class. -/
  | netClassSet (r : Request)
  /-- NET_QUERY (R516): NET.QUERY returns a port, pair or class setting. -/
  | netQuery (r : Request)
  /-- NET_TS_READ (R519): NET.TS_READ removes and returns transmit time stamps. -/
  | netTsRead (r : Request)
  /-- NET_SYNCE_SET (R519): NET.SYNCE_SET selects a SyncE output's source and divider. -/
  | netSynceSet (r : Request)
  /-- NET_STATS (R520): NET.STATS returns a port's counters. -/
  | netStats (r : Request)
  /-- PORT_SETTING_APPLY (R503): A port setting takes effect at the first tick boundary after its command. -/
  | portSettingApply (t : Time)
  /-- LINK_UP_HOLD_EXPIRY (R503): A port that has held lock without fault for 10 ms goes up. -/
  | linkUpHoldExpiry (t : Time) (p : Fin 4)
  /-- LINK_LOSS (R503): Loss of block lock, FEC alignment or a fault takes a port down. -/
  | linkLoss (t : Time) (p cause : Fin 4)
  /-- SUPERVISION_FRAME_SEND (R511): Each life check interval, a supervision frame is sent. -/
  | supervisionFrameSend (t : Time) (n : Fin 2)
  /-- NODE_ENTRY_AGE_OUT (R513): A node-table entry ages out after the node forget time. -/
  | nodeEntryAgeOut (t : Time)
  /-- NET_LAN_FAULT (R513): A LAN silent for 3 life check intervals raises NET.LAN_FAULT. -/
  | netLanFault (t : Time) (p : Fin 4)
  /-- NET_RING_OPEN (R513): Own supervision frames missing for 3 intervals raise NET.RING_OPEN. -/
  | netRingOpen (t : Time) (n : Fin 2)
  /-- TIME_STATUS (R548): TIME.STATUS returns the servo and time state latched at a boundary. -/
  | timeStatus (r : Request)
  /-- TIME_SET (R526): TIME.SET steps the counter now, by an amount, or arms a step at the next second. -/
  | timeSet (r : Request)
  /-- TIME_SET_ARMED_APPLY (R526): An armed mode-2 TIME.SET steps the counter at the next second boundary reached by counting. -/
  | timeSetArmedApply
  /-- TIME_ADJUST (R527): TIME.ADJUST starts, replaces or cancels a slew. -/
  | timeAdjust (r : Request)
  /-- SLEW_END (R527): A slew that has gained or lost its whole offset ends. -/
  | slewEnd (t : Time)
  /-- TIME_SERVO_SET (R544): TIME.SERVO_SET selects sources and servo parameters. -/
  | timeServoSet (r : Request)
  /-- TIME_PTP_SET (R545): TIME.PTP_SET configures a PTP port. -/
  | timePtpSet (r : Request)
  /-- TIME_PINS_SET (R546): TIME.PINS_SET configures the timing pins. -/
  | timePinsSet (r : Request)
  /-- TIME_LAUNCH_SET (R547): TIME.LAUNCH_SET sets a port's launch tolerance and late action. -/
  | timeLaunchSet (r : Request)
  /-- TIME_STATS (R549): TIME.STATS returns servo and launch counters. -/
  | timeStats (r : Request)
  /-- PPS_IN_EDGE (R529): A PPS_IN edge is stamped and given to the servo as a phase measurement. -/
  | ppsInEdge (t : Time) (rising : Bool)
  /-- PTP_MEASUREMENT (R530): Firmware reports an offset from a Sync exchange and the servo updates. -/
  | ptpMeasurement (t : Time) (m : PtpOffset)
  /-- PTP_MESSAGE_RECEIVE (R535): A PTP or ESMC frame in class 1 reaches firmware. -/
  | ptpMessageReceive (t : Time) (m : PtpMessage)
  /-- FREQ_MEASUREMENT (R529): Once per second a frequency source's offset is taken and the servo updates. -/
  | freqMeasurement (t : Time) (f : Rat)
  /-- PPS_IN_LOST (R529): 1.5 s without an accepted PPS_IN edge loses the source. -/
  | ppsInLost (t : Time)
  /-- PTP_SOURCE_LOST (R529): Firmware reports announce timeout or missing Syncs and the PTP source is lost. -/
  | ptpSourceLost (t : Time)
  /-- HOLDOVER_LIMIT_EXPIRY (R531): The holdover limit passes while in HOLDOVER. -/
  | holdoverLimitExpiry (t : Time)
  /-- PPS_OUT_PULSE (R536): PPS_OUT rises at S + offset for each second reached by counting. -/
  | ppsOutPulse (t : Time)
  /-- PPS_OUT_PULSE_END (R536): PPS_OUT falls at the end of its width. -/
  | ppsOutPulseEnd (t : Time)
  /-- TIMED_QUEUE_ENQUEUE (R537): A frame with a launch time enters its port's timed queue, or is discarded. -/
  | timedQueueEnqueue (t : Time) (port : Fin 4) (f : TimedFrame)
  /-- TIMED_LAUNCH (R539): A timed frame becomes eligible at its launch time and is sent or dropped by its lateness. -/
  | timedLaunch (t : Time) (port : Fin 4)
  /-- HSP_SET (R563): HSP.SET configures a host stream port. -/
  | hspSet (r : Request)
  /-- HSP_QUERY (R563): HSP.QUERY returns a host stream port's settings. -/
  | hspQuery (r : Request)
  /-- HSP_STATS (R564): HSP.STATS returns a host stream port's counters. -/
  | hspStats (r : Request)
  /-- HSP_IN_TAIL_WRITE (R559): The host writes HSP_IN_TAIL to hand inbound descriptors to the device. -/
  | hspInTailWrite (h : Fin 64) (v : BitVec 32)
  /-- HSP_OUT_TAIL_WRITE (R559): The host writes HSP_OUT_TAIL to post outbound buffers. -/
  | hspOutTailWrite (h : Fin 64) (v : BitVec 32)
  /-- HSP_SIZE_WRITE (R560): A write to HSP_IN_SIZE or HSP_OUT_SIZE sets size and enable; clearing EN stops the ring after the packet in progress. -/
  | hspSizeWrite (h : Fin 64) (out : Bool) (v : BitVec 32)
  /-- HSP_ERR_CLEAR (R559): A W1C write to HSP_ERR clears error bits. -/
  | hspErrClear (h : Fin 64) (v : BitVec 32)
  /-- HSP_INBOUND_FETCH (R556): The device fetches an inbound descriptor and its packet when the FIFO has room, and completes the descriptor. -/
  | hspInboundFetch (t : Time) (h : Fin 64) (poisoned : Bool)
  /-- HSP_OUTBOUND_WRITE (R556): An outbound packet is written into the next posted buffer and its descriptor completed. -/
  | hspOutboundWrite (t : Time) (h : Fin 64) (poisoned : Bool)
  /-- HSP_VECTOR_SEND (R561): After a descriptor completes and the hold-off passes, the port's vector is sent. -/
  | hspVectorSend (t : Time) (h : Fin 64)
  /-- FIFO_WRITE (R552): A producer writes a word into a stream FIFO, waiting while it is full. -/
  | fifoWrite (t : Time) (h : Fin 64) (out : Bool) (w : BitVec 64) (last : Bool)
  /-- FIFO_READ (R552): A consumer reads a word, the idle item when empty, with parity checked. -/
  | fifoRead (t : Time) (h : Fin 64) (out : Bool) (upset : Bool)
  /-- MEM_STATUS (R584): MEM.STATUS returns the DRAM state. -/
  | memStatus (r : Request)
  /-- MEM_MAP (R585): MEM.MAP reads or stores the address hash masks. -/
  | memMap (r : Request)
  /-- MEM_REGIONS (R586): MEM.REGIONS reads or stores region sizes. -/
  | memRegions (r : Request)
  /-- MEM_SCRUB (R587): MEM.SCRUB sets the scrub interval and, at level 1, the power-down timer. -/
  | memScrub (r : Request)
  /-- MEM_ERRORS (R588): MEM.ERRORS returns the DRAM error counters and log. -/
  | memErrors (r : Request)
  /-- MEM_INJECT (R589): MEM.INJECT corrupts the check bytes of the next write of a line. -/
  | memInject (r : Request)
  /-- DRAM_REQUEST (R571): A subchannel controller serves a queued read or write request. -/
  | dramRequest (t : Time) (ctl : Fin 16) (arrivals : List LineAccess) (err : LineErr)
  /-- REFRESH_INTERVAL (R573): A rank's refresh interval passes and its refresh is deferred or becomes due. -/
  | refreshInterval (t : Time) (rank : Fin 64)
  /-- DRAM_REFRESH (R573): A due refresh is issued ahead of every other request with the rank's deferred refreshes. -/
  | dramRefresh (t : Time) (rank : Fin 64)
  /-- MR4_POLL (R573): Every 32 ms the controller reads MR4 of every rank. -/
  | mr4Poll (t : Time) (hot : List (Fin 64 × Fin 3))
  /-- ZQ_CALIBRATION (R574): Every 128 ms a rank runs ZQ calibration. -/
  | zqCalibration (t : Time) (rank : Fin 64)
  /-- DQS_RECENTRE (R574): Every second the controller re-centres read and write timing. -/
  | dqsRecentre (t : Time)
  /-- PATROL_SCRUB (R576): When nothing else is queued, patrol scrub reads and corrects the next line. -/
  | patrolScrub (t : Time) (err : LineErr)
  /-- RANK_POWER_DOWN (R579): At level 1 a rank idle for the timer enters precharge power-down. -/
  | rankPowerDown (t : Time) (rank : Fin 64)
  /-- DRAM_TRAINING (R574): Cold-boot training runs and ends, or fails. -/
  | dramTraining (t : Time) (r : TrainResult)
  /-- PWR_STATUS (R608): PWR.STATUS returns the power, thermal and PLL state. -/
  | pwrStatus (r : Request)
  /-- PWR_SET (R605): PWR.SET sets the staged power set point. -/
  | pwrSet (r : Request)
  /-- PWR_QUERY (R605): PWR.QUERY returns a generation's power set point. -/
  | pwrQuery (r : Request)
  /-- PWR_STATE (R598): PWR.STATE requests Run, Sleep, Deep sleep or Off. -/
  | pwrState (r : Request)
  /-- PWR_THERMAL_SET (R607): PWR.THERMAL_SET sets the thermal warning threshold. -/
  | pwrThermalSet (r : Request)
  /-- POWER_DOWN_DELAY_EXPIRY (R598): 10 ms after a Deep sleep or Off request, the key store is zeroised and the domains or supplies go off. -/
  | powerDownDelayExpiry (t : Time)
  /-- WAKE_N_ASSERT (R598): WAKE_N low for 1 µs wakes the device from Sleep, Deep sleep or Off. -/
  | wakeNAssert (t : Time) (low : Nat)
  /-- DEEP_SLEEP_TIMED_WAKE (R598): The wake time given in PWR.STATE wakes the device from Deep sleep. -/
  | deepSleepTimedWake (t : Time)
  /-- SLEEP_WAKE_ACCESS (R598): A doorbell, user-page or stream-port access in Sleep wakes the device to Run. -/
  | sleepWakeAccess (t : Time) (a : WakeAccess)
  /-- POWER_GOOD (R594): The regulator reports power-good and the monitor is within 10 mV, allowing the frequency switch. -/
  | powerGood (t : Time) (mv : Nat)
  /-- DVFS_TIMEOUT (R595): No power-good within 1 ms of the voltage write fails the commit and returns the voltage. -/
  | dvfsTimeout (t : Time)
  /-- DOMAIN_IDLE_OFF (R600): An auto domain idle for the set point's idle time is powered off. -/
  | domainIdleOff (t : Time) (b : Fin 36)
  /-- DOMAIN_WAKE (R601): A demand on an off domain powers it up and the demand waits until it is ready. -/
  | domainWake (t : Time) (b : Fin 36)
  /-- DOMAIN_READY (R601): A waking domain becomes ready and its stalled demand proceeds. -/
  | domainReady (t : Time) (b : Fin 36)
  /-- PLL_LOSS_OF_LOCK (R591): A PLL output leaving ±1 % for 1 µs declares loss of lock and holds its blocks in reset. -/
  | pllLossOfLock (t : Time) (p : Fin 10)
  /-- PLL_LOCK (R591): A PLL output within ±1 % for 256 cycles declares lock. -/
  | pllLock (t : Time) (p : Fin 10)
  /-- THERMAL_SAMPLE (R602): Every 100 µs the temperature sensors are sampled and thresholds judged. -/
  | thermalSample (t : Time) (temps : List Int)
  /-- PORST_N_ASSERT (R610): PORST_N low for 1 µs, or VDD_AON below 0.70 V, starts a cold reset. -/
  | porstNAssert (t : Time) (low : Nat)
  /-- PORST_N_RELEASE (R621): The rise of PORST_N starts the cold boot. -/
  | porstNRelease (t : Time) (b : ColdBoot)
  /-- WRST_N_ASSERT (R610): WRST_N low for 1 µs holds the device in warm reset. -/
  | wrstNAssert (t : Time) (low : Nat)
  /-- WRST_N_RELEASE (R611): The rise of WRST_N starts the warm boot. -/
  | wrstNRelease (t : Time) (imageOk : Bool)
  /-- WATCHDOG_EXPIRY (R610): No watchdog service for 8 ms causes a warm reset. -/
  | watchdogExpiry (t : Time)
  /-- PERST_N_ASSERT (R612): PERST_N low holds the endpoint in reset, or starts a warm reset under action 1. -/
  | perstNAssert (t : Time)
  /-- PERST_N_RELEASE (R612): PERST_N rising releases the endpoint, or wakes the device from Deep sleep. -/
  | perstNRelease (t : Time)
  /-- PCIE_HOT_RESET (R612): A received hot reset causes an endpoint or warm reset. -/
  | pcieHotReset (t : Time)
  /-- PCIE_LINK_DOWN (R612): PCIe link-down causes an endpoint or warm reset. -/
  | pcieLinkDown (t : Time)
  /-- PCIE_LINK_UP (R43): The link trains to at least 8 GT/s ×8 and the device answers configuration requests. -/
  | pcieLinkUp (t : Time) (rate width : Nat)
  /-- OTP_LOAD_END (R619): An OTP shadow load ends; a failing CRC is retried, and a third failure starts safe boot. -/
  | otpLoadEnd (t : Time) (crcOk : Bool)
  /-- BLOCK_RELEASE (R620): A block whose release was deferred is released once its PLL has held lock for 256 cycles. -/
  | blockRelease (t : Time) (b : Fin 36)
  /-- DEVICE_READY (R621): Boot completes, generation 1 or the kept generation is ready and DEV_STATUS.READY sets. -/
  | deviceReady (t : Time)
  /-- BOOT_STATUS (R627): BOOT.STATUS returns the reset and boot state. -/
  | bootStatus (r : Request)
  /-- BOOT_PCIE_SET (R628): BOOT.PCIE_SET sets the actions for PCIe reset events. -/
  | bootPcieSet (r : Request)
  /-- BOOT_BLOCK_RESET (R624): BOOT.BLOCK_RESET resets one block and answers PENDING. -/
  | bootBlockReset (r : Request)
  /-- BLOCK_RESET_DONE (R624): The block reset completes and SYS.CMD_DONE reports OK. -/
  | blockResetDone (t : Time) (b : Fin 36)
  /-- BOOT_SELFTEST_UNIT_END (R636): A unit's boot self-test ends with pass or fail. -/
  | bootSelftestUnitEnd (t : Time) (b : Fin 36) (r : UnitTest)
  /-- TEST_RUN (R642): TEST.RUN starts self-test of a quiesced block or site and answers PENDING. -/
  | testRun (r : Request)
  /-- TEST_RUN_END (R642): A commanded self-test ends and SYS.CMD_DONE reports the result. -/
  | testRunEnd (t : Time) (b : Fin 36) (r : List UnitTest)
  /-- HEALTH_MAP_WRITE (R637): A set health bit is written to flash, or the failure raises TEST.HEALTH_WRITE_FAIL. -/
  | healthMapWrite (t : Time) (ok : Bool)
  /-- TEST_REPORT (R643): TEST.REPORT returns a site's last test. -/
  | testReport (r : Request)
  /-- TEST_HEALTH (R644): TEST.HEALTH returns the health maps. -/
  | testHealth (r : Request)
  /-- TEST_HEALTH_CLEAR (R644): TEST.HEALTH_CLEAR clears a block's health bits. -/
  | testHealthClear (r : Request)
  /-- MGMT_STATUS (R666): MGMT.STATUS returns life-cycle, firmware and log state. -/
  | mgmtStatus (r : Request)
  /-- MGMT_SENSORS (R667): MGMT.SENSORS returns temperatures, voltages and PLL state. -/
  | mgmtSensors (r : Request)
  /-- MGMT_LOG_READ (R668): MGMT.LOG_READ returns event-log entries. -/
  | mgmtLogRead (r : Request)
  /-- MGMT_CONFIG (R668): MGMT.CONFIG sets the log threshold and alert mask. -/
  | mgmtConfig (r : Request)
  /-- MGMT_FW_WRITE (R669): MGMT.FW_WRITE starts verifying and programming a firmware slot and answers PENDING. -/
  | mgmtFwWrite (r : Request)
  /-- FW_WRITE_DONE (R669): The slot programming ends and SYS.CMD_DONE reports its outcome. -/
  | fwWriteDone (t : Time) (slot : Fin 2) (readBack : Bool)
  /-- MGMT_FW_ACTIVATE (R670): MGMT.FW_ACTIVATE stores a trial of a slot for the next cold boot. -/
  | mgmtFwActivate (r : Request)
  /-- MGMT_FW_CONFIRM (R670): MGMT.FW_CONFIRM confirms the running trial and raises the anti-rollback counter. -/
  | mgmtFwConfirm (r : Request)
  /-- MGMT_LIFECYCLE (R658): MGMT.LIFECYCLE moves the device to a later life-cycle state. -/
  | mgmtLifecycle (r : Request)
  /-- MGMT_OTP_WRITE (R659): MGMT.OTP_WRITE programs and reads back one OTP item. -/
  | mgmtOtpWrite (r : Request)
  /-- MGMT_BEHAVIOUR (R661): MGMT.BEHAVIOUR stores the behaviour level for the next boot. -/
  | mgmtBehaviour (r : Request)
  /-- VOLTAGE_SAMPLE (R648): Every 100 µs the voltage monitors are sampled and judged against their windows. -/
  | voltageSample (t : Time) (mv : List Nat)
  /-- LOG_MIRROR_WRITE (R652): A batch of log entries is written to the flash mirror when 128 wait, after 1 s, or within 10 ms for severity 4. -/
  | logMirrorWrite (t : Time) (ok : Bool)
  /-- LOG_MIRROR_RETRY (R652): Every 10 s a failed mirror write is retried. -/
  | logMirrorRetry (t : Time) (ok : Bool)
  /-- TRIAL_READY_TIMEOUT (R656): A trial image without READY within 5 s is abandoned for the confirmed slot. -/
  | trialReadyTimeout (t : Time)
  /-- UART_IMAGE_RECEIVE (R657): In UART recovery an image is received, verified and answered with ACK or NAK. -/
  | uartImageReceive (t : Time) (image : Bytes)
  /-- UART_RX_GAP_TIMEOUT (R657): A gap of more than 1 s between bytes restarts reception. -/
  | uartRxGapTimeout (t : Time)
  /-- PCIE_CONFIG_ACCESS (R44): A configuration request from the host, such as setting Bus Master Enable, moving the function between D0 and D3hot or the PME_Turn_Off handshake, changes what the endpoint may send and releases held MSI-X messages. -/
  | pcieConfigAccess (t : Time) (a : ConfigAccess)
  /-- SDH_TRANSITION_LOSS (R476): An SDH port whose received data shows no transition for 20 µs declares LOS. -/
  | sdhTransitionLoss (t : Time) (port : Fin 4)
  /-- PTP_MESSAGE_SEND (R535): At each Sync, Announce or delay-request interval, and for ESMC, firmware sends the due PTP message through the timed queue. -/
  | ptpMessageSend (t : Time) (m : PtpMessage)
  /-- REFCLK_LOCK_HELD (R592): After a REFCLK failure, the boot that follows proceeds once REFCLK has held lock for 10 ms. -/
  | refclkLockHeld (t : Time)
  /-- POWER_SUPPLY_LOSS (R677): A supply other than VDD_AON is lost while PORST_N is high, and DRAM contents and every staged generation are lost. -/
  | powerSupplyLoss (t : Time)
  deriving DecidableEq, Repr

end Sys2Proof
end

