-- ==== Sys2Proof/Config.lean ====
section
/-! DEFINITION. What an implementation fixes and the values the spec leaves open.
Every constant without a body is uninterpreted: no proof can see its value. -/

namespace Sys2Proof

/-- The draw of a value that the spec leaves open, as a number; a user reduces it to the range the spec gives (log 3). -/
opaque Config.freeNat : Nat → Nat

/-- The unique 64-bit device identifier from OTP (R77). -/
opaque Config.deviceId : BitVec 64

/-- Words of configuration space that the spec leaves to PCI Express: by word index; and the word index at which the power management,
PCI Express, MSI-X and AER capabilities stand (R42) (log 161). -/
opaque Config.configWord : Nat → BitVec 32
opaque Config.capabilityAt : Nat → Nat

/-- The ordering code fitted (R2): false LM4810-C, true LM4810-I. -/
opaque Config.gradeI : Bool

/-- Bits past the first 40 behind the point to which the model carries an irrational factor: the spec states no precision (log 6). -/
opaque Config.extraBits : Nat

/-- Terms past the first 24 of the exponential series that the model takes (R207; log 6). -/
opaque Config.extraTerms : Nat

/-- What a narrowing that is not exact adds, 0 or 1 by parity, by the sum it narrows (R201): the spec states no rounding (log 6). -/
opaque Config.narrowing : Int → Nat

/-- The block of one tick that a decoder gives, and its state after it: codec, state, payload, tick within the payload (R165 stage 3)
(log 7). A state is coded as a number, 0 for the initial one. -/
opaque Config.decodeAudio : Nat → Nat → Bytes → Nat → List Int

/-- See decodeAudio (log 7). -/
opaque Config.decodeNext : Nat → Nat → Bytes → Nat → Nat

/-- The concealment block of a codec, before the attenuation of R174, and the decoder's state after it: codec, state, ms of continuous
loss (log 7). -/
opaque Config.concealAudio : Nat → Nat → Nat → List Int

/-- See concealAudio (log 7). -/
opaque Config.concealNext : Nat → Nat → Nat → Nat

/-- The audio of a missing frame from the in-band FEC of the packet that follows: decoder state, payload, tick within the frame; none
where it carries none (R174) (log 7). -/
opaque Config.fecAudio : Nat → Bytes → Nat → Option (List Int)

/-- The level in −dBov of the comfort noise that a G.729 Annex B SID payload describes (R174) (log 7). -/
opaque Config.sidLevel : Bytes → Nat

/-- The comfort noise of one tick at a level in −dBov: level, samples, tick (R174) (log 7). -/
opaque Config.comfortNoise : Nat → Nat → Nat → List Int

/-- Noise suppression and AGC on one block, and their state after it: options (bit 0 suppression, bit 1 AGC), suppression, AGC target,
rate in kHz, state, samples (R165 stage 5) (log 7). -/
opaque Config.conditionAudio : Nat → Nat → Nat → Nat → Nat → List Int → List Int

/-- See conditionAudio (log 7). -/
opaque Config.conditionNext : Nat → Nat → Nat → Nat → Nat → List Int → Nat

/-- The sine 2π × f × m ÷ rate at sample m: frequency in Hz, rate in kHz, m (R193) (log 7). -/
opaque Config.sine : Nat → Nat → Nat → Rat

/-- The echo canceller's estimate of one tick: coefficients, the ticks of its send reference that the tail covers (R182) (log 7).
Coefficients are coded as a number, 0 before any adaptation. -/
opaque Config.echoEstimate : Nat → List (List Int) → List Int

/-- The coefficients after adaptation to one tick: coefficients, reference, received samples (R182) (log 7). -/
opaque Config.echoAdapt : Nat → List (List Int) → List Int → Nat

/-- Whether one tick holds double talk: coefficients, reference, received samples (R182) (log 7). -/
opaque Config.doubleTalk : Nat → List (List Int) → List Int → Bool

/-- What the non-linear processor leaves of a residual: whether it puts comfort noise in, coefficients, reference, residual (R182)
(log 7). -/
opaque Config.suppressEcho : Bool → Nat → List (List Int) → List Int → List Int

/-- ERLE and ERL in 0.1 dB, and whether the filter has converged, by its coefficients and one tick received (R194) (log 7). -/
opaque Config.erle : Nat → List Int → Nat

/-- See erle (log 7). -/
opaque Config.erl : Nat → List Int → Nat

/-- See erle (log 7). -/
opaque Config.converged : Nat → Bool

/-- What a conference's output holds at a sample where its equaliser has a pole outside the unit circle, by draw, output and index
(R201) (log 155). -/
opaque Config.openSample : Nat → Nat → Nat → Int

/-- Conversion of a block between two rates in kHz, from the block before it and the block (R206) (log 7). -/
opaque Config.resample : Nat → Nat → List Int → List Int → List Int

/-- The payload that an encoder gives for a frame, and its state after it: codec, bit rate, Opus options (bit 0 FEC, bit 1 DTX), state,
samples (R164, R178 stage 4) (log 7). A state is coded as a number, 0 for the initial one. -/
opaque Config.encodeAudio : Nat → Nat → Nat → Nat → List Int → Bytes

/-- See encodeAudio (log 7). -/
opaque Config.encodeNext : Nat → Nat → Nat → Nat → List Int → Nat

/-- SHA-256 (R380, R381), uninterpreted (log 8). -/
opaque Config.sha256 : Bytes → Bytes

/-- SHA-384 (R434), uninterpreted (log 8). -/
opaque Config.sha384 : Bytes → Bytes

/-- HMAC-SHA-256 of a key and a message (R381), uninterpreted (log 8). -/
opaque Config.hmac : Bytes → Bytes → Bytes

/-- AES-256-CMAC of a key and a message (R346), uninterpreted (log 8). -/
opaque Config.cmac : Bytes → Bytes → Bytes

/-- AES key unwrap (RFC 3394): key, wrapped bytes; none when the integrity check fails (R348) (log 8). -/
opaque Config.keyUnwrap : Bytes → Bytes → Option Bytes

/-- SRTP or SRTCP protection of a packet (R357): profile, key, salt, whether SRTCP, index, packet (log 8). -/
opaque Config.srtpSeal : Nat → Bytes → Bytes → Bool → Nat → Bytes → Bytes

/-- SRTP or SRTCP authentication and decryption (R358): profile, key, salt, whether SRTCP, index, packet; none where it fails
(log 8). -/
opaque Config.srtpOpen : Nat → Bytes → Bytes → Bool → Nat → Bytes → Option Bytes

/-- A generic operation of R363 on key, operation, IV, AAD and data: the output bytes (log 8). -/
opaque Config.cipher : Bytes → Nat → Bytes → Bytes → Bytes → Bytes

/-- The tag or digest of a generic operation of R363 (log 8). -/
opaque Config.cipherTag : Bytes → Nat → Bytes → Bytes → Bytes → Bytes

/-- The next chaining value of a CBC or CTR operation (R363) (log 8). -/
opaque Config.cipherIv : Bytes → Nat → Bytes → Bytes → Bytes

/-- Whether an ECDSA P-384 signature over a digest verifies under the key with the given digest (R434, R655) (log 8). -/
opaque Config.signatureOk : Bytes → Bytes → Bytes → Bool

/-- The digest of the Fenord firmware key that the boot ROM holds (R655). -/
opaque Config.firmwareKeyDigest : Bytes

/-- The coded octets, without a wrapper, of a stream: whether stepping A1 produced them, and of its jobs so far the chain length, whether
matching is lazy, the flush value and the input (R401 to R403, R663): the coding is not stated bit for bit (log 8). -/
opaque Config.deflate : Bool → List (Nat × Bool × Nat × Bytes) → Bytes

/-- The entry address of a firmware handler (R428), and the X address of a page of a firmware flow: flow, page (R429): the spec gives no
firmware (log 51). -/
opaque Config.firmwareEntry : Nat → Nat

/-- See firmwareEntry (log 51). -/
opaque Config.firmwarePage : Nat → Nat → Nat

/-- Seeds, signatures and pattern counts of self-test by unit kind (R631): the spec gives no values (log 9). -/
opaque Config.bistSignature : Nat → BitVec 64

/-- The fixed pattern count of a unit kind (R631) (log 9). -/
opaque Config.bistPatterns : Nat → Nat

/-- A sample of a decoded picture: its number, plane (0 Y, 1 Cb, 2 Cr), column and row, before reduction to its depth; the decoding
of the standards' bitstreams is outside the spec (R231, R242) (log 10). -/
opaque Config.decodedSample : Nat → Nat → Nat → Nat → Nat

/-- Lanczos coefficients of scaler set 2 (R279): direction, phase, tap; real-valued kernel, rounding as the spec says (log 10). -/
opaque Config.lanczos (vertical : Bool) (phase tap : Nat) : Int

/-- The EtherType and octets of a supervision frame (IEC 62439-3): redundancy mode, source MAC address, sequence number (R511)
(log 36). -/
opaque Config.supervision : Nat → Nat → Nat → Bytes

/-- The identifier of a parameter set of H.264 (false) or H.265 (true) (R236, R266) (log 10). -/
opaque Config.setId : Bool → Bytes → Nat

/-- An octet of an image slot whose HWIN source changed during its load: draw, place (R276) (log 46). -/
opaque Config.loadedOctet : Nat → Nat → Byte

/-- The parameter sets and SEI messages that precede the slices of a picture: stream, picture, whether it is IDR, the buffer model that
they signal (bit/s, coded-picture buffer in bits, initial delay in ms), whether temporal_id_nesting is set (R250, R252) (log 10). -/
opaque Config.headerNals : Nat → Nat → Bool → Nat × Nat × Nat → Bool → List Bytes

/-- Bits of a floor row, at most the bound of R253: stream, picture, row, bound (R254) (log 10). -/
opaque Config.floorRow : Nat → Nat → Nat → Nat

/-- An octet of a coded slice after its NAL unit header: coding tools (CABAC, 8 × 8 transform, block size), samples of the layer's source
(plane, column, row), picture referenced, whether the layer beneath is, stream, picture, slice, place (R231, R249, R250, R256) (log 10). -/
opaque Config.sliceOctet : Bool × Bool × Nat → (Nat → Nat → Nat → Nat) → Option Nat → Bool → Nat × Nat × Nat × Nat → Byte

/-- The count of corrections of one device in an hour at which MEM.CE_THRESHOLD is raised (R575). -/
opaque Config.ceThreshold : Nat

end Sys2Proof
end

