-- ==== Sys2Proof/Machine/Bits.lean ====
section
/-! DEFINITION. Fields of byte blocks (R8), finite maps, and the R12 time format. -/

namespace Sys2Proof.Machine

/-- The unsigned byte at an offset; bytes past the end read 0. -/
def u8 (b : Bytes) (o : Nat) : Nat := (b.getD o 0).toNat

/-- The unsigned little-endian number of n bytes at an offset (R8). -/
def uN (b : Bytes) (o : Nat) : Nat → Nat
  | 0 => 0
  | n + 1 => u8 b o + 256 * uN b (o + 1) n

/-- The unsigned 16-bit field at an offset. -/
def u16 (b : Bytes) (o : Nat) : Nat := uN b o 2

/-- The unsigned 32-bit field at an offset. -/
def u32 (b : Bytes) (o : Nat) : Nat := uN b o 4

/-- The unsigned 64-bit field at an offset. -/
def u64 (b : Bytes) (o : Nat) : Nat := uN b o 8

/-- The two's-complement value of the low n bits of a number. -/
def signed (n v : Nat) : Int := if v % 2 ^ n < 2 ^ (n - 1) then (v % 2 ^ n : Nat) else (v % 2 ^ n : Nat) - (2 ^ n : Nat)

/-- The signed little-endian field of n bytes at an offset. -/
def sN (b : Bytes) (o n : Nat) : Int := signed (8 * n) (uN b o n)

/-- Bits [hi:lo] of a number. -/
def bits (v hi lo : Nat) : Nat := v / 2 ^ lo % 2 ^ (hi + 1 - lo)

/-- Bit i of a number. -/
def bit (v i : Nat) : Bool := v / 2 ^ i % 2 == 1

/-- 1 for true and 0 for false. -/
def b2n (b : Bool) : Nat := if b then 1 else 0

/-- n bytes holding a number little-endian, modulo 2^(8n) (R8). -/
def le : Nat → Nat → Bytes
  | 0, _ => []
  | n + 1, v => BitVec.ofNat 8 v :: le n (v / 256)

/-- n bytes holding a signed number little-endian (R8). -/
def leI (n : Nat) (v : Int) : Bytes := le n (v % (2 ^ (8 * n) : Nat)).toNat

/-- A 32-bit field of a signed value that saturates. -/
def sat32 (v : Int) : Nat := ((if v < -2147483648 then -2147483648 else if 2147483647 < v then 2147483647 else v) % 4294967296).toNat

/-- n bytes holding a number in network (big-endian) order. -/
def be (n v : Nat) : Bytes := (le n v).reverse

/-- The big-endian number of a run of bytes. -/
def beNat (b : Bytes) : Nat := b.foldl (fun a x => 256 * a + x.toNat) 0

/-- n zero bytes. -/
def zeros (n : Nat) : Bytes := List.replicate n 0

/-- A block with bytes w written at an offset; a write past the end extends with zeros. -/
def putAt (b : Bytes) (o : Nat) (w : Bytes) : Bytes :=
  (b ++ zeros (o - b.length)).take o ++ w ++ b.drop (o + w.length)

/-- n bytes of a block from an offset; bytes past the end read 0. -/
def slice (b : Bytes) (o n : Nat) : Bytes :=
  let w := (b.drop o).take n
  w ++ zeros (n - w.length)

/-- Whether every byte of a run is 0. -/
def allZero (b : Bytes) : Bool := b.all (· == 0)

/-- A counter that stops at a maximum. -/
def satAdd (max v n : Nat) : Nat := Nat.min max (v + n)

/-- Division rounding up. -/
def ceilDiv (a b : Nat) : Nat := (a + b - 1) / b

/-- Division rounding half away from zero toward the larger magnitude. -/
def roundDiv (a : Int) (b : Nat) : Int :=
  if a < 0 then - ((((-a).toNat * 2 + b) / (2 * b) : Nat) : Int) else (((a.toNat * 2 + b) / (2 * b) : Nat) : Int)

/-! Finite maps with strictly rising keys. -/

/-- The value at a key. -/
def mget {α : Type} : Map α → Nat → Option α
  | [], _ => none
  | (k, v) :: m, i => if k = i then some v else mget m i

/-- The value at a key, or a default. -/
def mgetD {α : Type} (m : Map α) (i : Nat) (d : α) : α := (mget m i).getD d

/-- The map with a key set to a value. -/
def mset {α : Type} : Map α → Nat → α → Map α
  | [], i, x => [(i, x)]
  | (k, v) :: m, i, x =>
    if i < k then (i, x) :: (k, v) :: m else if i = k then (i, x) :: m else (k, v) :: mset m i x

/-- The map without a key. -/
def mdel {α : Type} (m : Map α) (i : Nat) : Map α := m.filter (fun p => p.1 != i)

/-- Whether a key is present. -/
def mhas {α : Type} (m : Map α) (i : Nat) : Bool := (mget m i).isSome

/-- The map with the value at a key changed, from a default where the key is absent. -/
def mmod {α : Type} (m : Map α) (i : Nat) (d : α) (f : α → α) : Map α := mset m i (f (mgetD m i d))

/-- The map with the value at a key changed where it is present. -/
def mupd {α : Type} (m : Map α) (i : Nat) (f : α → α) : Map α :=
  match mget m i with
  | some v => mset m i (f v)
  | none => m

/-- The keys of a map, rising. -/
def mkeys {α : Type} (m : Map α) : List Nat := m.map (·.1)

/-- The lowest key of a map. -/
def mfirst {α : Type} (m : Map α) : Option Nat := m.head?.map (·.1)

/-- The map keeping the entries that satisfy a test. -/
def mkeep {α : Type} (m : Map α) (p : Nat → α → Bool) : Map α := m.filter (fun e => p e.1 e.2)

/-- The map with every value changed. -/
def mall {α β : Type} (m : Map α) (f : Nat → α → β) : Map β := m.map (fun e => (e.1, f e.1 e.2))

/-- A counter of a map of counters raised by n. -/
def bump (m : Map Nat) (k : Nat) (n : Nat := 1) : Map Nat := mmod m k 0 (· + n)

/-- A counter of a map of counters raised to at least n. -/
def bumpMax (m : Map Nat) (k n : Nat) : Map Nat := mmod m k 0 (Nat.max n)

/-- What remains of counters once what a reader saw is taken away (R105). -/
def lessSeen (live seen : Map Nat) : Map Nat := mall live fun k v => v - mgetD seen k 0

/-- Counters without what a reader saw, maxima keeping only a larger value (R105). -/
def clearMax (isMax : Nat → Bool) (seen m : Map Nat) : Map Nat :=
  mall m fun k v => if isMax k then if v ≤ mgetD seen k 0 then 0 else v else v - mgetD seen k 0

/-- The block that a list of fields (offset, size, value) lays out in n bytes. -/
def block (n : Nat) (fs : List (Nat × Nat × Nat)) : Bytes :=
  fs.foldl (fun b f => putAt b f.1 (le f.2.1 f.2.2)) (zeros n)

/-! Time. -/

/-- One nanosecond in units of 1/65,536 ns. -/
def tNs : Nat := 65536
/-- One microsecond. -/
def tUs : Nat := 1000 * tNs
/-- One millisecond. -/
def tMs : Nat := 1000 * tUs
/-- One second. -/
def tS : Nat := 1000 * tMs

/-- The 16 bytes of a time (R12). -/
def timeBytes (t : Time) : Bytes :=
  le 8 (t / tS) ++ le 4 (t / tNs % 1000000000) ++ le 2 (t % tNs) ++ [0, 0]

/-- The time that 16 bytes at an offset give (R12). -/
def timeAt (b : Bytes) (o : Nat) : Time :=
  u64 b o * tS + u32 b (o + 8) * tNs + u16 b (o + 12)

/-- The instant of the first multiple of a period at or after a time. -/
def ceilTo (p t : Nat) : Nat := ceilDiv t p * p

/-- The first tick boundary at or after a time (R97, R525). -/
def boundaryAt (t : Time) : Time := ceilTo tMs t

/-- The first tick boundary after a time. -/
def boundaryAfter (t : Time) : Time := (t / tMs + 1) * tMs

/-! Lists. -/

/-- The least element of a list by a measure, the first on a tie. -/
def leastBy {α : Type} (f : α → Nat) : List α → Option α
  | [] => none
  | x :: l => match leastBy f l with
    | none => some x
    | some y => if f y < f x then some y else some x

/-- The list with element i replaced. -/
def lset {α : Type} (l : List α) (i : Nat) (x : α) : List α := l.set i x

/-- The sum of a list. -/
def sum (l : List Nat) : Nat := l.foldl (· + ·) 0

/-- The numbers from a to a + n − 1. -/
def span (a n : Nat) : List Nat := (List.range n).map (· + a)

end Sys2Proof.Machine
end

