-- ==== Sys2Proof/Machine/Parts/Base.lean ====
section
/-! DEFINITION. Addressed memory and the records that several parts of the state share. -/

namespace Sys2Proof.Machine

/-- Addressed memory: addresses strictly rising, no entry equal to what an unlisted address reads as (0). -/
abbrev Mem := List Host.Cell

/-- What a picture holds: mid-grey (R239), black (R271), a decoded picture by its number, or composed samples. -/
inductive PicKind where
  | grey | black | decoded (id : Nat)
  /-- A decoded picture whose listed 16 × 16 areas, counted row by row in rows of a width, are copied from another, or mid-grey (R245). -/
  | patched (id wide : Nat) (areas : List Nat) (base : PicKind)
  /-- Y, Cb and Cr samples, each plane row by row. -/
  | composed (samples : List Nat)
  deriving DecidableEq, Repr

/-- A picture of YUV 4:2:0 samples. -/
structure Picture where
  kind : PicKind := .grey
  w : Nat := 0
  h : Nat := 0
  depth : Nat := 8
  concealed : Bool := false
  deriving DecidableEq, Repr

/-- Campion's tag of a packet (R304): its layer, the switching points of its picture, and its place. -/
structure Tag where
  stream : Nat
  picture : Nat
  slice : Nat
  s : Nat := 0
  t : Nat := 0
  /-- Random-access point of its layer. -/
  rap : Bool := false
  /-- Whether the packet ends its layer in the access unit. -/
  ends : Bool := false
  /-- Whether the packet leaves only as copies for subscriptions. -/
  copies : Bool := false
  /-- The RTP packet before security, of which subscriptions take copies. -/
  plain : Bytes := []
  deriving DecidableEq, Repr

/-- A packet, reduced to the fields that the rules read; the octets past them are in data. -/
structure Packet where
  /-- Kind: 0 RTP, 1 RTCP, 2 PTP or ESMC, 3 any other frame, 4 a frame from the host with its own header. -/
  kind : Nat := 0
  /-- Object that produced it or to which it is classified, as a flow number (R121). -/
  flow : Nat := 0xFFFFF
  pt : Nat := 0
  marker : Bool := false
  seq : Nat := 0
  ts : Nat := 0
  ssrc : Nat := 0
  /-- Octets of the payload, or of the whole frame for kinds 2 and 3. -/
  data : Bytes := []
  /-- Octets on the wire, with the port's overhead left out. -/
  len : Nat := 0
  tag : Option Tag := none
  deriving DecidableEq, Repr

/-- An event as it is raised (R66). -/
structure Event where
  code : Nat
  sev : Nat
  obj : Nat
  hostSeq : Nat := 0
  detail : Nat
  time : Time := 0
  deriving DecidableEq, Repr

/-- What leaves the device; the model's own record of it. -/
inductive Output where
  /-- An MSI-X message of a vector (R44). -/
  | msix (vector : Nat)
  /-- The data of a completed BAR read, or of a read row. -/
  | read (data : Bytes)
  /-- The completion of a BAR2 read with the poisoned bit (R577). -/
  | poisonedRead
  /-- What a read of a FIFO returns: data, end mark, idle tag, poison tag (R552). -/
  | fifo (data : BitVec 64) (last idle poison : Bool)
  /-- A DRAM line that a controller delivers, and whether it is uncorrectable (R577). -/
  | line (a : Nat) (data : Bytes) (bad : Bool)
  /-- A frame whose transmission starts on an Ethernet port (R323, R539). -/
  | frame (port : Nat) (t : Time) (p : Packet)
  /-- A frame that a cut-through output ends with an inverted FCS (R327). -/
  | stomp (port : Nat)
  /-- A port transmits remote fault (R503). -/
  | remoteFault (port : Nat)
  /-- A level on an output pin, numbered as the state's pin map. -/
  | pin (pin : Nat) (level : Bool)
  /-- The octets of one 125 µs frame of outgoing timeslots, and the ABCD codes sent in it (R485, R487). -/
  | tdm (frame : Nat) (octets codes : Map Nat)
  /-- What a line sends beside its timeslots in a frame, by field. E1 or T1: 0 RAI, 1 E-bit. TRIB: 2 LP-RDI, 3 LP-REI, 4 signal label,
  5 pointer offset, 6 J2. SDH port: 0 S1, 1 MS-RDI, 2 MS-REI, 3 J0 and J1, 4 pointer offset and 5 C2 of each AU-4, 8 + a HP-RDI and 12 + a HP-REI of AU-4 a (R469, R473, R475, R476). -/
  | overhead (line : Nat) (fields : Map Nat)
  /-- Bits that a transparent line sends (R480). -/
  | bits (line : Nat) (v : BitVec 256)
  /-- A tick of a serial audio port, bit clock by bit clock: FSYNC and DOUT, and whether data is driven on the falling edge (R216). -/
  | serial (port : Nat) (falling : Bool) (levels : List (Bool × Bool))
  /-- A bank, a voltage command or another write to an outside part: kind, value. -/
  | board (kind value : Nat)
  deriving DecidableEq, Repr

/-- One complete configuration (R84): the parameter block of each versioned object, under its number. -/
structure Generation where
  number : Nat := 1
  /-- Modifying commands applied since it opened (R106). -/
  changes : Nat := 0
  /-- LEG.SET blocks (R189). -/
  legs : Map Bytes := []
  /-- LEG.DETECTOR blocks (R192). -/
  detectors : Map Bytes := []
  /-- CONF.SET blocks (R219). -/
  confs : Map Bytes := []
  /-- CONF.MEMBER blocks (R221), under conference × 8192 + leg. -/
  members : Map Bytes := []
  /-- ROUTE.SET blocks (R225), under destination × 65536 + kind × 16384 + source. -/
  routes : Map Bytes := []
  /-- VID.SET blocks (R261). -/
  vids : Map Bytes := []
  /-- VID.PARAMSETS blocks (R266), under stream. -/
  paramsets : Map Bytes := []
  /-- LAYOUT.SET blocks (R289). -/
  layouts : Map Bytes := []
  /-- LAYOUT.LAYER blocks (R290), under layout × 8 + layer. -/
  layers : Map Bytes := []
  /-- LAYOUT.SCALER halves (R292), under set × 4 + direction × 2 + half. -/
  scalers : Map Bytes := []
  /-- LAYOUT.GAMMA quarters (R293), under table × 4 + quarter. -/
  gammas : Map Bytes := []
  /-- OUT.SET blocks (R295). -/
  outs : Map Bytes := []
  /-- OUT.REGION blocks (R296), under output × 16 + region. -/
  regions : Map Bytes := []
  /-- FWD.RELAY_SET blocks (R331). -/
  relays : Map Bytes := []
  /-- FWD.SUB_SET blocks (R332). -/
  subs : Map Bytes := []
  /-- FWD.LINE_SET blocks (R333), under leg. -/
  lines : Map Bytes := []
  /-- FWD.POLICER_SET blocks (R334). -/
  policers : Map Bytes := []
  /-- FWD.QUEUE_SET blocks (R335), under port × 16 + queue. -/
  queues : Map Bytes := []
  /-- FWD.COLOUR_MAP block (R335); empty stands for all 0. -/
  colourMap : Bytes := []
  /-- TDM.XC_SET blocks (R494), under kind × 2^32 + a × 65536 + b. -/
  xcs : Map Bytes := []
  /-- TDM.BYPASS_SET blocks (R495). -/
  bypasses : Map Bytes := []
  /-- TDM.PROT_SET blocks (R496). -/
  prots : Map Bytes := []
  /-- REC.SELECT blocks (R393), under kind × 65536 + object. -/
  selections : Map Bytes := []
  /-- DSP.PARTITION blocks (R438). -/
  partitions : Map Bytes := []
  /-- PWR.SET block (R605). -/
  power : Bytes := [0, 0, 10, 0, 0, 0, 0, 0, 0, 0, 0, 0, 0, 0, 0, 0]
  /-- Cluster of each placed leg (R92). -/
  legAt : Map Nat := []
  /-- Home cluster of each placed conference (R92). -/
  confAt : Map Nat := []
  /-- Block number of the Campion engine of each placed stream (R229). -/
  vidAt : Map Nat := []
  /-- Block number of the Mallow engine of each placed output (R287). -/
  outAt : Map Nat := []
  deriving DecidableEq, Repr

end Sys2Proof.Machine
end

