-- ==== Sys2Proof/Machine/Parts/Clover.lean ====
section
/-! DEFINITION. State of Clover (R110 to R137) and of replay and spares (R138 to R160). -/

namespace Sys2Proof.Machine

/-- Where a work item stands. -/
inductive ItemState where
  /-- Enqueued by a running item that has not completed (R139): the parent's order. -/
  | nascent (parent : Nat)
  /-- Completed or enqueued, waiting for the release of its parent on an ordered flow. -/
  | waiting
  | spilled
  /-- In service: consumer block and position. -/
  | inService (block pos : Nat)
  /-- Complete, held until the earlier items of its ordered flow complete (R122). -/
  | held
  deriving DecidableEq, Repr

/-- What a firmware item has computed in its shadow page, to take effect with its completion (R138). -/
inductive Work where
  | leg (x : LegTick)
  | conf
  deriving DecidableEq, Repr

/-- A work item (R114). -/
structure Item where
  handler : Nat := 0
  level : Nat := 7
  target : Nat := 0xFF
  flow : Nat := 0xFFFFF
  deadline : Nat := 0
  seq : Nat := 0
  input : Nat := 0
  length : Nat := 0
  object : Nat := 0
  tag : Nat := 0
  replayed : Bool := false
  tickItem : Bool := false
  noDeadline : Bool := false
  port : Nat := 37
  state : ItemState := .waiting
  /-- Whether it was drawn from the reserve: none, or the store it was drawn from (144 core positions, 1000 the tick generator). -/
  reserve : Option Nat := none
  /-- Elapsed instant at which it became ready. -/
  readyAt : Time := 0
  /-- Injected fault cause that fires on this item (R159). -/
  injected : Option Nat := none
  /-- Whether its media output for the missed tick is discarded (R142). -/
  missed : Bool := false
  /-- Configuration of the stream that a Campion item serves, as the generation active when it went into service has it (R98). -/
  began : Bytes := []
  /-- What the item has run, where a firmware handler of a leg or conference has run it (R138). -/
  work : Option Work := none
  deriving DecidableEq, Repr

/-- Sequence state of an ordered flow (R122). -/
structure FlowSeq where
  next : Nat := 0
  oldest : Nat := 0
  deriving DecidableEq, Repr

/-- Clover. -/
structure Clover where
  /-- Items by order of enqueue. -/
  items : Map Item := []
  nextOrder : Nat := 0
  flows : Map FlowSeq := []
  /-- Rotating pointer over stalled producer ports (R16, R130), and over consumer ports, block × 9 + position (R16, R118). -/
  ptr : Nat := 0
  cptr : Nat := 0
  spilling : Bool := false
  /-- Items spilled during the episode. -/
  episode : Nat := 0
  /-- Producers stalled by back-pressure, oldest first: port, 32-byte descriptor, and the consumer of the running item (R130). -/
  stalled : List (Nat × Bytes × Option (Nat × Nat)) := []
  /-- Elapsed start of back-pressure, and the instant up to which its time has been counted (R134, R136). -/
  pressureFrom : Option Time := none
  pressureMark : Time := 0
  /-- SCHED.STATS counters by response offset (R134). -/
  stats : Map Nat := []
  /-- Counter value below which no tick is injected again (R113). -/
  nextInject : Time := 0
  /-- Tick number of the last boundary taken. -/
  tick : Nat := 0
  /-- Counter instant of the last boundary taken; none before the first. -/
  lastBoundary : Option Time := none
  /-- Whether an item has been dispatched since the last boundary (R596). -/
  dispatched : Bool := false
  deriving DecidableEq, Repr

/-- A cluster's sites (R142, R146, R157). -/
structure Cluster where
  /-- Site at each position 0 to 8. -/
  pos : Map Nat := [(0, 0), (1, 1), (2, 2), (3, 3), (4, 4), (5, 5), (6, 6), (7, 7), (8, 8)]
  /-- Sites fenced, in self-test or awaiting their boundary. -/
  fenced : List Nat := []
  /-- Positions that the spare has claimed: position, elapsed instant of the claim. -/
  claim : Option (Nat × Time) := none
  /-- Whether the claimed position's image is loaded in the spare. -/
  loaded : Bool := false
  /-- Fenced sites waiting for the boundary at which their self-test starts, with the elapsed instant of the fault. -/
  toTest : Map Time := []
  /-- Sites whose self-test has ended, in the order of its end, with the position that a pass takes; none for a fail. -/
  ended : List (Nat × Option Nat) := []
  /-- Whether FAULT.DEGRADED stands. -/
  degraded : Bool := false
  /-- Legs shed, and routes, and ticks with shedding (R149). -/
  shedLegs : List Nat := []
  shedRoutes : List Nat := []
  shedTicks : Nat := 0
  deriving DecidableEq, Repr

/-- Replay, spares and contexts. -/
structure FaultBlk where
  clusters : Map Cluster := (List.range 16).map fun c => (c, {})
  /-- Physical engine that serves each engine place (16 to 23, 25 to 28); a place without one has no entry (R150 to R153). -/
  places : Map Nat := [(16, 16), (17, 17), (18, 18), (19, 19), (20, 20), (21, 21), (22, 22), (23, 23),
    (25, 25), (26, 26), (27, 27), (28, 28)]
  /-- Engines held as spares. -/
  spares : List Nat := [24, 29]
  /-- Physical engines fenced, in self-test or awaiting their boundary. -/
  enginesFenced : List Nat := []
  /-- Fenced engines whose self-test has ended, with the result. -/
  enginesEnded : Map Bool := []
  /-- Streams (0x10000 + stream) and outputs (0x20000 + output) without an engine (R153). -/
  orphans : List Nat := []
  /-- Selector bit of each context, by flow (R138). -/
  selectors : Map Nat := []
  /-- Selector in the last JOURNAL copy, by flow, and the tick of that copy (R154). -/
  journal : Map Nat := []
  journalTick : Option Nat := none
  /-- Slices started and not completed in JOURNAL, by stream (R150). -/
  openSlices : Map Nat := []
  /-- Injections that wait, by block × 16 + position (R159). -/
  injections : Map Nat := []
  /-- FAULT.STATS counters by response offset (R158). -/
  stats : Map Nat := []
  deriving DecidableEq, Repr

end Sys2Proof.Machine
end

