-- ==== Sys2Proof/Machine/Parts/Dram.lean ====
section
/-! DEFINITION. State of the DRAM subsystem (R566 to R590). -/

namespace Sys2Proof.Machine

/-- An entry of the error log (R588). -/
structure ErrEntry where
  address : Nat
  second : Nat
  rank : Nat
  device : Nat
  number : Nat
  deriving DecidableEq, Repr

/-- One subchannel controller (R571). -/
structure SubCtl where
  /-- Requests in the order of their arrival. -/
  queue : List LineAccess := []
  /-- Writes of a drain served while a read waits. -/
  drained : Nat := 0
  draining : Bool := false
  /-- Open row of each bank, by rank × 32 + bank. -/
  open_ : Map Nat := []
  /-- Row hits served in a row, and their bank. -/
  streak : Nat := 0
  streakBank : Nat := 0
  deriving DecidableEq, Repr

/-- The DRAM subsystem. -/
structure Dram where
  /-- Bytes of DRAM by device address. -/
  mem : Mem := []
  /-- Fitted bytes; 0 while out of service. -/
  fitted : Nat := 0
  speed : Nat := 4800
  /-- 0 in service, 1 training failed, 2 population refused. -/
  state : Nat := 0
  failing : Nat := 0xFF
  population : BitVec 4 := 0
  /-- MR4 state of each rank that is not normal: 1 above 85 °C, 2 above the limit. -/
  hot : Map Nat := []
  /-- Masks in force that differ from the default (R569). -/
  masks : Map Nat := []
  /-- Region sizes in GiB in force that differ from the default: 0 HWIN, 3 PKT, 4 VREF, 5 CSURF (R581). -/
  sizes : Map Nat := []
  scrubHours : Nat := 24
  /-- Line that patrol scrub reads next. -/
  scrubLine : Nat := 0
  /-- Elapsed instant at which the pass in progress, or the last, began. -/
  scrubAt : Option Time := none
  passes : Nat := 0
  corrected : Nat := 0
  uncorrectable : Nat := 0
  log : List ErrEntry := []
  logNumber : Nat := 0
  /-- Elapsed instants of the corrections of the last hour, by rank × 16 + device. -/
  recent : Map (List Time) := []
  /-- Devices that have reached the threshold in the hour. -/
  atThreshold : List Nat := []
  /-- Injections that wait for a write, by line: kind and device (R589). -/
  inject : Map (Nat × Nat) := []
  /-- Lines in which an error stands, by line: kind and device (R577, R589). -/
  corrupt : Map (Nat × Nat) := []
  /-- Deferred and due refreshes by rank (R573). -/
  deferred : Map Nat := []
  due : List Nat := []
  subs : Map SubCtl := []
  /-- Power-down timer in ns, elapsed instant of each rank's last request, ranks in power-down (R579). -/
  timer : Nat := 1000
  lastUse : Map Time := []
  downRanks : List Nat := []
  /-- Whether every rank is in self-refresh (R578). -/
  selfRefresh : Bool := false
  trained : Bool := false
  deriving DecidableEq, Repr

end Sys2Proof.Machine
end

