-- ==== Sys2Proof/Machine/Parts/Dsp.lean ====
section
/-! DEFINITION. State of the Yarrow cores, their images and cluster memories (R411 to R441). -/

namespace Sys2Proof.Machine

/-- The registers of R411. -/
structure Regs where
  x : List Word24 := List.replicate 8 0
  acc : List Acc := List.replicate 4 0
  p : List Word24 := List.replicate 8 0
  n : List Word24 := List.replicate 8 0
  m : List Word24 := List.replicate 8 0
  lc : BitVec 13 := 0
  be : BitVec 6 := 0
  sw : Word24 := 0x400
  deriving DecidableEq, Repr

/-- A write on its way to a register (R421, R450). -/
inductive RegWrite where
  | x (i : Nat) (v : Word24)
  | acc (i : Nat) (v : Acc)
  | accG (i : Nat) (v : Word24)
  | accH (i : Nat) (v : Word24)
  | accL (i : Nat) (v : Word24)
  | p (i : Nat) (v : Word24)
  | n (i : Nat) (v : Word24)
  | m (i : Nat) (v : Word24)
  | lc (v : BitVec 13)
  | be (v : BitVec 6)
  /-- A value that BEXP merges into BE (R462). -/
  | beMin (v : Int)
  | sw (v : Word24)
  /-- Bits of SW under a mask. -/
  | flags (mask v : Word24)
  deriving DecidableEq, Repr

/-- A DMA channel (R419, R427). -/
structure DmaCh where
  src : Nat := 0
  dst : Nat := 0
  len : Nat := 0
  rows : Nat := 1
  sstride : Word24 := 0
  dstride : Word24 := 0
  irq : Bool := false
  busy : Bool := false
  done : Bool := false
  err : Bool := false
  /-- The source as it stood when the transfer started. -/
  snap : Bytes := []
  deriving DecidableEq, Repr

/-- What an instruction leaves for the interlocks of the three that follow: whether it wrote flags, LC, and which pointers. -/
structure Trace where
  flags : Bool := false
  lc : Bool := false
  ptrs : List Nat := []
  deriving DecidableEq, Repr

/-- A core. -/
structure Core where
  regs : Regs := {}
  pc : Nat := 0
  /-- Writes of the last instruction, and pointer writes of the one before it (R421). -/
  late : List RegWrite := []
  later : List RegWrite := []
  /-- Control register writes of the last instruction: offset and value. -/
  ctrlLate : List (Nat × Word24) := []
  /-- Accumulators that the last instruction accumulated into. -/
  forward : List (Nat × Acc) := []
  /-- Delay slots left, and the target of a taken branch. -/
  delay : Option (Nat × Option Nat) := none
  /-- Repetitions left of the next instruction. -/
  repeat_ : Option Nat := none
  recent : List Trace := []
  /-- CORE_CLK cycles of the item so far, contention apart (R456). -/
  cycles : Nat := 0
  running : Bool := false
  /-- Whether ITEM_CTRL.DONE has been written. -/
  done : Bool := false
  desc : Bytes := List.replicate 32 0
  ctxCur : Nat := 0
  ctxShd : Nat := 0
  enq : List (BitVec 16) := List.replicate 16 0
  refused : Bool := false
  reason : Nat := 0
  pend : BitVec 8 := 0
  en : BitVec 8 := 0
  ipc : BitVec 14 := 0
  isw : Word24 := 0
  dma : List DmaCh := List.replicate 4 {}
  /-- The X and Y banks in 4-byte containers (R416). -/
  xmem : Mem := []
  ymem : Mem := []
  /-- Program memory, 16,384 words of 48 bits: those that are known. The others hold what nothing states, firmware among it, until the core
  executes them (R415; log 72). -/
  prog : Map (BitVec 48) := []
  /-- The image it has loaded, by its stamp; 0 none. -/
  stamp : Nat := 0
  deriving DecidableEq, Repr

/-- A partition's images (R435). -/
structure Images where
  inForce : Bytes := []
  /-- Stamp of the image in force; 0 where there is none. -/
  stamp : Nat := 0
  /-- A loaded image that waits for its boundary, with the elapsed instant of its load. -/
  waiting : Option (Bytes × Time) := none
  refusals : Nat := 0
  bad : Nat := 0
  refusedAt : Option Time := none
  /-- Elapsed instants of the refusals of the last second. -/
  recentRefusals : List Time := []
  deriving DecidableEq, Repr

/-- The cores. -/
structure Dsp where
  /-- Cores by cluster × 16 + site. -/
  cores : Map Core := []
  /-- Cluster memories in 4-byte containers. -/
  shared : Map Mem := []
  images : Map Images := []
  stamps : Nat := 0
  /-- Image bytes of each DSP.LOAD in progress as they stood at its start, by mailbox slot. -/
  loading : List (Nat × Bytes) := []
  /-- Context pages in JOURNAL by user flow (R154). -/
  pages : Map Mem := []
  deriving DecidableEq, Repr

end Sys2Proof.Machine
end

