-- ==== Sys2Proof/Machine/Parts/Hsp.lean ====
section
/-! DEFINITION. State of the stream FIFOs and host stream ports (R551 to R564). -/

namespace Sys2Proof.Machine

/-- A FIFO word (R551). -/
structure FifoWord where
  data : BitVec 64
  last : Bool
  parity : Bool
  deriving DecidableEq, Repr

/-- One direction of a host stream port: its ring registers (R559), its FIFO, and the true lengths of the packets in it. -/
structure HspDir where
  base : BitVec 52 := 0
  log2 : Nat := 8
  en : Bool := false
  tail : Nat := 0
  head : Nat := 0
  phase : Bool := true
  words : List FifoWord := []
  lengths : List Nat := []
  /-- Elapsed instant since which the FIFO has been full. -/
  fullSince : Option Time := none
  deriving DecidableEq, Repr

/-- A host stream port. -/
structure HspPort where
  /-- HSP.SET block. -/
  block : Bytes := []
  inb : HspDir := {}
  outb : HspDir := {}
  err : BitVec 3 := 0
  /-- Whether a vector is due, and the elapsed instant of the last. -/
  due : Bool := false
  sentAt : Option Time := none
  /-- HSP.STATS counters by place from 0. -/
  stats : Map Nat := []
  /-- Elapsed instants of the poisonings and of the overflows of the last second, and of the last event of each. -/
  poisons : List Time := []
  overflows : List Time := []
  poisonAt : Option Time := none
  overflowAt : Option Time := none
  /-- Words that failed their parity on read (R552). -/
  badWords : Nat := 0
  deriving DecidableEq, Repr

end Sys2Proof.Machine
end

