-- ==== Sys2Proof/Machine/Parts/Mallow.lean ====
section
/-! DEFINITION. State of composition (R269 to R298). -/

namespace Sys2Proof.Machine

/-- An image slot of a layer (R276, R291). -/
structure ImgSlot where
  /-- Parameters of the LAYOUT.IMAGE that loaded it; none while it is empty. -/
  block : Option Bytes := none
  data : Bytes := []
  /-- Parameters of a load in progress, with the octets of HWIN when it began. -/
  loading : Option (Bytes × Bytes) := none
  deriving DecidableEq, Repr

/-- A cache surface of a layout (R283, R284). -/
structure Surface where
  /-- Whether it is complete. -/
  ready : Bool := false
  /-- Elapsed instant of the boundary that started the flatten. -/
  since : Time := 0
  /-- Counter instant of its completion. -/
  readyAt : Time := 0
  deriving DecidableEq, Repr

/-- A signature region's state (R286). -/
structure Region where
  mismatch : Bool := false
  /-- Frames unequal in the episode, and elapsed instant of the last event. -/
  unequal : Nat := 0
  lastEvent : Time := 0
  deriving DecidableEq, Repr

/-- A frame in composition (R270): index, samples, its static run taken from the layers, a concealed source, the generation's
OUT.SET and OUT.REGION blocks, its number as a picture, and the decode-stream pictures that it holds as immutable inputs (R24). -/
structure Composing where
  index : Nat
  block : Bytes
  id : Nat
  holds : List (Nat × Nat)
  picture : Picture
  direct : Bool
  concealed : Bool
  regions : Map Bytes
  deriving DecidableEq, Repr

/-- An output's runtime (R270 to R272). -/
structure OutRun where
  /-- Counter instant of the boundary at which it became active: A of R270. -/
  start : Time := 0
  /-- Index of the next frame to start. -/
  next : Nat := 0
  /-- Frame in composition. -/
  composing : Option Composing := none
  /-- Last completed frame; none stands for black. -/
  completed : Option (Nat × Picture) := none
  /-- Its number as a picture. -/
  doneId : Nat := 0
  crcs : List Nat := []
  /-- Frames that encoders hold as immutable inputs, by their numbers as pictures. -/
  held : List Nat := []
  regions : Map Region := []
  /-- OUT.STATS counters by response offset. -/
  stats : Map Nat := []
  skipEvent : Option Time := none
  skips : Nat := 0
  deriving DecidableEq, Repr

/-- Composition. -/
structure Mallow where
  /-- Image slots under (layout × 8 + layer) × 2 + slot. -/
  images : Map ImgSlot := []
  surfaces : Map Surface := []
  outs : Map OutRun := []
  /-- Runtime of outputs that have left, or started again, with a frame in composition, oldest first (R98, R99). -/
  leaving : List (Nat × OutRun) := []
  deriving DecidableEq, Repr

end Sys2Proof.Machine
end

