-- ==== Sys2Proof/Machine/Parts/Media.lean ====
section
/-! DEFINITION. State of legs (R161 to R195), conferences, routes and serial audio ports (R196 to R227). -/

namespace Sys2Proof.Machine

/-- A gain that ramps linearly (R208): from g0 to g1 over ms milliseconds, of which some are done. -/
structure Ramp where
  g0 : Rat := 1
  g1 : Rat := 1
  ms : Nat := 0
  done : Nat := 0
  deriving DecidableEq, Repr

/-- Samples of one tick under their tick number. -/
abbrev Block := Nat × List Int

/-- A frame in a jitter buffer: extended timestamp, sequence number, payload, duration in clock ticks, SID or comfort noise. -/
structure Heard where
  ts : Int
  seq : Nat
  payload : Bytes
  ticks : Nat
  sid : Bool := false
  marker : Bool := false
  pt : Nat := 0
  /-- TIME of its arrival. -/
  at_ : Time := 0
  /-- Whether it has begun to play. -/
  begun : Bool := false
  deriving DecidableEq, Repr

/-- A tone that a detector follows (R184): TIME of its start, ticks since then, its value, whether it has been accepted, and how many of
the latest ticks lacked it or were concealed. -/
structure Heeded where
  start : Time
  ms : Nat := 0
  value : Nat := 0
  accepted : Bool := false
  gone : Nat := 0
  concealed : Nat := 0
  deriving DecidableEq, Repr

/-- A DTMF digit on its way as an RFC 4733 event (R186): code, volume, timestamp of its start, duration in clock ticks, whether it has
ended, and whether no packet of it has left yet. -/
structure DigitEvent where
  code : Nat
  volume : Nat
  ts : Nat
  dur : Nat
  ended : Bool := false
  fresh : Bool := true
  deriving DecidableEq, Repr

/-- Receive states of R173. -/
inductive RxState where
  | waiting | playing | timedOut
  deriving DecidableEq, Repr

/-- Reception of one RTP source (R166 to R173, R300): the fixed SSRC, the candidate and its run, sequence and loss counts. -/
structure RtpRx where
  ssrc : Option Nat := none
  cand : Nat := 0
  candRun : Nat := 0
  baseSeq : Option Nat := none
  maxSeq : Nat := 0
  cycles : Nat := 0
  received : Nat := 0
  /-- Interarrival jitter of RFC 3550 in 1/16 of 1/65,536 ns, and the last transit. -/
  j16 : Nat := 0
  transit : Option Int := none
  /-- Middle 32 bits of the last SR's NTP time, and elapsed instant of its arrival. -/
  lastSr : Option (Nat × Time) := none
  lastValid : Time := 0
  /-- Packets expected and received at the previous report. -/
  expectedPrior : Nat := 0
  receivedPrior : Nat := 0
  /-- Loss that statistics clears have taken (R105, R194). -/
  lostSeen : Nat := 0
  deriving DecidableEq, Repr

/-- A leg's runtime. -/
structure Leg where
  rxState : RxState := .waiting
  rtp : RtpRx := {}
  /-- Arrival and extended timestamp of the anchor. -/
  anchor : Option (Time × Int) := none
  /-- Last raw timestamp and its extension. -/
  lastTs : Option (Nat × Int) := none
  /-- Playout delay D and held value in ms. -/
  d : Nat := 0
  held : Nat := 0
  /-- Duration of the last packet of speech, in clock ticks. -/
  frameTicks : Nat := 0
  lateAt : Time := 0
  beyond : Nat := 0
  frames : List Heard := []
  /-- Sequence number and end timestamp of the newest packet, and whether it is SID or comfort noise. -/
  lastEnd : Option (Nat × Int × Bool) := none
  /-- State of the decoder, of AGC and noise suppression, and of the encoder at the start of the frame in progress. -/
  dec : Nat := 0
  cond : Nat := 0
  enc : Nat := 0
  lossMs : Nat := 0
  cnLevel : Option Nat := none
  /-- Ticks until the tick that shrinking drops, and whether the next tick is an inserted one (R170). -/
  dropIn : Option Nat := none
  insert : Bool := false
  /-- Last RFC 4733 event: its timestamp, and whether it has ended. -/
  event : Option (Nat × Bool) := none
  /-- Receive blocks of the last three ticks with the receive gain of each, and the latest of these ticks whose item was missed. -/
  rx : List (Block × Ramp) := []
  missed : List Nat := []
  /-- Stage-4 block of the last tick. -/
  lastRx : List Int := []
  recvRamp : Ramp := {}
  sendRamp : Ramp := {}
  /-- Send signal as it leaves stage 1, of the last three ticks. -/
  tx : List Block := []
  limiterG : Rat := 1
  /-- Samples that the limiter holds for its look-ahead. -/
  look : List Rat := []
  limitAt : Option Time := none
  /-- Least limiter gain since the last CONF.LIMITING. -/
  limitLow : Rat := 1
  /-- Send samples of the last tick whose item ran. -/
  lastSend : List Int := []
  sendLossMs : Nat := 0
  /-- Echo canceller: the send signal of past ticks as it left stage 3, latest first; its coefficients; ms for which the receive level has
  been low. -/
  sentTicks : List (List Int) := []
  coef : Nat := 0
  quietMs : Nat := 0
  ecDisabled : Bool := false
  erle : Nat := 0
  erl : Nat := 0
  converged : Bool := false
  /-- Tick up to which the receive output stays muted after a digit (R185), and tick in which the last digit ended. -/
  muteTo : Nat := 0
  digitEnd : Option Nat := none
  /-- Tones that detectors follow, by detector. -/
  found : Map Heeded := []
  /-- Tone playing: LEG.TONE_PLAY block and ticks played; and a play (some block) or stop (none) that waits for its boundary. -/
  tone : Option (Bytes × Nat) := none
  toneNext : Option (Option Bytes) := none
  /-- Tick within the frame period at which a frame completes (R33). -/
  phase : Nat := 0
  frameBuf : List Int := []
  /-- Whether the leg has shared its conference's encode in every tick of the frame so far (R204). -/
  sharing : Bool := true
  /-- DTMF digits on their way as RFC 4733 events (R186). -/
  digits : List DigitEvent := []
  seq : Nat := 0
  /-- Timestamp of the frame in progress, and ticks of it that have passed. -/
  ts : Nat := 0
  pos : Nat := 0
  firstSent : Bool := false
  sendGap : Bool := false
  stopped : Bool := false
  /-- Elapsed instant at which the next RTCP packet is due, and whether RTP was sent since the last. -/
  rtcpAt : Time := 0
  sentSince : Bool := false
  /-- RTP packets and payload octets sent, as an SR gives them. -/
  sent : Nat × Nat := (0, 0)
  roundTrip : Nat := 0
  /-- Octets of a TDM leg's last tick in, and those of the tick to send. -/
  tdmIn : Bytes := []
  tdmOut : Bytes := []
  /-- Samples that a SAP leg sends. -/
  sapOut : List Int := []
  /-- LEG.STATS counters by response offset. -/
  stats : Map Nat := []
  deriving DecidableEq, Repr

/-- Filter state of one equaliser section: x₁, x₂, y₁, y₂ (R201). -/
structure Biquad where
  x1 : Int := 0
  x2 : Int := 0
  y1 : Int := 0
  y2 : Int := 0
  deriving DecidableEq, Repr

/-- One tick of a shared group's limiter: its tick, the block it gives, and its gain and look-ahead after it. -/
structure GroupTick where
  tick : Nat
  out : List Int
  gain : Rat
  look : List Rat
  deriving DecidableEq, Repr

/-- A shared group (R204 to R206): tick of the frame period at which its frame completes, the last ticks of its limiter, the least gain
since its last CONF.LIMITING and when that was, its encoder's state at the start of the frame in progress, the frame so far, and the last
frame encoded with its tick and the state after it. -/
structure Group where
  phase : Nat
  ticks : List GroupTick := []
  low : Rat := 1
  lowAt : Option Time := none
  enc : Nat := 0
  buf : List Int := []
  frame : Option (Nat × Bytes × Nat) := none
  deriving DecidableEq, Repr

/-- A conference's runtime. -/
structure ConfRun where
  /-- Selected members, loudest first. -/
  selected : List Nat := []
  /-- Tick of each member's last rank among the first N. -/
  last : Map Nat := []
  /-- Sums of squares of each member's last 10 ticks, latest first. -/
  squares : Map (List Nat) := []
  /-- Membership ramps on contribution and on listening, and selection ramps, by leg. -/
  inRamp : Map Ramp := []
  outRamp : Map Ramp := []
  /-- Members out of the selection whose contribution still ramps out. -/
  fading : List Nat := []
  /-- Whether the next tick is the first after a restart, which cuts in hard (R210). -/
  hard : Bool := false
  /-- Each member's last block at the mixing rate with the receive gain of its tick, and ms of its absence. -/
  lastIn : Map (List Int × Ramp × Nat) := []
  /-- Equaliser state by output: the leg, or 65535 the shared output. -/
  eq : Map (List Biquad) := []
  /-- Output blocks by listener, 65535 the shared output, of the last three ticks. -/
  outs : Map (List Block) := []
  /-- The outputs of the last item that ran, which missed ones repeat (R198). -/
  heldOuts : Map (List Int) := []
  expired : Nat := 0
  limited : Nat := 0
  /-- Samples already counted as limited, by the tick of the output, for the last two. -/
  limMask : Map (List Nat) := []
  sharedGroups : Nat := 0
  sharing : Nat := 0
  /-- Shared groups by their codec, frame, bit rate and Opus options. -/
  groups : Map Group := []
  lossMs : Nat := 0
  deriving DecidableEq, Repr

/-- A serial audio port. -/
structure Sap where
  block : Bytes := [0, 0, 0, 2, 2, 32, 24, 0]
  /-- A setting that waits for its boundary. -/
  next : Option Bytes := none
  /-- Whether it stands still for the tick of a change, or after a warm reset; and the elapsed instant at which it stopped. -/
  stopped : Bool := false
  since : Time := 0
  /-- Levels at which its pins stand after the last tick: BCLK, FSYNC, DOUT (R216, R217). -/
  pins : Bool × Bool × Bool := (false, false, false)
  /-- Last data bit of the tick, where data lags FSYNC by a bit. -/
  carry : Bool := false
  deriving DecidableEq, Repr

/-- Audio. -/
structure Audio where
  legs : Map Leg := []
  confs : Map ConfRun := []
  /-- Route ramps by route key, with the ROUTE.SET block in force and whether the route has been removed. -/
  routes : Map (Ramp × Bytes × Bool) := []
  saps : Map Sap := []
  deriving DecidableEq, Repr

end Sys2Proof.Machine
end

