-- ==== Sys2Proof/Machine/Parts/Sec.lean ====
section
/-! DEFINITION. State of the media security engine (R340 to R375). -/

namespace Sys2Proof.Machine

/-- A replay window (R341, R358): the highest authenticated index, none before the first, and the 128 indices at and below it. -/
structure Window where
  top : Option Nat := none
  seen : BitVec 128 := 0
  deriving DecidableEq, Repr

/-- A grace key (R351). -/
structure Grace where
  key : Bytes
  salt : Bytes
  win : Window
  winC : Window
  /-- Elapsed instant at which it is dropped. -/
  until_ : Time
  deriving DecidableEq, Repr

/-- A key slot that is not empty (R341). -/
structure KeySlot where
  kind : Nat
  profile : Nat := 0
  key : Bytes
  salt : Bytes := []
  /-- Kind 1: next SRTP index; kind 3: next invocation. -/
  index : Nat := 0
  /-- Kind 1: next SRTCP index. -/
  rtcp : Nat := 0
  /-- Highest SRTP index used by a subscription (R350). -/
  highest : Option Nat := none
  win : Window := {}
  winC : Window := {}
  grace : Option Grace := none
  /-- Events already raised: bit 0 SRTP, bit 1 SRTCP, bit 2 GCM near exhaustion. -/
  near : BitVec 3 := 0
  deriving DecidableEq, Repr

/-- A packet on its way out: the sending object's flow number, the port, and a launch time or a queue (R322). -/
structure Outbound where
  flow : Nat
  port : Nat
  launch : Option Time := none
  queue : Nat := 0
  dscp : Nat := 0
  vlan : Nat := 0
  src : Bytes := []
  dst : Bytes := []
  sport : Nat := 0
  dport : Nat := 0
  ip : Nat := 4
  hop : Nat := 64
  packet : Packet := {}
  tsTag : Option Nat := none
  /-- The producer's own tolerance in ns and whether a late frame is dropped (R540). -/
  own : Option (Nat × Bool) := none
  /-- Whether it leaves with a UDP checksum of 0 (R315). -/
  sum0 : Bool := false
  deriving DecidableEq, Repr

/-- A media request that waits at its producer (R360). -/
inductive SecReq where
  /-- A packet of a slot to be protected; a subscription's index follows its sequence number (R350). -/
  | send (slot : Nat) (rtcp bySeq : Bool) (out : Outbound)
  /-- A packet of a slot to be checked, for the object of a flow number, with its arrival. -/
  | receive (slot : Nat) (rtcp : Bool) (flow : Nat) (arrived : Time) (frame : Frame)
  deriving DecidableEq, Repr

/-- A generic operation of a host command (R350, R363): mailbox slot, snapshot of the key, and IV. -/
structure Crypt where
  slot : Nat
  /-- Whether it still waits at its producer, and has no snapshot yet (R360). -/
  waits : Bool := false
  key : Option Bytes
  iv : Bytes
  /-- Whether the invocation counter refused it. -/
  refused : Bool := false
  deriving DecidableEq, Repr

/-- A user page (R365). -/
structure Page where
  op : Nat := 0
  part : Nat := 0
  slot : Nat := 0
  dataLen : Nat := 0
  aadLen : Nat := 0
  busy : Bool := false
  done : Bool := false
  result : Nat := 0
  iv : Bytes := List.replicate 16 0
  out : Bytes := List.replicate 32 0
  err : Nat := 0
  buf : Mem := []
  /-- Octets of a message given in parts so far. -/
  message : Bytes := []
  /-- Snapshot of the operation in progress: key, and result where it is already decided. -/
  snap : Option (Option Bytes × Nat) := none
  deriving DecidableEq, Repr

/-- The media security engine. -/
structure Sec where
  slots : Map KeySlot := []
  /-- User page of each bound slot. -/
  pages : Map Nat := []
  installs : Map Nat := []
  /-- Counters of a slot by 4 × slot + 0 authentication failures, 1 replay discards, 2 grace acceptances. -/
  counts : Map Nat := []
  /-- Engines fenced since the last reset. -/
  fenced : BitVec 3 := 0
  enabled : Bool := false
  mismatches : Nat := 0
  /-- KEY.STATS counters by response offset. -/
  stats : Map Nat := []
  /-- Requests waiting: 0 leg queue, 1 forwarding queue. -/
  waiting : Map (List SecReq) := []
  /-- Rotating pointer of the arbiter, over the four queues and the sixteen pages (R16, R361). -/
  turn : Nat := 0
  crypts : List Crypt := []
  user : Map Page := []
  deriving DecidableEq, Repr

end Sys2Proof.Machine
end

