-- ==== Sys2Proof/Machine/Parts/Net.lean ====
section
/-! DEFINITION. State of the Ethernet ports (R502 to R521) and of Sorrel (R299 to R339). -/

namespace Sys2Proof.Machine

/-- An entry of the node table (R513). -/
structure Node where
  pair : Nat
  mac : Nat
  /-- Sequence numbers seen: number, LAN (0 even port, 1 odd), elapsed instant. -/
  seqs : List (Nat × Nat × Time) := []
  last : Time := 0
  deriving DecidableEq, Repr

/-- The Ethernet ports. -/
structure Net where
  /-- NET.PORT_SET blocks in force, and those that wait for their boundary. -/
  ports : Map Bytes := []
  portsNext : Map Bytes := []
  pairs : Map Bytes := []
  pairsNext : Map Bytes := []
  /-- NET.CLASS_SET blocks under port × 64 + class. -/
  classes : Map Bytes := []
  classesNext : Map Bytes := []
  up : Map Bool := []
  /-- Packets of the rate limit in a ms (R37): the ms and the count. -/
  rate : Nat × Nat := (0, 0)
  tsQueue : Map (List (Nat × Time)) := []
  tsLost : Map Nat := []
  tsEvent : Map (Time × Nat) := []
  nodes : List Node := []
  nodeEvent : Map (Time × Nat) := []
  /-- Next redundancy sequence number by pair. -/
  redSeq : Map Nat := []
  /-- Elapsed instant of the last frame of a LAN by port, of the device's own supervision frame by pair, and of the last sent. -/
  lanHeard : Map Time := []
  ownHeard : Map Time := []
  supAt : Map Time := []
  /-- LANs and rings with a fault standing. -/
  lanFault : List Nat := []
  ringOpen : List Nat := []
  /-- SyncE outputs: source port or 0xFF, divider, whether squelched. -/
  synce : Map (Nat × Nat × Bool) := [(0, (255, 1, false)), (1, (255, 1, false))]
  /-- NET.STATS counters under port × 100 + place from 1. -/
  stats : Map Nat := []
  /-- Received packets that wait for their object, by flow number; RTCP under 0x100000 + flow. -/
  inbox : Map (List (Time × Frame)) := []
  deriving DecidableEq, Repr

/-- A frame in a WFQ queue with its elapsed instant of enqueue (R324). -/
structure Queued where
  at_ : Time
  cost : Nat
  out : Outbound
  deriving DecidableEq, Repr

/-- A port's queues (R322, R323). -/
structure PortQ where
  v : Nat := 0
  /-- Rotating pointer over the queues (R16). -/
  ptr : Nat := 0
  tags : Map Nat := []
  queues : Map (List Queued) := []
  agedAt : Option Time := none
  aged : Nat := 0
  /-- Elapsed instant at which the frame in transmission ends. -/
  busy : Time := 0
  deriving DecidableEq, Repr

/-- States of a subscription (R302). -/
inductive SubState where
  | waitKey | forwarding | paused | sourceLost
  deriving DecidableEq, Repr

/-- A subscription's runtime. -/
structure Sub where
  state : SubState := .waitKey
  rung : Nat := 0
  target : Nat := 0
  /-- Rung from the next access unit, where it falls. -/
  lower : Option Nat := none
  /-- Elapsed instant since which a key picture has been awaited. -/
  waiting : Option Time := none
  pausing : Bool := false
  /-- Elapsed instant of the pause. -/
  pausedAt : Time := 0
  tsOffset : Nat := 0
  /-- Base of the output sequence numbers, once the first packet is forwarded. -/
  base : Option Nat := none
  /-- Packets not forwarded; the input sequence numbers of gaps with the count at which each formed; the highest. -/
  d : Nat := 0
  gaps : List (Nat × Nat) := []
  high : Option Nat := none
  /-- Timestamp of the access unit in progress, and whether it is forwarded. -/
  auTs : Option Nat := none
  /-- Whether the access unit in progress left WAIT_KEY, and the spatial layers seen as random-access points in it, one bit each. -/
  auKey : Bool := false
  auRap : Nat := 0
  rtcpAt : Time := 0
  sentSince : Bool := false
  sent : Nat × Nat := (0, 0)
  /-- Cumulative loss, jitter in µs and round trip in µs, from the receiver's reports. -/
  rrLost : Nat := 0
  rrJitter : Nat := 0
  rtt : Nat := 0
  /-- Counters of FWD.SUB_STATS by response offset. -/
  stats : Map Nat := []
  deriving DecidableEq, Repr

/-- A packet in a line queue. -/
structure Lined where
  sub : Nat
  length : Nat
  out : Outbound
  slot : Option Nat
  deriving DecidableEq, Repr

/-- A line model's runtime (R307). -/
structure LineRun where
  /-- Tokens in 1/(65,536 × 10⁹) of a bit, and elapsed instant of their count. -/
  tokens : Nat := 0
  at_ : Time := 0
  queue : List Lined := []
  /-- Capacity in force in bit/s, where a TMMBR lowered it. -/
  tmmbr : Option Nat := none
  fastAt : Option Time := none
  /-- The FWD.LINE_SET block under which its queue drains once the line model has left (R98). -/
  block : Bytes := []
  overAt : Option Time := none
  discards : Nat := 0
  deriving DecidableEq, Repr

/-- A policer's buckets in 2⁻²⁴ byte, the remainders carried in 1/8,000 of that, and the last interval (R320). -/
structure Buckets where
  c : Nat := 0
  e : Nat := 0
  rc : Nat := 0
  re : Nat := 0
  at_ : Nat := 0
  deriving DecidableEq, Repr

/-- Counts of a source's layer in its 100 ms windows, the one in progress first (R308). -/
structure LayerRate where
  windows : List (Nat × Nat) := [(0, 0)]
  deriving DecidableEq, Repr

/-- A relay's runtime. -/
structure Relay where
  rtp : RtpRx := {}
  lost : Bool := false
  /-- Packets discarded (R300). -/
  discards : Nat := 0
  /-- Layer of the fragmented NAL unit in progress, and temporal id of the last prefix NAL unit. -/
  frag : Nat × Nat := (0, 0)
  prefix_ : Option Nat := none
  /-- SSRC that its RTCP uses. -/
  own : Nat := 0
  /-- Elapsed instant of the last key request, whether one waits for the interval's end, and its cause. -/
  keyAt : Option Time := none
  merged : Option Nat := none
  firSeq : Nat := 0
  cname : Bytes := []
  rtcpAt : Time := 0
  /-- NTP time and RTP timestamp of the sender's last SR, and elapsed instant of its arrival. -/
  sr : Option (Nat × Nat × Time) := none
  deriving DecidableEq, Repr

/-- Sorrel. -/
structure Fwd where
  ports : Map PortQ := []
  subs : Map Sub := []
  lines : Map LineRun := []
  /-- Buckets by policer key. -/
  policers : Map Buckets := []
  relays : Map Relay := []
  /-- Rates by source × 64 + spatial × 8 + temporal. -/
  rates : Map LayerRate := []
  /-- FWD.PORT_STATS counters under port × 256 + response offset. -/
  stats : Map Nat := []
  corrected : Nat := 0
  deriving DecidableEq, Repr

end Sys2Proof.Machine
end

