-- ==== Sys2Proof/Machine/Parts/Plat.lean ====
section
/-! DEFINITION. State of the platform: time (R522 to R550), power (R591 to R609), reset and boot (R610 to R629),
self-test (R630 to R645) and Harebell (R646 to R672). -/

namespace Sys2Proof.Machine

/-- Servo states, coded as TIME.STATUS (R548). -/
inductive Servo where
  | freeRun | acquiring | locked | holdover | frequency
  deriving DecidableEq, Repr

/-- A slew in progress (R527). -/
structure Slew where
  /-- Signed offset in ns. -/
  offset : Int
  /-- Rate in force, in ppb. -/
  rate : Nat
  /-- Elapsed start. -/
  start : Time
  deriving DecidableEq, Repr

/-- A frame of a timed queue (R537). -/
structure Timed where
  launch : Time
  tolerance : Nat
  drop : Bool
  packet : Packet
  /-- Time-stamp request tag (R509). -/
  tsTag : Option Nat := none
  deriving DecidableEq, Repr

/-- The time block. -/
structure TimeBlk where
  /-- The time counter. -/
  now : Time := 0
  /-- Elapsed time, which no step moves; the model's own. -/
  up : Time := 0
  /-- Frequency adjustment in 0.001 ppb. -/
  y : Int := 0
  /-- The servo's sum, in ns. -/
  s : Rat := 0
  state : Servo := .freeRun
  lockCount : Nat := 0
  outliers : Nat := 0
  /-- Last frequency measurement in ppb. -/
  f : Rat := 0
  phasePresent : Bool := false
  freqPresent : Bool := false
  /-- Last phase measurement in 1/65,536 ns. -/
  theta : Int := 0
  /-- y over time in LOCKED, latest first: elapsed length and y. -/
  history : List (Time × Int) := []
  historyFrom : Time := 0
  /-- Stored holdover frequency (R532). -/
  stored : Int := 0
  stateSince : Time := 0
  limitPassed : Bool := false
  /-- Counter stamp of the last accepted PPS_IN edge. -/
  lastPps : Option Time := none
  slew : Option Slew := none
  /-- TIME.SERVO_SET block (R544). -/
  servo : Bytes := [0, 0, 0, 0, 0xBC, 2, 0, 0, 0x2C, 1, 0, 0, 0x40, 0x42, 0x0F, 0, 100, 0, 0, 0, 0xE8, 3, 0, 0, 0x2C, 1, 240, 0, 200, 0, 0, 0]
  /-- TIME.PTP_SET blocks of the ports set (R545). -/
  ptp : Map Bytes := []
  /-- TIME.PINS_SET block (R546). -/
  pins : Bytes := [0, 0, 0, 0, 0, 0, 0, 0, 100, 0, 1, 2, 0, 0, 0, 0]
  /-- TIME.LAUNCH_SET blocks of the ports set (R547). -/
  launch : Map Bytes := []
  utc : Nat := 37
  leap : Nat := 0
  /-- An armed mode-2 TIME.SET: its parameters. -/
  armed : Option Bytes := none
  steps : Nat := 0
  /-- Counter value that the last reset or step set (R536). -/
  setAt : Time := 0
  ppsOut : Bool := false
  grandmaster : Nat := 0
  slavePort : Option Nat := none
  pathDelay : Nat := 0
  /-- Of the last Sync exchange of each PTP port: the receive stamp of the Sync, and the time that its follow-up carried (R14, R529). -/
  ptpSync : Map Time := []
  ptpOrigin : Map Time := []
  /-- TIME.STATS device counters by index 1 to 5, and port counters by 100 × (port + 1) + index. -/
  stats : Map Nat := []
  /-- Elapsed instants of the last TIME.OUTLIER and, by port, TIME.LAUNCH_LATE; counts since. -/
  outlierAt : Option Time := none
  outliersSince : Nat := 0
  lateAt : Map Time := []
  lateSince : Map Nat := []
  /-- Timed queues by port, in ascending launch time. -/
  queues : Map (List Timed) := []
  deriving DecidableEq, Repr

/-- A voltage change in progress (R594, R595). -/
structure VoltChange where
  target : Nat
  writtenAt : Time
  /-- Whether the armed commit waits for it. -/
  raising : Bool
  deriving DecidableEq, Repr

/-- Clocks and power. -/
structure Power where
  /-- Device state: 0 Run, 2 Sleep, 3 Deep sleep, 4 Off (R596). -/
  state : Nat := 0
  idle : Bool := false
  /-- DVFS point in force. -/
  point : Nat := 0
  volt : Option VoltChange := none
  /-- A change that waits for the one in progress: target point, and whether it is raising (R594). -/
  queued : Option (Nat × Bool) := none
  /-- Reading of the on-die monitor in mV. -/
  vddCore : Nat := 800
  powerGood : Bool := true
  /-- Powered domains (R600). -/
  powered : BitVec 36 := 0
  /-- Domains waking, with the elapsed instant of the demand. -/
  waking : Map Time := []
  /-- Elapsed instant since which each auto domain has been idle. -/
  idleSince : Map Time := []
  warn : Bool := false
  high : Bool := false
  /-- Temperature sensors in 0.1 °C. -/
  temps : List Int := List.replicate 16 250
  /-- Sensors at or above 125 °C in the last sample. -/
  tripOnce : BitVec 16 := 0
  /-- Warning threshold in °C; none for the grade's default. -/
  warnAt : Option Nat := none
  /-- PLLs without lock, with the elapsed instant of the loss; numbered as PWR.STATUS, 8 AON, 9 the time synthesiser. -/
  unlocked : Map Time := []
  refclkOk : Bool := true
  wakes : Nat := 0
  longest : Nat := 0
  /-- A Deep sleep or Off request waiting out its 10 ms: state and elapsed end. -/
  request : Option (Nat × Time) := none
  wakeAt : Option Time := none
  thermtrip : Bool := false
  deriving DecidableEq, Repr

/-- Where a boot stands. -/
inductive BootPhase where
  /-- In Off, or PORST_N low. -/
  | held
  /-- WRST_N low. -/
  | warmHeld
  /-- A cold or a warm boot is under way. -/
  | booting (warm : Bool)
  /-- UART recovery (R618). -/
  | recovery
  | running
  deriving DecidableEq, Repr

/-- Reset and boot. -/
structure Boot where
  phase : BootPhase := .held
  lastReset : Nat := 0
  cfgCode : Nat := 0
  band : Nat := 0
  causes : BitVec 3 := 0
  otpFailures : Nat := 0
  otpLoaded : Bool := false
  trained : Bool := false
  /-- Elapsed instant of the end of the last reset. -/
  resetEnd : Time := 0
  bootMs : Nat := 0
  /-- Elapsed instant at which Uzogan last started. -/
  uzoganAt : Time := 0
  coldResets : Nat := 0
  warmResets : Nat := 0
  endpointResets : Nat := 0
  /-- Blocks whose release waits for lock, with the elapsed instant of the request (R620). -/
  pendingRelease : Map Time := []
  /-- Blocks held in reset. -/
  inReset : BitVec 36 := -1
  /-- Whether a DEVICE_READY has followed the last cold reset (R613). -/
  readyOnce : Bool := false
  /-- Whether DEVICE_READY follows an endpoint reset only (R612). -/
  endpointOnly : Bool := false
  /-- REFCLK has failed and the boot waits for 10 ms of lock (R592). -/
  waitRefclk : Bool := false
  gpio : BitVec 16 := 0
  /-- Output pins by number: 0 PPS_OUT, 1 BITS_OUT, 2 ALERT_N, 3 THERMTRIP_N, 4 and 5 SYNCE_OUT, 6 UART transmit. For 1, 4 and 5 true
  stands for the clock that the pin carries, false for held low. -/
  pins : Map Bool := [(0, false), (1, false), (2, true), (3, true), (4, false), (5, false), (6, true)]
  deriving DecidableEq, Repr

/-- The last test of a unit (R643). -/
structure TestReport where
  origin : Nat := 0
  result : Nat := 0
  element : Nat := 0
  signature : Nat := 0
  expected : Nat := 0
  patterns : Nat := 0
  address : Nat := 0
  isolated : Nat := 0
  deriving DecidableEq, Repr

/-- Self-test. -/
structure TestBlk where
  /-- Health bits by block (R637). -/
  health : Map Nat := []
  /-- Sites (block × 256 + site) whose bit is not yet in flash. -/
  unwritten : List Nat := []
  /-- Bits ever set. -/
  everSet : Nat := 0
  /-- Sites out of service since the last reset, whatever the map says now. -/
  out : Map Nat := []
  /-- Reports by block × 256 + site. -/
  reports : Map TestReport := []
  /-- Tests that run: block × 256 + site, with slot and host sequence of a TEST.RUN. -/
  running : Map (Nat × Nat) := []
  deriving DecidableEq, Repr

/-- A firmware slot as it verifies but for the anti-rollback counter (R654, R655). -/
structure FwSlot where
  version : Nat := 0
  security : Nat := 0
  levels : Nat := 7
  /-- Header well formed and signature good. -/
  good : Bool := true
  deriving DecidableEq, Repr

/-- The flash configuration (R647). -/
structure FlashConfig where
  health : Map Nat := []
  /-- Region sizes in GiB by index (R582), stored for the next cold boot. -/
  regions : Map Nat := []
  /-- Address hash masks by index (R570). -/
  masks : Map Nat := []
  pcieActions : Nat := 0
  confirmed : Nat := 0
  trial : Option Nat := none
  level : Nat := 3
  deriving DecidableEq, Repr

/-- A voltage monitor (R648). -/
structure Monitor where
  mv : Nat := 0
  out : Bool := false
  bad : Nat := 0
  good : Nat := 0
  deriving DecidableEq, Repr

/-- An entry of the event log (R651). -/
structure LogEntry where
  event : Event
  mirrored : Bool := false
  /-- Elapsed instant of the entry. -/
  at_ : Time := 0
  deriving DecidableEq, Repr

/-- Harebell. -/
structure Mgmt where
  lifecycle : Nat := 0
  /-- Behaviour level in force (R5). -/
  level : Nat := 3
  /-- OTP items programmed, and items left unusable. -/
  otp : BitVec 3 := 0
  otpBad : BitVec 3 := 0
  rootKey : Bytes := []
  imageDigest : Bytes := []
  macs : Bytes := []
  rollback : Nat := 0
  slots : Map FwSlot := [(0, {})]
  running : Nat := 0
  asTrial : Bool := false
  /-- Configuration as last written. -/
  config : FlashConfig := {}
  /-- The two flash copies with their write counts; none: not valid. -/
  copies : Map (Nat × FlashConfig) := []
  /-- Log entries by log sequence. -/
  log : Map LogEntry := []
  logNext : Nat := 0
  mirroredThrough : Nat := 0
  mirrorFailing : Bool := false
  /-- The newest 4,096 entries of the flash mirror, by log sequence, and the elapsed instant of the last failed write. -/
  mirror : Map Event := []
  mirrorFailAt : Time := 0
  threshold : Nat := 2
  alertMask : BitVec 6 := 0x3F
  /-- Alert causes but safe boot, thermal and PLL state, which their own state gives. -/
  monitors : Map Monitor := (List.range 8).map fun i => (i, {})
  /-- Sensor latched by a thermal trip (R653). -/
  tripped : Option Nat := none
  /-- Whether the running image was received by UART, and whether it still writes nothing to flash (R657). -/
  recovered : Bool := false
  flashHeld : Bool := false
  /-- The running image. -/
  image : FwSlot := {}
  deriving DecidableEq, Repr

end Sys2Proof.Machine
end

