-- ==== Sys2Proof/Machine/Parts/Rec.lean ====
section
/-! DEFINITION. State of the recorder (R376 to R400) and of the compression engine (R401 to R410). -/

namespace Sys2Proof.Machine

/-- A record on its way to the ring (R379). -/
structure Record where
  type : Nat
  codec : Nat := 0xFF
  object : Nat
  /-- First sample, playout, launch or mark, by the counter. -/
  time : Time
  ms : Nat := 0
  flags : Nat := 0
  pt : Nat := 0
  ts : Nat := 0
  data : Bytes := []
  deriving DecidableEq, Repr

/-- A segment that is not sealed: its start in the ring and what its header will hold (R380). -/
structure Seg where
  start : Nat := 0
  second : Nat
  seconds : Nat := 1
  body : Nat := 0
  records : Nat := 0
  lost : Nat := 0
  flags : Nat := 0
  gen : Nat := 0
  deriving DecidableEq, Repr

/-- Ten milliseconds of a leg's direction in the making: start, octets, ticks, flags. -/
structure Accum where
  start : Time
  data : Bytes := []
  ms : Nat := 0
  flags : Nat := 0
  deriving DecidableEq, Repr

/-- The recorder. -/
structure Rec where
  running : Bool := false
  mode : Nat := 0
  modeNext : Nat := 0
  /-- Whether each seal raises REC.SEGMENT. -/
  segEvent : Bool := false
  chain : Nat := 0
  /-- Sequence of the next segment, and its link. -/
  seq : Nat := 0
  link : Bytes := List.replicate 32 0
  oldest : Nat := 0
  drain : Nat := 0
  sealedEnd : Nat := 0
  write : Nat := 0
  lastSeq : Nat := 0
  lastSecond : Nat := 0
  /-- The segment in progress, and one that has opened behind it with only its reserved space (R384). -/
  seg : Option Seg := none
  reserved : Option Seg := none
  /-- Last second for which a segment opened, or was found not to fit. -/
  lastOpen : Option Nat := none
  /-- Sealed segments in the ring, oldest first: start and end. -/
  held : List (Nat × Nat) := []
  /-- First second without a segment, and how many (R386). -/
  missing : Option (Nat × Nat) := none
  staging : List Record := []
  /-- Records that have not reached the recorder. -/
  arriving : List Record := []
  /-- Records lost since the chain started; since the last event, and its elapsed instant. -/
  lost : Nat := 0
  lostSince : Nat := 0
  lostAt : Option Time := none
  overSince : Nat := 0
  overAt : Option Time := none
  /-- Ring copies in progress: mailbox slot, position, bytes. -/
  reads : List (Nat × Nat × Nat) := []
  /-- Whether a REC.CLEAR waits for the second boundary. -/
  clearing : Bool := false
  /-- Records in the making by leg × 2 + direction, and runs of concealed ticks by leg. -/
  acc : Map Accum := []
  runs : Map Accum := []
  deriving DecidableEq, Repr

/-- States of a compression context (R406). -/
inductive ZipState where
  | idle | opened | running | full | error
  deriving DecidableEq, Repr

/-- A compression context (R403): the stream so far stands for its window and coder state. -/
structure ZipCtx where
  state : ZipState := .idle
  /-- Whether its job waits because Clover does not dispatch to the block (R79). -/
  waiting : Bool := false
  /-- Parameters of the job's ZIP.START, and the output length and offset in force. -/
  job : Bytes := []
  outLen : Nat := 0
  outOff : Nat := 0
  /-- Input of the job as it stood at its start. -/
  input : Bytes := []
  /-- Jobs of the stream so far: level, flush and input. -/
  jobs : List (Nat × Nat × Bytes) := []
  /-- Octets of the stream's output written so far. -/
  sent : Nat := 0
  /-- Input consumed and output produced by the job so far, and input octets that earlier jobs of the stream consumed. -/
  consumed : Nat := 0
  produced : Nat := 0
  before : Nat := 0
  result : Bytes := List.replicate 32 0
  deriving DecidableEq, Repr

end Sys2Proof.Machine
end

