-- ==== Sys2Proof/Machine/Parts/Senak.lean ====
section
/-! DEFINITION. State of the host interface: BAR0, mailboxes, event ring, MSI-X (R42 to R83) and the generations (R84 to R109). -/

namespace Sys2Proof.Machine

/-- A doorbell in the queue (R55). -/
structure Doorbell where
  slot : Nat
  /-- Instant of arrival, on the elapsed clock. -/
  arrived : Time
  deriving DecidableEq, Repr

/-- A command that has answered PENDING (R60). -/
structure PendingCmd where
  code : Nat
  /-- The object the completion names: a block, a stream, a slot number. -/
  obj : Nat
  slot : Nat
  hostSeq : Nat
  /-- The parameters, for the row that completes the command. -/
  params : Bytes := []
  deriving DecidableEq, Repr

/-- The event ring (R64, R68). -/
structure EvQ where
  /-- Ring address bits [63:12]. -/
  base : BitVec 52 := 0
  log2 : Nat := 12
  holdoff : Nat := 0
  en : Bool := false
  head : Nat := 0
  tail : Nat := 0
  phase : Bool := true
  lost : Nat := 0
  /-- Waiting events, oldest first, at most 255. -/
  backlog : List Event := []
  /-- Count of the loss marker; 0 when it holds none. -/
  marker : Nat := 0
  /-- Elapsed instant of the last vector-0 message. -/
  lastMsg : Option Time := none
  deriving DecidableEq, Repr

/-- The PCI Express function (R42 to R44). -/
structure Pcie where
  /-- Whether the link is up at 8 GT/s ×8 or better. -/
  linkUp : Bool := false
  /-- Trained rate in GT/s and width, 0 before training. -/
  rate : Nat := 0
  width : Nat := 0
  /-- Whether the function is in D0 rather than D3hot. -/
  d0 : Bool := true
  /-- Bus Master Enable. -/
  bme : Bool := false
  /-- PME_Turn_Off handshake done. -/
  turnOff : Bool := false
  /-- Words of the MSI-X table that differ from the reset value, by word index. -/
  msixTable : Map Nat := []
  /-- MSI-X pending-bit array. -/
  pba : BitVec 64 := 0
  /-- Words of BAR0 and BAR2 that the host has written: base addresses, without their size and type bits (R42). -/
  bars : Map Nat := []
  /-- PERST_N low: the endpoint is held in reset. -/
  held : Bool := true
  deriving DecidableEq, Repr

/-- A BAR0 write held for a domain that is not ready (R47). -/
structure HeldWrite where
  off : Nat
  value : Nat
  deriving DecidableEq, Repr

/-- A quiesce in progress (R79). -/
structure Quiesce where
  deadline : Time
  slot : Nat
  hostSeq : Nat
  deriving DecidableEq, Repr

/-- A commit or rollback in preparation: its code, its slot as copied, and its doorbell's arrival (R56, R90). -/
structure Preparing where
  code : Nat
  request : Request
  arrived : Time
  deriving DecidableEq, Repr

/-- The Senak interface. -/
structure Senak where
  scratch : BitVec 32 := 0
  /-- DEV_FAULT: RING_REFUSED, EVQ_LOST, EVQ_WRITE, DWIN, NARROW, NOT_READY from bit 0. -/
  devFault : BitVec 6 := 0
  ready : Bool := false
  safeBoot : Bool := false
  /-- The commit or rollback in preparation; DEV_STATUS.COMMIT_PENDING is 1 while there is one (R49, R90). -/
  preparing : Option Preparing := none
  dwinBase : BitVec 11 := 0
  dwinErr : Nat := 0
  busy : BitVec 64 := 0
  done : BitVec 64 := 0
  irq : BitVec 64 := 0
  doorbells : List Doorbell := []
  mbxErr : Nat := 0
  /-- The 64 slots of 1 KiB, addressed from 0. -/
  slots : Mem := []
  /-- The device sequence that the next command takes (R53). -/
  nextSeq : Nat := 1
  pending : List PendingCmd := []
  /-- SYS.EVENT_MASK bytes; empty stands for all 0 (R80). -/
  mask : Bytes := []
  /-- SYS.STATS counters by response offset (R81). -/
  stats : Map Nat := []
  evq : EvQ := {}
  pcie : Pcie := {}
  heldWrites : List HeldWrite := []
  /-- Quiesces that wait for idle, each with its block, oldest first. -/
  quiesce : List (Nat × Quiesce) := []
  /-- Blocks to which Clover does not dispatch: quiesced with a final OK, or block-reset (R79, R624). -/
  stopped : List Nat := []
  /-- Those of them quiesced with a final OK. -/
  quiesced : List Nat := []
  /-- A SYS.RESET whose delay runs: kind and elapsed instant of its end (R78). -/
  resetAt : Option (Nat × Time) := none
  deriving DecidableEq, Repr

/-- An armed commit or rollback (R96). -/
structure Armed where
  gen : Generation
  boundary : Time
  rollback : Bool
  slot : Nat
  hostSeq : Nat
  /-- Whether activation waits for power-good (R595). -/
  waitPower : Bool := false
  deriving DecidableEq, Repr

/-- The generations (R86). -/
structure Gens where
  active : Generation := {}
  previous : Option Generation := none
  staged : Generation := { number := 2 }
  armed : Option Armed := none
  /-- Highest number issued since the cold reset. -/
  highest : Nat := 2
  activeSince : Time := 0
  /-- Whether the active generation is reactivated at the next boundary (R109). -/
  reactivate : Bool := false
  deriving DecidableEq, Repr

end Sys2Proof.Machine
end

