-- ==== Sys2Proof/Machine/Parts/Tdm.lean ====
section
/-! DEFINITION. State of the TDM block (R466 to R489). -/

namespace Sys2Proof.Machine

/-- A pointer interpreter (R471): state 0 NORM, 1 LOP, 2 AIS. -/
structure Ptr where
  state : Nat := 0
  offset : Nat := 0
  /-- Frames since the last adjustment or new pointer. -/
  since : Nat := 3
  invalid : Nat := 0
  ndf : Nat := 0
  ones : Nat := 0
  /-- The offset that comes again and again, and how often. -/
  same : Nat × Nat := (0, 0)
  deriving DecidableEq, Repr

/-- Consecutive frames that showed and that did not show an indication. -/
structure Run where
  on : Nat := 0
  off : Nat := 0
  deriving DecidableEq, Repr

/-- An SDH port. -/
structure SdhPort where
  /-- TDM.SDH_SET block in force. -/
  block : Bytes := []
  losIn : Bool := false
  /-- No transition for 20 µs since the last frame. -/
  silent : Bool := false
  /-- Elapsed instant since which neither holds, while LOS stands. -/
  quiet : Option Time := none
  /-- Bit position of the candidate, or of the alignment. -/
  candidate : Option Nat := none
  position : Option Nat := none
  errored : Nat := 0
  /-- Elapsed instant at which the framer last went in or out of frame. -/
  turned : Time := 0
  aus : List Ptr := List.replicate 4 {}
  tus : Map Ptr := []
  hpRdi : List Run := List.replicate 4 {}
  lpRdi : Map Run := []
  msAis : Run := {}
  msRdi : Run := {}
  lom : Run := {}
  h4 : Option Nat := none
  s1 : Nat := 0
  s1Run : Nat × Nat := (0, 0)
  /-- Errors to report: 0 in M1, 1 + a in G1 of AU-4 a, 8 + i in V5 of TU-12 i. -/
  rei : Map Nat := []
  deriving DecidableEq, Repr

/-- The framer, slip store and signalling of an E1 number (R472 to R478). -/
structure Line where
  /-- TDM.PDH_SET or TDM.TRIB_SET block in force. -/
  block : Bytes := []
  losIn : Bool := false
  quiet : Option Time := none
  /-- E1 framer: 0 hunts, 1 and 2 await the checks of R472, 3 aligned; bits since the word; last bits; bits since the hunt began. -/
  phase : Nat := 0
  cnt : Nat := 0
  sr : Nat := 0
  fresh : Nat := 0
  /-- Bits of the frame in progress. -/
  buf : Nat := 0
  fasBad : Nat := 0
  /-- T1 framer: the last 48 periods of 193 bits, latest first; frame bit position; frame number 1 to 24. -/
  hist : List (BitVec 193) := []
  pos : Option Nat := none
  frame : Nat := 0
  dataLink : List Bool := []
  raiBits : Nat := 0
  /-- Bits and zeros of the 512-bit period in progress. -/
  aisBits : Nat := 0
  aisZeros : Nat := 0
  ais : Run := {}
  rai : Run := {}
  /-- Elapsed instant of frame alignment. -/
  alignedAt : Time := 0
  /-- CRC-4: bit 1 of the last not-FAS frames, latest first; frames since a first multiframe signal; frame number in the multiframe. -/
  nfas : List Bool := []
  mfSeen : Option Nat := none
  mf : Option Nat := none
  /-- Remainder of the block in progress, of the block before, and check bits received. -/
  crc : Nat := 0
  crcBefore : Option Nat := none
  /-- The block in progress has been seen from its start. -/
  whole : Bool := false
  crcBits : Nat := 0
  blocks : Nat := 0
  badBlocks : Nat := 0
  /-- E-bits to send, oldest first (R473). -/
  eBits : List Bool := []
  /-- CAS: frame number in the signalling multiframe; consecutive errored signals; non-zero timeslots 16 of the multiframe. -/
  cas : Option Nat := none
  casBad : Nat := 0
  casOnes : Nat := 0
  last16 : Nat := 0
  /-- ABCD codes by timeslot: received in the last multiframe, and in effect. -/
  heard : Map Nat := []
  codes : Map Nat := []
  /-- Slip store: octets, elapsed instant of completion, whether marked failed. -/
  store : List (Bytes × Time × Bool) := []
  /-- The frame that the switch took last, and whether it took one. -/
  taken : Bytes := []
  takenOk : Bool := false
  slips : List Time := []
  slipAt : Option Time := none
  deriving DecidableEq, Repr

/-- A protection pair (R481 to R484). -/
structure Pair where
  /-- Whether the protecting path is selected. -/
  protecting : Bool := false
  /-- The differential delay of an aligned pair, in multiframes. -/
  aligned : Option Int := none
  failedChecks : Nat := 0
  /-- Elapsed instants of the last search of an unaligned pair and of the last check of an aligned one (R482). -/
  searched : Option Time := none
  checked : Time := 0
  /-- Elapsed instants since which SF working, SF protecting, SD working and SD protecting stand. -/
  since : List (Option Time) := [none, none, none, none]
  /-- Which of them have persisted for the hold-off time. -/
  acts : List Bool := [false, false, false, false]
  /-- SD as the last second showed it, of each path. -/
  degraded : List Bool := [false, false]
  /-- Elapsed end of wait-to-restore. -/
  restore : Option Time := none
  deriving DecidableEq, Repr

/-- The TDM block. -/
structure Tdm where
  ports : Map SdhPort := []
  lines : Map Line := []
  /-- Settings that wait for their boundary, by line object (R490). -/
  waiting : Map Bytes := []
  /-- Defects by line object: E1 number, 0x10000 + port, 0x20000 + working TRIB; and those present in the current second. -/
  defects : Map Nat := []
  present : Map Nat := []
  /-- Counters by line object (R489), the set latched last and its TAI second. -/
  counts : Map (Map Nat) := []
  latched : Map (Map Nat) := []
  second : Nat := 0
  /-- V5 BIP-2 errored multiframes of each TRIB in the current second (R484). -/
  errored : Map Nat := []
  pairs : Map Pair := []
  /-- Operator requests by working TRIB (R497). -/
  requests : Map Nat := []
  /-- ABCD codes written by TDM.CAS, and those being sent (R487). -/
  written : Map Nat := []
  sent : Map Nat := []
  /-- Outputs whose page word is bad, with the elapsed instant at which firmware has rewritten it (R488). -/
  bad : Map Time := []
  corrected : Nat := 0
  /-- Octets of each TDM leg's tick in progress; none where its timeslot failed. -/
  gather : Map (List (Option Byte)) := []
  /-- Octets that each TDM leg sends in this tick. -/
  sending : Map Bytes := []
  deriving DecidableEq, Repr

end Sys2Proof.Machine
end

