-- ==== Sys2Proof/Machine/Parts/Vid.lean ====
section
/-! DEFINITION. State of video streams (R228 to R268). -/

namespace Sys2Proof.Machine

/-- A decoded picture as references and concealment name it: its number in the bitstream, its presentation time, and whether it is still
marked as a reference (R245, R246). -/
structure RefPic where
  number : Nat
  due : Time
  pic : Picture
  marked : Bool := true
  deriving DecidableEq, Repr

/-- A decoded picture that a stream holds. -/
structure Decoded where
  pic : Picture
  ts : Int
  /-- Presentation time. -/
  due : Time
  deriving DecidableEq, Repr

/-- A picture being assembled, or complete and waiting to be decoded. -/
structure Assembly where
  ts : Int
  /-- Arrival of its first packet, by the counter and by the elapsed clock. -/
  first : Time
  firstUp : Time
  /-- Sequence number, marker bit and payload of each packet, by sequence number from the first. -/
  packets : List (Nat × Bool × Bytes) := []
  /-- Sequence number after the marker of the picture before it, where that is known (R238). -/
  from_ : Option Nat := none
  /-- Complete: the NAL units that its packets carry whole. -/
  units : List Bytes := []
  deriving DecidableEq, Repr

/-- Receive states of R242. -/
inductive VidState where
  | waiting | clean | tainted | timedOut | unsupported
  deriving DecidableEq, Repr

/-- A source picture taken at T(i) (R249), with the configuration and the engine place of its picture (R98). -/
structure Taken where
  index : Nat
  /-- T(i), by the counter. -/
  at_ : Time
  block : Bytes
  place : Nat
  source : Picture
  /-- Buffer that it holds as an immutable input (R24): an output and a frame's number, or 0x10000 + a stream and a picture's number. -/
  holds : Option (Nat × Nat) := none
  /-- Whether a key-picture request had been made by then (R251). -/
  asked : Bool := false
  deriving DecidableEq, Repr

/-- A picture that an encode stream is coding. -/
structure Coding where
  taken : Taken
  idr : Bool
  temporal : Nat
  /-- Whether enhancement layers are coded without temporal prediction. -/
  switch : Bool
  /-- Budget still unspent, in bits, and bits spent. -/
  left : Nat
  spent : Nat := 0
  slice : Nat := 0
  /-- Picture that it references (R250). -/
  ref : Option Nat := none
  /-- Rows coded, and whether one has been replaced by a floor row. -/
  row : Nat := 0
  floor : Bool := false
  deriving DecidableEq, Repr

/-- A video stream's runtime. -/
structure Vid where
  state : VidState := .waiting
  rtp : RtpRx := {}
  lastTs : Option (Nat × Int) := none
  assembling : List Assembly := []
  complete : List Assembly := []
  /-- Latest timestamp of a complete picture. -/
  doneTs : Option Int := none
  /-- Sequence number of that picture's marker, where it arrived. -/
  doneMark : Option Nat := none
  anchor : Option (Time × Int) := none
  pics : List Decoded := []
  /-- Decoded pictures that references and concealment use. -/
  refs : List RefPic := []
  /-- Buffers that consumers hold as immutable inputs, by picture number (R24). -/
  held : List Nat := []
  /-- The sequence activated last. -/
  sequence : Option SeqFacts := none
  /-- The current picture, with its presentation time. -/
  current : Picture := { concealed := true }
  currentDue : Option Time := none
  /-- Consecutive late pictures and the greatest lateness among them. -/
  lateRun : Nat := 0
  lateMost : Time := 0
  /-- Window of R241 and the luma samples decoded in it. -/
  window : Nat × Nat := (0, 0)
  overrunAt : Option Time := none
  overruns : Nat := 0
  concealedAt : Option Time := none
  concealedAreas : Nat := 0
  /-- Pictures marked concealed while TAINTED. -/
  tainted : Nat := 0
  /-- Whether VID.UNSUPPORTED has been raised for the sequence. -/
  seqBad : Bool := false
  /-- Parameter sets received in band: kind, identifier, NAL unit. -/
  sets : List (Nat × Nat × Bytes) := []
  /-- Elapsed instant of the last key request, and whether one waits for the interval's end. -/
  keyAt : Option Time := none
  merged : Bool := false
  firSeq : Nat := 0
  /-- SSRC that a decode stream's RTCP uses. -/
  own : Nat := 0
  /-- Encoding: activation boundary, next picture, picture in coding, last source picture. -/
  start : Time := 0
  next : Nat := 0
  coding : Option Coding := none
  /-- Pictures whose T(i) has come while an earlier one is in coding. -/
  queue : List Taken := []
  /-- Last picture coded in each temporal layer. -/
  coded : Map Nat := []
  source : Picture := {}
  /-- T of the last IDR picture, cause of a pending key-picture request, and whether an IDR has been moved by a skip. -/
  idrAt : Option Time := none
  keyCause : Option Nat := none
  idrMoved : Bool := false
  /-- Bits of the coded-picture buffer at an instant after A; none before the first removal. -/
  cpb : Option (Nat × Time) := none
  seq : Nat := 0
  ts : Nat := 0
  skippedAt : Option Time := none
  skips : Nat := 0
  meanQp : Nat := 0
  /-- Picture and slice of the last slice dropped. -/
  dropped : Option (Nat × Nat) := none
  rtcpAt : Time := 0
  sentSince : Bool := false
  sent : Nat × Nat := (0, 0)
  /-- VID.STATS counters by response offset. -/
  stats : Map Nat := []
  deriving DecidableEq, Repr

/-- Video. -/
structure Video where
  vids : Map Vid := []
  /-- Runtime of streams that have left, or started again, while work that began before is unfinished, oldest first (R98, R99). -/
  leaving : List (Nat × Vid) := []
  /-- Pictures numbered so far. -/
  pictures : Nat := 0
  /-- Pictures that a VID.GRAB copies, by mailbox slot, oldest first, with the buffer that it holds (R24, R267). -/
  grabs : List (Nat × Picture × Option (Nat × Nat)) := []
  deriving DecidableEq, Repr

end Sys2Proof.Machine
end

