-- ==== Sys2Proof/Machine/State.lean ====
section
/-! DEFINITION. The state of the device, why a step can stop, and the state after a cold reset. -/

namespace Sys2Proof.Machine

/-- Everything that statistics and state queries read, and that a tick boundary latches (R104). -/
structure Runtime where
  time : TimeBlk := {}
  clover : Clover := {}
  fault : FaultBlk := {}
  power : Power := {}
  test : TestBlk := {}
  mgmt : Mgmt := {}
  dram : Dram := {}
  mallow : Mallow := {}
  audio : Audio := {}
  sec : Sec := {}
  net : Net := {}
  fwd : Fwd := {}
  video : Video := {}
  recorder : Rec := {}
  dsp : Dsp := {}
  tdm : Tdm := {}
  /-- Host stream ports. -/
  hsp : Map HspPort := []
  /-- Compression contexts. -/
  zip : Map ZipCtx := []
  deriving DecidableEq, Repr

/-- The contexts as JOURNAL last copied them (R154). -/
structure Journal where
  legs : Map Leg := []
  confs : Map ConfRun := []
  vids : Map Vid := []
  outs : Map OutRun := []
  deriving DecidableEq, Repr

/-- A held snapshot (R105). -/
structure Snapshot where
  rt : Runtime
  stats : Map Nat
  /-- The active generation at its boundary. -/
  gen : Generation
  /-- What of the copy no clear has yet taken from the live counters. -/
  left : Runtime
  leftStats : Map Nat
  boundary : Time
  /-- Elapsed instant of its automatic release. -/
  expires : Time
  deriving DecidableEq, Repr

/-- The device. -/
structure State where
  /-- Commands that wait, first in first out. -/
  pending : List Instr := []
  /-- The model's count of free values drawn. -/
  free : Nat := 0
  /-- The model's record of what has left the device, latest first. -/
  wire : List Output := []
  senak : Senak := {}
  gens : Gens := {}
  boot : Boot := {}
  rt : Runtime := {}
  /-- The runtime state as the most recent tick boundary latched it, and that boundary (R104). -/
  latch : Runtime := {}
  latchAt : Time := 0
  /-- SYS.STATS counters at that boundary, which a snapshot copies. -/
  latchStats : Map Nat := []
  snap : Option Snapshot := none
  journal : Journal := {}
  /-- Host memory as the device has written or been shown it. -/
  hostMem : Mem := []
  deriving DecidableEq, Repr

/-- Why the machine stops with a fault: no meaning of this model raises one. -/
inductive Fault where
  /-- Raised by no meaning: every row of the table has an effect in every state (safe). -/
  | none
  deriving DecidableEq, Repr

/-- Why a command has no meaning. -/
inductive Refusal where
  /-- Raised by exec's arm of a command that the model has not reached, by its mnemonic (safe). -/
  | notModelled (mnemonic : String)
  deriving DecidableEq, Repr

/-- The state at the start of a cold reset: PORST_N low, nothing booted (R86, R614). -/
def State.reset : State := {}

end Sys2Proof.Machine
end

