-- ==== Sys2Proof/Machine/Ops.lean ====
section
/-! DEFINITION. The named operations that the meanings share: memory, time, events, MSI-X, and the life of a Senak command. -/

namespace Sys2Proof.Machine

/-! Addressed memory. -/

/-- Whether a memory is in its canonical form: addresses strictly rising, and no byte equal to 0 listed. -/
def Mem.wf : Mem → Bool
  | [] => true
  | [c] => c.2 != 0
  | c :: d :: m => c.2 != 0 && decide (c.1 < d.1) && Mem.wf (d :: m)

/-- The byte at an address; an unlisted address reads 0 (log 12). -/
def memGet (m : Mem) (a : Nat) : Byte := (mget m a).getD 0

/-- The memory with a byte written. -/
def memSet : Mem → Nat → Byte → Mem
  | [], a, v => if v = 0 then [] else [(a, v)]
  | (b, w) :: m, a, v =>
    if a < b then if v = 0 then (b, w) :: m else (a, v) :: (b, w) :: m
    else if a = b then if v = 0 then m else (a, v) :: m
    else (b, w) :: memSet m a v

/-- The n bytes from an address. -/
def memRead (m : Mem) (a : Nat) : Nat → Bytes
  | 0 => []
  | n + 1 => memGet m a :: memRead m (a + 1) n

/-- The memory with a run of bytes written from an address, the lowest first. -/
def memWrite (m : Mem) (a : Nat) : Bytes → Mem
  | [] => m
  | v :: l => memWrite (memSet m a v) (a + 1) l

/-- The memory with n bytes from an address returned to 0. -/
def memClear (m : Mem) (a n : Nat) : Mem := m.filter (fun c => c.1 < a || a + n ≤ c.1)

/-! One part of the state changed. -/

def State.modSenak (f : Senak → Senak) (s : State) : State := { s with senak := f s.senak }
def State.modGens (f : Gens → Gens) (s : State) : State := { s with gens := f s.gens }
def State.modBoot (f : Boot → Boot) (s : State) : State := { s with boot := f s.boot }
def State.modRt (f : Runtime → Runtime) (s : State) : State := { s with rt := f s.rt }
def State.modTime (f : TimeBlk → TimeBlk) (s : State) : State := s.modRt fun r => { r with time := f r.time }
def State.modClover (f : Clover → Clover) (s : State) : State := s.modRt fun r => { r with clover := f r.clover }
def State.modFault (f : FaultBlk → FaultBlk) (s : State) : State := s.modRt fun r => { r with fault := f r.fault }
def State.modPower (f : Power → Power) (s : State) : State := s.modRt fun r => { r with power := f r.power }
def State.modTest (f : TestBlk → TestBlk) (s : State) : State := s.modRt fun r => { r with test := f r.test }
def State.modMgmt (f : Mgmt → Mgmt) (s : State) : State := s.modRt fun r => { r with mgmt := f r.mgmt }
def State.modDram (f : Dram → Dram) (s : State) : State := s.modRt fun r => { r with dram := f r.dram }
def State.modMallow (f : Mallow → Mallow) (s : State) : State := s.modRt fun r => { r with mallow := f r.mallow }
def State.modAudio (f : Audio → Audio) (s : State) : State := s.modRt fun r => { r with audio := f r.audio }
def State.modSec (f : Sec → Sec) (s : State) : State := s.modRt fun r => { r with sec := f r.sec }
def State.modNet (f : Net → Net) (s : State) : State := s.modRt fun r => { r with net := f r.net }
def State.modFwd (f : Fwd → Fwd) (s : State) : State := s.modRt fun r => { r with fwd := f r.fwd }
def State.modVideo (f : Video → Video) (s : State) : State := s.modRt fun r => { r with video := f r.video }
def State.modRec (f : Rec → Rec) (s : State) : State := s.modRt fun r => { r with recorder := f r.recorder }
def State.modDsp (f : Dsp → Dsp) (s : State) : State := s.modRt fun r => { r with dsp := f r.dsp }
def State.modTdm (f : Tdm → Tdm) (s : State) : State := s.modRt fun r => { r with tdm := f r.tdm }
def modHsp (h : Nat) (f : HspPort → HspPort) (s : State) : State := s.modRt fun r => { r with hsp := mmod r.hsp h {} f }
def State.modEvq (f : EvQ → EvQ) (s : State) : State := s.modSenak fun h => { h with evq := f h.evq }
def State.modPcie (f : Pcie → Pcie) (s : State) : State := s.modSenak fun h => { h with pcie := f h.pcie }

/-- The time counter (R522). -/
def State.now (s : State) : Time := s.rt.time.now

/-- Elapsed time, which no step of the counter moves (log 2). -/
def State.up (s : State) : Time := s.rt.time.up

/-- Time passes until the counter reads t; a reading already past leaves both clocks (log 2). -/
def State.advance (t : Time) (s : State) : State :=
  s.modTime fun b => { b with now := Nat.max b.now t, up := b.up + (t - b.now) }

/-- Whether the counter stands at a tick boundary. -/
def State.atBoundary (s : State) : Bool := s.now % tMs == 0

/-- The boundary that is taken next: the present instant, or the first after it. -/
def nextBoundary (s : State) : Time :=
  if s.atBoundary ∧ s.rt.clover.lastBoundary ≠ some s.now then s.now else boundaryAfter s.now

/-- Whether CORE_CLK runs, on which the clusters and Clover stand (R23, R591). -/
def State.coreClock (s : State) : Bool := !mhas s.rt.power.unlocked 0 && !mhas s.rt.power.unlocked 1

/-- The record of what leaves the device, with one more output. -/
def State.emit (o : Output) (s : State) : State := { s with wire := o :: s.wire }

/-- A free value is drawn: its number, and the state with the count advanced (log 3). -/
def State.draw (s : State) : Nat × State := (Config.freeNat s.free, { s with free := s.free + 1 })

/-- The life-cycle state (R49). -/
def State.lifecycle (s : State) : Nat := s.rt.mgmt.lifecycle

/-- The behaviour level in force (R5). -/
def State.level (s : State) : Nat := s.rt.mgmt.level

/-- Whether the device has booted and has not been reset since. -/
def State.booted (s : State) : Bool := s.boot.phase == .running

/-- A pin of the device is driven to a level. -/
def State.setPin (p : Nat) (v : Bool) (s : State) : State :=
  if mgetD s.boot.pins p true = v then s
  else (s.modBoot fun b => { b with pins := mset b.pins p v }).emit (.pin p v)

/-! Domains and blocks (R74, R600). -/

/-- Whether the power domain of a block is ready: powered and not waking. -/
def State.domainReady (s : State) (b : Nat) : Bool :=
  s.rt.power.powered.getLsbD b && !mhas s.rt.power.waking b

/-- A demand on a domain that is off starts its wake; the demand also ends the idle time (R601). -/
def wakeDomain (b : Nat) (s : State) : State :=
  s.modPower fun p =>
    if p.powered.getLsbD b then { p with idleSince := mdel p.idleSince b }
    else { p with powered := p.powered ||| (1#36 <<< b), waking := mset p.waking b s.up, idleSince := mdel p.idleSince b }

/-- Whether a block's health bit of a site is set, or the site is out of service since the last reset (R637). -/
def State.unusable (s : State) (b site : Nat) : Bool :=
  bit (mgetD s.rt.test.health b 0) site || bit (mgetD s.rt.test.out b 0) site

/-- Whether a single-unit block 30, 32 to 34, or the key store, has failed and is held in reset (R639). -/
def State.blockFailed (s : State) (b : Nat) : Bool :=
  if b = 31 then s.unusable 31 255 else s.unusable b 0

/-- Whether a self-test of a block runs (R640). -/
def State.underTest (s : State) (b : Nat) : Bool := s.rt.test.running.any fun e => e.1 / 256 == b

/-- DVFS point that the active generation's set point names. -/
def setPoint (g : Generation) : Nat := u8 g.power 0

/-! MSI-X (R44). -/

/-- The words of the MSI-X table as the host reads them: a vector control word resets to masked. -/
def msixWord (p : Pcie) (i : Nat) : Nat := mgetD p.msixTable i (if i % 4 = 3 then 1 else 0)

/-- Whether a vector is masked. -/
def msixMasked (p : Pcie) (v : Nat) : Bool := bit (msixWord p (4 * v + 3)) 0

/-- Whether the function can send: link up, D0, Bus Master Enable. -/
def Pcie.canSend (p : Pcie) : Bool := p.linkUp && p.d0 && p.bme

/-- A vector falls due: its message is sent, or its pending bit is set (R44). -/
def State.sendVector (v : Nat) (s : State) : State :=
  let p := s.senak.pcie
  if p.canSend && !msixMasked p v then s.emit (.msix v)
  else s.modPcie fun p => { p with pba := p.pba ||| (1#64 <<< v) }

/-- Whether the ring holds entries for the host and the hold-off has passed since the last vector-0 message (R70). -/
def State.ringDue (s : State) : Bool :=
  let q := s.senak.evq
  q.tail != q.head && match q.lastMsg with
    | some l => decide (l + q.holdoff * tUs ≤ s.up)
    | none => true

/-- A held message is sent: its pending bit clears, and vector 0 takes the instant for its hold-off (R44, R70). -/
def State.sendHeld (v : Nat) (s : State) : State :=
  let up := s.up
  let s := s.modPcie fun p => { p with pba := p.pba &&& ~~~(1#64 <<< v) }
  (if v = 0 then s.modEvq fun q => { q with lastMsg := some up } else s).emit (.msix v)

/-- Held messages of unmasked vectors are sent once the function can send; that of the event ring also waits for entries and for its
hold-off (R44, R70; log 160). -/
def State.releaseVectors (s : State) : State :=
  if s.senak.pcie.canSend then
    (List.range 64).foldl (fun s v =>
      if s.senak.pcie.pba.getLsbD v && !msixMasked s.senak.pcie v && (v != 0 || s.ringDue) then s.sendHeld v else s) s
  else s

/-! Events. -/

/-- Whether a code belongs to a group that behaviour level 1 lacks: VID, LAYOUT / OUT, FWD, DSP and ZIP (R662). -/
def absentAtLevel1 (code : Nat) : Bool :=
  let g := code / 256
  g == 7 || g == 8 || g == 9 || g == 12 || (g == 11 && code % 128 ≥ 64)

/-- Whether the mask lets an event into the ring (R80). -/
def maskAllows (mask : Bytes) (e : Event) : Bool :=
  e.code == 0x0180 || e.code == 0x0182 || e.sev ≥ 4 || u8 mask (e.code / 256) ≤ e.sev

/-- An entry of the event log; the oldest of 4,096 is overwritten (R651). -/
def Mgmt.logEvent (e : Event) (up : Time) (m : Mgmt) : Mgmt :=
  let log := mset m.log m.logNext { event := e, at_ := up }
  { m with log := if log.length > 4096 then log.drop 1 else log, logNext := m.logNext + 1 }

/-- An event waits in the backlog, or is discarded and counted (R68). -/
def Senak.queueEvent (e : Event) (h : Senak) : Senak :=
  if h.evq.marker = 0 ∧ h.evq.backlog.length < 255 then
    { h with evq := { h.evq with backlog := h.evq.backlog ++ [e] } }
  else
    { h with
      evq := { h.evq with lost := satAdd 65535 h.evq.lost 1, marker := h.evq.marker + 1 }
      devFault := h.devFault ||| 2#6
      stats := bump h.stats 0x18 }

/-- An event of a given time is raised: it enters the log by its severity and the backlog by the mask, in one step (R68, R80, R651,
R662). -/
def State.raiseAt (t : Time) (e : Event) (s : State) : State :=
  let e := { e with time := t }
  if s.level = 1 ∧ absentAtLevel1 e.code then s
  else
    let s := if s.rt.mgmt.threshold ≤ e.sev then s.modMgmt (Mgmt.logEvent e s.up) else s
    if maskAllows s.senak.mask e then s.modSenak (Senak.queueEvent e) else s

/-- An event of the present instant is raised. -/
def State.raise (e : Event) (s : State) : State := s.raiseAt s.now e

/-- An event by code, severity, object and detail. -/
def State.post (code sev obj detail : Nat) (s : State) : State :=
  s.raise { code := code, sev := sev, obj := obj, detail := detail }

/-- An event raised where a condition holds. -/
def State.postIf (c : Bool) (code sev obj detail : Nat) (s : State) : State :=
  if c then s.post code sev obj detail else s

/-! Statuses and checks (R62). -/

/-- The statuses, in the order in which the earliest check wins. -/
inductive Status where
  | ok | pending | unknownCommand | badLength | badParam | deniedLifecycle | authFailed | genNotOpen | wrongState
  | objectInUse | keyAbsent | noResource | capacityExceeded | internalFault
  deriving DecidableEq, Repr

/-- The code of a status. -/
def Status.code : Status → Nat
  | .ok => 0x0000
  | .pending => 0x0001
  | .unknownCommand => 0x0100
  | .badLength => 0x0101
  | .badParam => 0x0102
  | .deniedLifecycle => 0x0400
  | .authFailed => 0x0401
  | .genNotOpen => 0x0301
  | .wrongState => 0x0300
  | .objectInUse => 0x0302
  | .keyAbsent => 0x0402
  | .noResource => 0x0200
  | .capacityExceeded => 0x0201
  | .internalFault => 0x0500

/-- The place of a status in the order of R62. -/
def Status.rank : Status → Nat
  | .ok => 0 | .pending => 1 | .unknownCommand => 2 | .badLength => 3 | .badParam => 4 | .deniedLifecycle => 5
  | .authFailed => 6 | .genNotOpen => 7 | .wrongState => 8 | .objectInUse => 9 | .keyAbsent => 10
  | .noResource => 11 | .capacityExceeded => 12 | .internalFault => 13

/-- A check that has failed: its status and detail. -/
abbrev Fail := Status × Nat

/-- The check that a command reports: the earliest in the order of R62, and for BAD_PARAM the lowest slot offset. -/
def worstFail (l : List Fail) : Option Fail :=
  leastBy (fun f => f.1.rank * 65536 + if f.1 = .badParam then f.2 else 0) l

/-- A failed check where a condition holds. -/
def failIf (c : Bool) (st : Status) (detail : Nat := 0) : List Fail := if c then [(st, detail)] else []

/-- BAD_PARAM naming the parameter at an offset, where a condition holds (R62). -/
def badIf (c : Bool) (off : Nat) : List Fail := failIf c .badParam (0x20 + off)

/-- A field of a parameter block: offset, size, and which unsigned values it allows. -/
abbrev Fld := Nat × Nat × (Nat → Bool)

/-- A field in a range. -/
def rng (o n lo hi : Nat) : Fld := (o, n, fun v => lo ≤ v && v ≤ hi)
/-- A signed field in a range. -/
def srng (o n : Nat) (lo hi : Int) : Fld := (o, n, fun v => lo ≤ signed (8 * n) v && signed (8 * n) v ≤ hi)
/-- A reserved field (R10). -/
def rsv (o n : Nat) : Fld := (o, n, fun v => v == 0)
/-- A field whose bits outside a mask are reserved. -/
def msk (o n m : Nat) : Fld := (o, n, fun v => v &&& m == v)
/-- A field with listed values. -/
def oneOf (o n : Nat) (l : List Nat) : Fld := (o, n, fun v => l.contains v)
/-- The three parts of an R12 time that have a range (R12, R13). -/
def timeFlds (o : Nat) : List Fld := [rng (o + 8) 4 0 999999999, rsv (o + 14) 2]

/-- The failures of a block against its fields. -/
def fldFails (b : Bytes) (t : List Fld) : List Fail :=
  t.filterMap fun f => if f.2.2 (uN b f.1 f.2.1) then none else some (.badParam, 0x20 + f.1)

/-! The life of a Senak command. -/

/-- How a command meets the generation model (R59, R89). -/
inductive GenMode where
  | outside | modify | read
  deriving DecidableEq, Repr

/-- What a command answers. -/
structure Reply where
  status : Status := .ok
  detail : Nat := 0
  /-- Generation reported, where it is not the one the header names. -/
  gen : Option Nat := none
  data : Bytes := []
  st : State

/-- A command: its code, the length it requires where the given one is wrong, its place in the generation model, whether
safe boot allows it (R107), the block it depends on (R639), its own checks, and its effect. -/
structure Cmd where
  code : Nat
  len : Bytes → Nat → Option Nat
  gmode : GenMode := .outside
  safe : Bool := false
  block : Option Nat := none
  fails : Request → Generation → State → List Fail := fun _ _ _ => []
  run : Request → Generation → State → Reply

/-- One allowed length. -/
def len1 (n : Nat) : Bytes → Nat → Option Nat := fun _ l => if l = n then none else some n

/-- A range of allowed lengths. -/
def lenIn (lo hi : Nat) : Bytes → Nat → Option Nat :=
  fun _ l => if l < lo then some lo else if hi < l then some hi else none

/-- A completed command with OK. -/
def okWith (s : State) (data : Bytes := []) : Reply := { data := data, st := s }

/-- The failing answer of a command that changes nothing. -/
def failWith (s : State) (f : Fail) : Reply := { status := f.1, detail := f.2, st := s }

/-- The generation that a header names, where it names one (R59, R89). -/
def State.findGen (s : State) (n : Nat) : Option Generation :=
  let g := s.gens
  if n = 0 then some g.staged
  else if n = g.active.number then some g.active
  else match g.previous, g.armed with
    | some p, some a => if n = p.number then some p else if n = a.gen.number then some a.gen else none
    | some p, none => if n = p.number then some p else none
    | none, some a => if n = a.gen.number then some a.gen else none
    | none, none => none

/-- The generation checks of R59 and R89, and the generation a command acts on. -/
def genCheck (m : GenMode) (n : Nat) (s : State) : List Fail × Generation :=
  match m with
  | .outside => (failIf (n != 0) .badParam 8, s.gens.staged)
  | .modify => (failIf (n != 0 && n != s.gens.staged.number) .genNotOpen, s.gens.staged)
  | .read => match s.findGen n with
    | some g => ([], g)
    | none => ([(.badParam, 8)], s.gens.staged)

/-- The checks of a command's header (R52, R62). -/
def headerFails (r : Request) : List Fail :=
  failIf (r.rsv0 != 0) .badParam 0 ++ failIf (r.flags &&& 0xFE != 0) .badParam 1 ++
  failIf (!allZero r.rsv) .badParam 0x10

/-- Every check of a command, in no order (R62). -/
def Cmd.allFails (c : Cmd) (r : Request) (s : State) : List Fail :=
  failIf (s.level == 1 && absentAtLevel1 c.code) .unknownCommand ++
  (if r.len.toNat > 992 then [(.badLength, 992)]
    else match c.len r.params r.len.toNat with
      | some n => [(.badLength, n)]
      | none => []) ++
  headerFails r ++ (genCheck c.gmode r.gen.toNat s).1 ++
  failIf (s.senak.safeBoot && !c.safe) .wrongState 8 ++
  (match c.block with
    | some b => failIf (s.blockFailed b) .wrongState 0xB
    | none => []) ++
  c.fails r (genCheck c.gmode r.gen.toNat s).2 s

/-- The SYS.CMD_DONE event of a command (R60, R82). -/
def State.cmdDone (slot hostSeq : Nat) (st : Status) (detail : Nat) (s : State) : State :=
  s.raise { code := 0x0180, sev := 0, obj := slot, hostSeq := hostSeq, detail := st.code * 65536 + detail }

/-- A count of completed commands that failed (R81). -/
def State.countFailed (st : Status) (s : State) : State :=
  if st = .ok ∨ st = .pending then s else s.modSenak fun h => { h with stats := bump h.stats 0x08 }

/-- The response is written, BUSY clears and DONE sets, vector 1 follows, and SYS.CMD_DONE where EVENT asks (R53, R57). -/
def finishCmd (r : Request) (seq gen : Nat) (rep : Reply) : State :=
  let s := rep.st
  let a := r.slot.val * 1024
  let m := memWrite s.senak.slots (a + 0x20) rep.data
  let m := memWrite m a (le 2 rep.detail ++ le 2 rep.status.code ++ le 4 r.hostSeq.toNat ++ le 4 gen ++
    le 4 rep.data.length ++ le 4 seq ++ zeros 12)
  let b := 1#64 <<< r.slot.val
  let s := s.modSenak fun h => { h with slots := m, busy := h.busy &&& ~~~b, done := h.done ||| b }
  let s := s.countFailed rep.status
  let s := if s.senak.irq.getLsbD r.slot.val then s.sendVector 1 else s
  if r.flags.getLsbD 0 && rep.status != .pending then s.cmdDone r.slot.val r.hostSeq.toNat rep.status rep.detail else s

/-- A command is taken: time has passed, it is counted, and the next one gets the next sequence number (R53, R81). -/
def startCmd (r : Request) (s : State) : State :=
  (s.advance r.at_).modSenak fun h =>
    { h with nextSeq := if h.nextSeq = 4294967295 then 1 else h.nextSeq + 1, stats := bump h.stats 0x00 }

/-- The check that a command fails, once it is taken (R62). -/
def Cmd.verdict (c : Cmd) (r : Request) (s : State) : Option Fail := worstFail (c.allFails r (startCmd r s))

/-- Whether a command is taken and all its checks pass. -/
def Cmd.passes (c : Cmd) (r : Request) (s : State) : Bool := s.senak.ready && s.senak.preparing.isNone && (c.verdict r s).isNone

/-- The generation a command acts on (R59, R89). -/
def Cmd.genOf (c : Cmd) (r : Request) (s : State) : Generation := (genCheck c.gmode r.gen.toNat s).2

/-- The demand of a command on the block it depends on (R601). -/
def Cmd.demand (c : Cmd) (s : State) : State :=
  match c.block with
  | some b => wakeDomain b s
  | none => s

/-- What a command that passes its checks does and answers. -/
def Cmd.effect (c : Cmd) (r : Request) (s : State) : Reply := c.run r (c.genOf r s) (c.demand s)

/-- The generation that a command which did not fail reports (R59). -/
def Cmd.genField (c : Cmd) (r : Request) (s : State) : Nat :=
  (c.effect r s).gen.getD (if c.gmode = .outside then 0 else (c.genOf r s).number)

/-- A command that passes its checks takes effect; PENDING needs room for one more pending command (R60). -/
def applyCmd (c : Cmd) (r : Request) (seq : Nat) (s : State) : State :=
  let rep := c.effect r s
  if rep.status = .ok then finishCmd r seq (c.genField r s) rep
  else if rep.status = .pending then
    if s.senak.pending.length < 16 then finishCmd r seq (c.genField r s) rep
    else finishCmd r seq r.gen.toNat (failWith s (.noResource, 0))
  else finishCmd r seq r.gen.toNat rep

/-- A command executes and completes, once DEV_STATUS.READY is 1 and no commit is in preparation (R56, R62, R90). -/
def runCmd (c : Cmd) (r : Request) (s : State) : State :=
  if s.senak.ready && s.senak.preparing.isNone then
    match c.verdict r s with
    | some f => finishCmd r s.senak.nextSeq r.gen.toNat (failWith (startCmd r s) f)
    | none => applyCmd c r s.senak.nextSeq (startCmd r s)
  else s

/-- A command that answers PENDING joins the pending commands (R60). -/
def State.addPending (code obj : Nat) (r : Request) (s : State) : State :=
  s.modSenak fun h => { h with
    pending := h.pending ++ [{ code := code, obj := obj, slot := r.slot.val, hostSeq := r.hostSeq.toNat, params := r.params }] }

/-- The oldest pending command of a code and object. -/
def State.findPending (code obj : Nat) (s : State) : Option PendingCmd :=
  s.senak.pending.find? fun p => p.code == code && p.obj == obj

/-- A pending command takes its final status, which SYS.CMD_DONE reports (R60). -/
def State.endPending (p : PendingCmd) (st : Status) (detail : Nat) (s : State) : State :=
  let s := s.modSenak fun h => { h with pending := h.pending.erase p }
  (s.countFailed st).cmdDone p.slot p.hostSeq st detail

/-- A change of the staged generation, counted (R106). -/
def State.stage (f : Generation → Generation) (s : State) : State :=
  s.modGens fun g => { g with staged := { f g.staged with number := g.staged.number, changes := satAdd 4294967295 g.staged.changes 1 } }

/-- The runtime state that a query reports: the snapshot where one is held, otherwise the last latch (R104, R105). -/
def State.seen (s : State) : Runtime :=
  match s.snap with
  | some n => n.rt
  | none => s.latch

/-- The boundary of the values that a query reports. -/
def State.seenAt (s : State) : Time :=
  match s.snap with
  | some n => n.boundary
  | none => s.latchAt

/-- The SYS.STATS counters that a query reports (R81, R104, R105). -/
def State.seenStats (s : State) : Map Nat :=
  match s.snap with
  | some n => n.stats
  | none => s.latchStats

/-- The active generation that a query reports its load from: that of the snapshot, otherwise the one in force, which changes only at
boundaries (R104, R105). -/
def State.seenGen (s : State) : Generation :=
  match s.snap with
  | some n => n.gen
  | none => s.gens.active

/-- Counters are cleared of what the reader saw: f takes the counters of a copy from those of a runtime state. What is taken comes off
the live counters, so that counts after the copy are kept, and once only; the copy that a snapshot reports stays (R105). -/
def State.clearSeen (f : Runtime → Runtime → Runtime) (s : State) : State :=
  match s.snap with
  | some n => { s with rt := f n.left s.rt, latch := f n.left s.latch, snap := some { n with left := f n.left n.left } }
  | none => { s with rt := f s.latch s.rt, latch := f s.latch s.latch }

/-- A change of the flash configuration goes to the older copy, with a count one above the newer's (R647); a recovered Uzogan
keeps it in memory (R657). -/
def State.writeFlash (f : FlashConfig → FlashConfig) (s : State) : State :=
  s.modMgmt fun m =>
    let count := fun i => ((mget m.copies i).map (·.1)).getD 0
    let older := if count 0 ≤ count 1 then 0 else 1
    if m.flashHeld then { m with config := f m.config }
    else { m with config := f m.config, copies := mset m.copies older (Nat.max (count 0) (count 1) + 1, f m.config) }

/-! Received packets. -/

/-- The oldest received packet of an object, taken from its inbox (R505). -/
def popInbox (key : Nat) (s : State) : Option (Time × Frame) × State :=
  match mgetD s.rt.net.inbox key [] with
  | [] => (none, s)
  | f :: l => (some f, s.modNet fun n => { n with inbox := if l.isEmpty then mdel n.inbox key else mset n.inbox key l })

/-- A packet waits for an object. -/
def pushInbox (key : Nat) (arrived : Time) (f : Frame) (s : State) : State :=
  s.modNet fun n => { n with inbox := mmod n.inbox key [] (· ++ [(arrived, f)]) }

/-- A row of the command group: the command executes. -/
def execCmd (c : Cmd) (r : Request) (s : State) : Host.Outcome State Fault Refusal := .next (runCmd c r s)

/-- A row that always has an effect in a given state. -/
def done (s : State) : Host.Outcome State Fault Refusal := .next s

end Sys2Proof.Machine
end

