-- ==== Sys2Proof/Machine/Cap.lean ====
section
/-! DEFINITION. Capacities and limits (R7, R28 to R36, R147) and the layout of DRAM (R581). -/

namespace Sys2Proof.Machine

/-! Clusters and engines in service. -/

/-- A cluster of the live state. -/
def FaultBlk.cluster (f : FaultBlk) (c : Nat) : Cluster := mgetD f.clusters c {}

/-- Active cores of a cluster: sites at positions 0 to 7. -/
def Cluster.active (c : Cluster) : Nat := (c.pos.filter fun p => p.1 < 8).length

/-- The site held at position 8, the spare. -/
def Cluster.spare (c : Cluster) : Option Nat := mget c.pos 8

/-- Cores in service of the device (R77). -/
def coresInService (f : FaultBlk) : Nat := sum (f.clusters.map fun c => c.2.active)

/-- Spare cores held: spares not yet substituted nor claimed. -/
def sparesHeld (f : FaultBlk) : Nat := (f.clusters.filter fun c => c.2.spare.isSome && c.2.claim.isNone).length

/-- Whether an engine is held in reserve. -/
def State.spareHeld (s : State) (b : Nat) : Bool := s.rt.fault.spares.contains b

/-- The active Campion engines, by the block number of their place (R23). -/
def FaultBlk.campions (f : FaultBlk) : List Nat := (mkeys f.places).filter (· < 24)

/-- The active Mallow engines. -/
def FaultBlk.mallows (f : FaultBlk) : List Nat := (mkeys f.places).filter (24 < ·)

/-- The place that a physical engine serves. -/
def FaultBlk.placeOf (f : FaultBlk) (e : Nat) : Option Nat := (f.places.find? fun p => p.2 == e).map (·.1)

/-! Audio limits, in 0.1 core-µs per tick. -/

/-- The limit per active core at a DVFS point (R32, R147). -/
def coreLimit (point : Nat) : Nat :=
  match point with
  | 0 => 8500
  | 1 => 6800
  | 2 => 5100
  | _ => 3400

/-- CORE_CLK in MHz at a DVFS point (R593). -/
def coreMHz (point : Nat) : Nat :=
  match point with
  | 0 => 1500
  | 1 => 1200
  | 2 => 900
  | _ => 600

/-- VDD_CORE in mV at a DVFS point (R593). -/
def coreMv (point : Nat) : Nat :=
  match point with
  | 0 => 800
  | 1 => 720
  | 2 => 660
  | _ => 620

/-- The partition number of a cluster in a user partition, given in the low byte map of DSP.PARTITION blocks (R438). -/
def partitionOf (g : Generation) (c : Nat) : Option Nat :=
  (g.partitions.find? fun p => bit (u16 p.2 2) c).map (·.1)

/-- A cluster's limit in force (R32, R147). -/
def clusterLimit (f : FaultBlk) (point c : Nat) : Nat := (f.cluster c).active * coreLimit point

/-- The device's audio limit for a generation: every cluster outside user partitions with its cores in service, 85 % of each
(R29, R31, R147). -/
def deviceLimit (f : FaultBlk) (g : Generation) (point : Nat) : Nat :=
  sum ((List.range 16).map fun c => if (partitionOf g c).isSome then 0 else clusterLimit f point c)

/-! The layout of DRAM (R581), in bytes: 0 HWIN, 1 JOURNAL, 2 SPILL, 3 PKT, 4 VREF, 5 CSURF, 6 REC. -/

/-- One GiB. -/
def gib : Nat := 2 ^ 30

/-- The size of a region below REC. -/
def regionSize (d : Dram) (i : Nat) : Nat :=
  match i with
  | 0 => mgetD d.sizes 0 4 * gib
  | 1 => 3 * gib / 2
  | 2 => gib / 2
  | 3 => mgetD d.sizes 3 4 * gib
  | 4 => mgetD d.sizes 4 12 * gib
  | 5 => mgetD d.sizes 5 2 * gib
  | _ => d.fitted - sum ((List.range 6).map fun j =>
      match j with
      | 0 => mgetD d.sizes 0 4 * gib
      | 1 => 3 * gib / 2
      | 2 => gib / 2
      | 3 => mgetD d.sizes 3 4 * gib
      | 4 => mgetD d.sizes 4 12 * gib
      | _ => mgetD d.sizes 5 2 * gib)

/-- The start of a region. -/
def regionBase (d : Dram) (i : Nat) : Nat := sum ((List.range i).map (regionSize d))

/-- Bytes of the HWIN region in force. -/
def hwinSize (d : Dram) : Nat := regionSize d 0

/-- Whether n bytes at an offset lie within HWIN. -/
def inHwin (d : Dram) (off n : Nat) : Bool := off + n ≤ hwinSize d && d.fitted != 0

end Sys2Proof.Machine
end

