-- ==== Sys2Proof/Machine/Ecc.lean ====
section
/-! DEFINITION. Where a line of DRAM lies, and what its error correction finds (R568, R569, R575, R577, R588 to R590). -/

namespace Sys2Proof.Machine

/-! Address mapping (R568, R569). -/

/-- Default masks in the order of R569, and the base bit of each. -/
def defaultMasks : List Nat :=
  [0x40402040, 0x80804080, 0x101008100, 0x202010200, 0x404020400, 0x808040800, 0x1010081000, 0x2020100000, 0x4000200000]
def maskBits : List Nat := [6, 7, 8, 9, 17, 18, 19, 20, 21]

/-- A mask in force. -/
def Dram.mask (d : Dram) (i : Nat) : Nat := mgetD d.masks i (defaultMasks.getD i 0)

/-- The even parity of an address under a mask. -/
def maskParity (a mask : Nat) : Nat := ((List.range 41).filter fun i => bit a i && bit mask i).length % 2

/-- A hashed bit of an address. -/
def Dram.hash (d : Dram) (a i : Nat) : Nat := maskParity a (d.mask i)

/-- Rank bits: 0, 1 or 2. -/
def Dram.rankBits (d : Dram) : Nat := b2n (d.population.getLsbD 0) + b2n (d.population.getLsbD 1)

/-- The controller of an address: 2 × channel + subchannel. -/
def Dram.ctlOf (d : Dram) (a : Nat) : Nat := 2 * (d.hash a 1 + 2 * d.hash a 2 + 4 * d.hash a 3) + d.hash a 0

/-- The rank of an address within its channel. -/
def Dram.rankOf (d : Dram) (a : Nat) : Nat := a / 2 ^ 22 % 2 ^ d.rankBits

/-- The bank of an address: rank × 32 + bank group × 4 + bank. -/
def Dram.bankOf (d : Dram) (a : Nat) : Nat :=
  d.rankOf a * 32 + (d.hash a 4 + 2 * d.hash a 5 + 4 * d.hash a 6) * 4 + d.hash a 7 + 2 * d.hash a 8

/-- The row of an address. -/
def Dram.rowOf (d : Dram) (a : Nat) : Nat := a % d.fitted / 2 ^ (22 + d.rankBits)

/-- A rank as the events encode it (R590). -/
def Dram.rankCode (d : Dram) (a : Nat) : Nat := 4 * d.ctlOf a + d.rankOf a

/-! Errors (R575, R577). -/

/-- A correction is counted by its device, and reported as the count of the last hour reaches the threshold (R575, R590). -/
def correctError (a dev : Nat) (s : State) : State :=
  let d := s.rt.dram
  let up := s.up
  let k := d.rankCode a * 16 + dev
  let l := up :: (mgetD d.recent k []).filter fun t => up < t + 3600 * tS
  let reached := decide (Config.ceThreshold ≤ l.length)
  let before := d.atThreshold.contains k && decide (Config.ceThreshold < l.length)
  let s := s.modDram fun d => { d with
    corrected := d.corrected + 1, recent := mset d.recent k l, corrupt := mdel d.corrupt (a / 64)
    atThreshold := if reached then if d.atThreshold.contains k then d.atThreshold else k :: d.atThreshold else d.atThreshold.erase k }
  s.postIf (reached && !before) 0x1180 2 (d.rankCode a) (dev * 2 ^ 24 + l.length)

/-- An uncorrectable error is counted, logged and reported (R577, R588, R590). -/
def logError (a : Nat) (s : State) : State :=
  let d := s.rt.dram
  let n := d.logNumber + 1
  let e : ErrEntry := { address := a, second := s.now / tS % 2 ^ 32, rank := d.rankCode a, device := 0xFF, number := n }
  (s.modDram fun d => { d with uncorrectable := d.uncorrectable + 1, logNumber := n, log := (e :: d.log).take 16 }).post 0x1181 3 e.rank n

/-- What a read of a line meets: what stands in it, injected or met before, or what the operand says (R575, R577, R589). -/
def lineError (d : Dram) (line : Nat) (e : LineErr) : LineErr :=
  match mget d.corrupt line with
  | some (0, dev) => .device (Fin.ofNat 10 dev)
  | some _ => .several
  | none => e

/-- A read of a line takes its error; true where it is uncorrectable. Such an error stands until the line is written (R577). -/
def meetError (line : Nat) (e : LineErr) (s : State) : Bool × State :=
  match lineError s.rt.dram line e with
  | .good => (false, s)
  | .device d => (false, correctError (64 * line) d.val s)
  | .several =>
    (true, logError (64 * line) (if mhas s.rt.dram.corrupt line then s else s.modDram fun d => { d with corrupt := mset d.corrupt line (1, 0xFF) }))

/-- Whether a line lies in a range of bytes, in part or whole. -/
def lineIn (a n line : Nat) : Bool := decide (0 < n) && decide (a / 64 ≤ line) && decide (64 * line < a + n)

/-- Bytes are written from a device address: a line takes new check bytes, corrupt where an injection waits for its next write (R577, R589).
DEDUCED: a write of part of a line is a write of it. -/
def Dram.write (a : Nat) (b : Bytes) (d : Dram) : Dram :=
  let hit := lineIn a b.length
  { d with
    mem := memWrite d.mem a b, inject := mkeep d.inject fun l _ => !hit l
    corrupt := (d.inject.filter fun e => hit e.1).foldl (fun m e => mset m e.1 e.2) (mkeep d.corrupt fun l _ => !hit l) }

def State.dramWrite (a : Nat) (b : Bytes) (s : State) : State := s.modDram (Dram.write a b)

/-- Bytes are read from a device address: the errors that stand in their lines are corrected or logged; true where one is uncorrectable. -/
def readErrors (a n : Nat) (s : State) : Bool × State :=
  (s.rt.dram.corrupt.filter fun e => lineIn a n e.1).foldl (fun (r : Bool × State) e =>
    let m := meetError e.1 .good r.2
    (r.1 || m.1, m.2)) (false, s)

end Sys2Proof.Machine
end

