-- ==== Sys2Proof/Machine/Admit.lean ====
section
/-! DEFINITION. Charges, placement and admission of a generation (R28 to R36, R91, R92, R229, R234, R287). -/

namespace Sys2Proof.Machine

/-! Charges in 0.1 core-µs per tick (R28). -/

/-- The cost of a codec (R28, R162). -/
def codecCost (c : Nat) : Nat :=
  if c = 2 then 40 else if c = 3 ∨ c = 4 then 80 else if c = 5 ∨ c = 6 then 100 else if c = 7 then 140 else 15

/-- A leg's full cost: codec, canceller, noise suppression or AGC, detectors (R28, R30). -/
def legCost (b : Bytes) : Nat :=
  codecCost (u8 b 3) + (if bit (u8 b 5) 0 then 60 else 0) + (if bit (u8 b 5) 1 || bit (u8 b 5) 2 then 30 else 0) +
    if u8 b 0x1C != 0 || u8 b 0x1D != 0 then 8 else 0

/-- Routes whose destination is a leg. -/
def routesTo (g : Generation) (leg : Nat) : Map Bytes := mkeep g.routes fun k _ => k / 65536 == leg

/-- A leg's charge: its cost with its routes (R92). -/
def legCharge (g : Generation) (leg : Nat) (b : Bytes) : Nat := legCost b + 3 * (routesTo g leg).length

/-- Members of a conference, as leg and CONF.MEMBER block. -/
def membersOf (g : Generation) (conf : Nat) : List (Nat × Bytes) :=
  (g.members.filter fun e => e.1 / 8192 == conf).map fun e => (e.1 % 8192, e.2)

/-- Conferences of a leg, ascending. -/
def confsOf (g : Generation) (leg : Nat) : List Nat :=
  (g.members.filter fun e => e.1 % 8192 == leg).map fun e => e.1 / 8192

/-- A conference home's charge (R92). -/
def confCharge (g : Generation) (conf : Nat) : Nat := 3 * (membersOf g conf).length

/-- The device's audio sum (R29). -/
def audioSum (g : Generation) : Nat :=
  sum (g.legs.map fun e => legCharge g e.1 e.2) + sum (g.confs.map fun e => confCharge g e.1)

/-- The charge placed on a cluster (R29). -/
def clusterCharge (g : Generation) (c : Nat) : Nat :=
  sum (g.legs.map fun e => if mget g.legAt e.1 = some c then legCharge g e.1 e.2 else 0) +
  sum (g.confs.map fun e => if mget g.confAt e.1 = some c then confCharge g e.1 else 0)

/-! Pixel rates in kpixel/s and picture buffers (R34, R229, R234, R287). -/

/-- The share of the top layer's samples that all spatial layers together hold, as numerator and denominator (R34). -/
def layerShare (layers ratio : Nat) : Nat × Nat :=
  if layers ≤ 1 then (1, 1)
  else if layers = 2 then if ratio = 0 then (5, 4) else (13, 9)
  else if ratio = 0 then (21, 16) else (133, 81)

/-- A stream's charge (R229). -/
def vidCharge (b : Bytes) : Nat :=
  let p := layerShare (u8 b 0x0D) (u8 b 0x0F)
  ceilDiv (u16 b 4 * u16 b 6 * u16 b 8 * p.1) (p.2 * 1000000)

/-- Bytes of one picture buffer (R234). -/
def pictureBytes (w h depth : Nat) : Nat :=
  let u := ceilTo 64 w * ceilTo 64 h * (if depth = 10 then 4 else 3)
  ceilTo 4096 (ceilDiv (u * 103) 200)

/-- Width or height of the spatial layer i below the top one (R231). -/
def layerDim (d ratio i : Nat) : Nat := if ratio = 0 then ceilDiv d (2 ^ i) else ceilDiv (d * 2 ^ i) (3 ^ i)

/-- VREF bytes of a stream (R234). -/
def vidBytes (b : Bytes) : Nat :=
  let w := u16 b 4; let h := u16 b 6; let d := u8 b 0x0A; let refs := u8 b 0x0C
  if u8 b 2 = 0 then (refs + 2 + ceilDiv (u16 b 0x22 * u16 b 8) 1000000) * pictureBytes w h d
  else (refs + 1) * sum ((List.range (u8 b 0x0D)).map fun i =>
    pictureBytes (layerDim w (u8 b 0x0F) i) (layerDim h (u8 b 0x0F) i) d)

/-- The canvas of an output: width and height of its layout. -/
def canvasOf (g : Generation) (out : Bytes) : Nat × Nat :=
  let l := mgetD g.layouts (u16 out 2) []
  (u16 l 2, u16 l 4)

/-- An output's charge (R287). -/
def outCharge (g : Generation) (b : Bytes) : Nat :=
  ceilDiv ((canvasOf g b).1 * (canvasOf g b).2 * u16 b 4) 1000000

/-- VREF bytes of an output: four buffers (R272). -/
def outBytes (g : Generation) (b : Bytes) : Nat :=
  4 * pictureBytes (canvasOf g b).1 (canvasOf g b).2 (u8 b 1)

/-- The layers of a layout in the order of composition: layer 0, then by z and number (R273), enabled ones only. -/
def layerOrder (g : Generation) (layout : Nat) : List (Nat × Bytes) :=
  let ls := (List.range 8).filterMap fun i => (mget g.layers (layout * 8 + i)).map fun b => (i, b)
  let on := ls.filter fun l => u8 l.2 3 == 1
  on.filter (fun l => l.1 == 0) ++
    (List.range 8).flatMap fun z => on.filter fun l => l.1 != 0 && u8 l.2 0x0C == z

/-- The static run of a layout: from an enabled static layer 0 up to the first layer that is not static (R283). -/
def staticRun (g : Generation) (layout : Nat) : List (Nat × Bytes) :=
  match layerOrder g layout with
  | (0, b) :: l => if bit (u8 b 0x0D) 0 then (0, b) :: l.takeWhile (fun x => bit (u8 x.2 0x0D) 0) else []
  | _ => []

/-- CSURF bytes of a layout's two cache surfaces (R284). -/
def surfaceBytes (g : Generation) (layout : Nat) (b : Bytes) : Nat :=
  if (staticRun g layout).isEmpty then 0 else 2 * ceilTo 4096 (ceilTo 64 (u16 b 2) * ceilTo 64 (u16 b 4) * 6)

/-- CSURF bytes of an image slot: what it holds, or what a load in progress brings (R291). -/
def ImgSlot.space (i : ImgSlot) : Nat :=
  Nat.max (ceilTo 4096 i.data.length) (match i.loading with
    | some l => ceilTo 4096 l.2.length
    | none => 0)

/-- CSURF bytes of the image slots (R291). -/
def imageBytes (m : Mallow) : Nat := sum (m.images.map fun e => e.2.space)

/-- VREF bytes of a generation (R235, R272). -/
def vrefBytes (g : Generation) : Nat := sum (g.vids.map fun e => vidBytes e.2) + sum (g.outs.map fun e => outBytes g e.2)

/-- CSURF bytes of a generation (R284). -/
def csurfBytes (g : Generation) (m : Mallow) : Nat := sum (g.layouts.map fun e => surfaceBytes g e.1 e.2) + imageBytes m

/-! Placement (R92). -/

/-- An admission failure: limit code, object, demand and limit (R95). -/
structure CapFail where
  code : Nat
  obj : Nat
  demand : Nat
  limit : Nat
  deriving DecidableEq, Repr

/-- Cores of a cluster that will be in force: active ones and a position that the spare has claimed (R91, R142). -/
def Cluster.coming (c : Cluster) : Nat := c.active + b2n c.claim.isSome

/-- A cluster's limit at the boundary. -/
def comingLimit (s : State) (point c : Nat) : Nat := (s.rt.fault.cluster c).coming * coreLimit point

/-- Whether a block takes no new object: quiesced, reset, under test or failed (R639, R640). -/
def State.closed (s : State) (b : Nat) : Bool :=
  s.blockFailed b || s.senak.stopped.contains b || mhas s.senak.quiesce b || s.underTest b

/-- Engine places that can take new work (R640). -/
def openPlaces (s : State) (l : List Nat) : List Nat := l.filter fun p => !s.closed (mgetD s.rt.fault.places p p)

/-- Clusters that can take new work (R92). -/
def eligible (s : State) (g : Generation) : List Nat :=
  (List.range 16).filter fun c =>
    (partitionOf g c).isNone && decide (0 < (s.rt.fault.cluster c).coming) && !s.senak.stopped.contains c &&
      !mhas s.senak.quiesce c && !s.underTest c

/-- A block that a leg's path needs takes no new object (R639, R640). -/
def legPathFailed (s : State) (b : Bytes) : Bool :=
  match u8 b 2 with
  | 0 => s.closed 30 || s.closed 34 || ((u32 b 0x50 != 0xFFFFFFFF || u32 b 0x54 != 0xFFFFFFFF) && s.closed 31)
  | 1 => s.closed 33
  | _ => false

/-- The cluster with the most room, the lowest number on a tie, for a charge (R92). -/
def roomiest (s : State) (g : Generation) (point : Nat) : Option Nat :=
  leastBy (fun c => 1000000 + clusterCharge g c - comingLimit s point c) (eligible s g)

/-- A new object of a charge is given a cluster, or the commit fails with code 2 (R92). -/
def placeOn (s : State) (g : Generation) (point charge : Nat) (failed : Bool) (put : Nat → Generation) : Except CapFail Generation :=
  match if failed then none else roomiest s g point with
  | none => .error ⟨2, 0xFFFFFFFF, charge, 0⟩
  | some c =>
    let d := clusterCharge g c + charge
    if d ≤ comingLimit s point c then .ok (put c) else .error ⟨2, c, d, comingLimit s point c⟩

/-- New legs are placed in ascending number (R92). -/
def placeLegs (s : State) (point : Nat) : List (Nat × Bytes) → Generation → Except CapFail Generation
  | [], g => .ok g
  | (n, b) :: l, g =>
    if mhas g.legAt n then placeLegs s point l g
    else match placeOn s g point (legCharge g n b) (legPathFailed s b) (fun c => { g with legAt := mset g.legAt n c }) with
      | .ok g => placeLegs s point l g
      | .error e => .error e

/-- New conference homes are placed in ascending number (R92). -/
def placeConfs (s : State) (point : Nat) : List (Nat × Bytes) → Generation → Except CapFail Generation
  | [], g => .ok g
  | (n, _) :: l, g =>
    if mhas g.confAt n then placeConfs s point l g
    else match placeOn s g point (confCharge g n) false (fun c => { g with confAt := mset g.confAt n c }) with
      | .ok g => placeConfs s point l g
      | .error e => .error e

/-- The pixel rate placed on a Campion engine. -/
def campionLoad (g : Generation) (b : Nat) : Nat :=
  sum (g.vids.map fun e => if mget g.vidAt e.1 = some b then vidCharge e.2 else 0)

/-- The pixel rate placed on a Mallow engine. -/
def mallowLoad (g : Generation) (b : Nat) : Nat :=
  sum (g.outs.map fun e => if mget g.outAt e.1 = some b then outCharge g e.2 else 0)

/-- The outputs placed on a Mallow engine. -/
def mallowOuts (g : Generation) (b : Nat) : Nat := (g.outAt.filter fun e => e.2 == b).length

/-- The block number of the engine that serves a place, as the codes of R91 name it: 24 or 29 where that engine stands in. -/
def engineAt (s : State) (place : Nat) : Nat := mgetD s.rt.fault.places place place

/-- New streams are placed in ascending number on the engine with the lowest rate (R229); where none can take new work the failure names
object 0xFFFFFFFF and limit 0, as R92 has it for clusters (log 173). -/
def placeVids (s : State) : List (Nat × Bytes) → Generation → Except CapFail Generation
  | [], g => .ok g
  | (n, b) :: l, g =>
    if mhas g.vidAt n then placeVids s l g
    else
      match leastBy (campionLoad g) (if s.closed 30 || s.closed 34 then [] else openPlaces s s.rt.fault.campions) with
      | none => .error ⟨3, 0xFFFFFFFF, vidCharge b, 0⟩
      | some e =>
        let d := campionLoad g e + vidCharge b
        if d ≤ 500000 then placeVids s l { g with vidAt := mset g.vidAt n e } else .error ⟨3, engineAt s e, d, 500000⟩

/-- New outputs are placed in ascending number on the engine with the lowest rate that has room (R287); where none can take new work the
failure names object 0xFFFFFFFF and limit 0 (log 173). -/
def placeOuts (s : State) : List (Nat × Bytes) → Generation → Except CapFail Generation
  | [], g => .ok g
  | (n, b) :: l, g =>
    if mhas g.outAt n then placeOuts s l g
    else
      let up := openPlaces s s.rt.fault.mallows
      let fits := up.filter fun e => mallowLoad g e + outCharge g b ≤ 600000
      match leastBy (mallowLoad g) (fits.filter fun e => mallowOuts g e < 16), leastBy (mallowLoad g) up with
      | some e, _ => placeOuts s l { g with outAt := mset g.outAt n e }
      | none, none => .error ⟨4, 0xFFFFFFFF, outCharge g b, 0⟩
      | none, some e =>
        if fits.isEmpty then .error ⟨4, engineAt s e, mallowLoad g e + outCharge g b, 600000⟩
        else .error ⟨5, engineAt s e, mallowOuts g e + 1, 16⟩

/-- Placements of objects that the generation still holds; orphans are placed anew (R92, R153). -/
def keepPlaces (s : State) (g : Generation) : Generation :=
  { g with
    legAt := mkeep s.gens.active.legAt fun k _ => mhas g.legs k
    confAt := mkeep s.gens.active.confAt fun k _ => mhas g.confs k
    vidAt := mkeep s.gens.active.vidAt fun k _ => mhas g.vids k && !s.rt.fault.orphans.contains (0x10000 + k)
    outAt := mkeep s.gens.active.outAt fun k _ => mhas g.outs k && !s.rt.fault.orphans.contains (0x20000 + k) }

/-- The first cluster whose kept charge does not fit: a degraded one only where the commit adds load (R147). -/
def clusterOver (s : State) (g : Generation) (point : Nat) : Option CapFail :=
  ((List.range 16).find? fun c =>
    comingLimit s point c < clusterCharge g c &&
      (8 ≤ (s.rt.fault.cluster c).coming || clusterCharge s.gens.active c < clusterCharge g c)).map
    fun c => ⟨2, c, clusterCharge g c, comingLimit s point c⟩

/-- The device limit at the boundary (R29, R31, R147). -/
def comingDevice (s : State) (g : Generation) (point : Nat) : Nat :=
  sum ((List.range 16).map fun c => if (partitionOf g c).isSome then 0 else comingLimit s point c)

/-- The check of an engine load over its limit. -/
def overEngine (s : State) (code limit : Nat) (load : Nat → Nat) (l : List Nat) : Option CapFail :=
  (l.find? fun b => limit < load b).map fun b => ⟨code, engineAt s b, load b, limit⟩

/-- Preparation: the generation is placed and admitted, or the first failing check is reported (R91). -/
def admitGen (s : State) (g : Generation) : Except CapFail Generation :=
  let point := setPoint g
  let g := keepPlaces s g
  if comingDevice s g point < audioSum g then .error ⟨1, 0, audioSum g, comingDevice s g point⟩
  else match clusterOver s g point with
    | some e => .error e
    | none =>
      match placeLegs s point g.legs g with
      | .error e => .error e
      | .ok g =>
        match placeConfs s point g.confs g with
        | .error e => .error e
        | .ok g =>
          match overEngine s 3 500000 (campionLoad g) (span 16 8) with
          | some e => .error e
          | none =>
            match placeVids s g.vids g with
            | .error e => .error e
            | .ok g =>
              match overEngine s 4 600000 (mallowLoad g) (span 25 4) with
              | some e => .error e
              | none =>
                match placeOuts s g.outs g with
                | .error e => .error e
                | .ok g =>
                  if 64 < g.outs.length then .error ⟨5, 0, g.outs.length, 64⟩
                  else if regionSize s.rt.dram 4 < vrefBytes g then
                    .error ⟨6, 0, ceilDiv (vrefBytes g) 1048576, regionSize s.rt.dram 4 / 1048576⟩
                  else if regionSize s.rt.dram 5 < csurfBytes g s.rt.mallow then
                    .error ⟨6, 1, ceilDiv (csurfBytes g s.rt.mallow) 1048576, regionSize s.rt.dram 5 / 1048576⟩
                  else .ok g

end Sys2Proof.Machine
end

