-- ==== Sys2Proof/Machine/Power.lean ====
section
/-! DEFINITION. DVFS, domains, thermal state and their commands (R591 to R608). -/

namespace Sys2Proof.Machine

/-! ALERT_N (R650). -/

/-- The alert causes that hold. -/
def alertCauses (s : State) : Nat :=
  b2n s.rt.power.warn + 2 * b2n s.rt.power.high + 4 * b2n (s.rt.mgmt.monitors.any fun m => m.2.out) +
    8 * b2n (s.rt.power.unlocked.any fun p => p.1 < 8) + 16 * b2n s.rt.mgmt.mirrorFailing + 32 * b2n s.senak.safeBoot

/-- ALERT_N is low while an enabled cause holds. -/
def alertUpdate (s : State) : State := s.setPin 2 (alertCauses s &&& s.rt.mgmt.alertMask.toNat == 0)

/-! DVFS (R593 to R595). -/

/-- A voltage is written to the regulator, or waits for the change in progress (R594). -/
def writeVoltage (point : Nat) (raising : Bool) (s : State) : State :=
  if s.rt.power.volt.isSome then s.modPower fun p => { p with queued := some (point, raising) }
  else (s.modPower fun p => { p with volt := some ⟨point, s.up, raising⟩, powerGood := false }).emit
    (.board 0 (coreMv point))

/-- Whether a generation's set point is faster than the point in force. -/
def raises (s : State) (g : Generation) : Bool := decide (setPoint g < s.rt.power.point)

/-- The voltage returns to the point in force after a failed raise (R595). -/
def voltageBack (s : State) : State :=
  if s.rt.power.volt.isSome ∨ s.rt.power.queued.isSome then
    writeVoltage s.rt.power.point false (s.modPower fun p => { p with volt := none, queued := none })
  else s

/-- Domains that a set point holds on wake where they are off; those of engines held as spares stay off (R600). -/
def holdDomains (g : Generation) (s : State) : State :=
  (List.range 36).foldl (fun s b => if bit (uN g.power 4 8) b && !s.spareHeld b && !s.rt.power.powered.getLsbD b then wakeDomain b s else s) s

/-- The DVFS part of an activation: the frequency switches, and a lower voltage follows (R593, R595, R609). -/
def switchPoint (g : Generation) (s : State) : State :=
  let o := s.rt.power.point
  let n := setPoint g
  if n = o then s
  else
    let s := (s.modPower fun p => { p with point := n }).post 0x1281 1 0 (o * 256 + n)
    if o < n then writeVoltage n false s else s

/-- The regulator reports power-good and the monitor reads mv: within 10 mV of the target the change ends (R594, R595). -/
def execPowerGood (t : Time) (mv : Nat) (s : State) : Host.Outcome State Fault Refusal :=
  let s := s.advance t
  let s := s.modPower fun p => { p with vddCore := mv }
  match s.rt.power.volt with
  | none => done s
  | some v =>
    if (mv : Int) - coreMv v.target ≤ 10 ∧ (coreMv v.target : Int) - mv ≤ 10 then
      let q := s.rt.power.queued
      let s := s.modPower fun p => { p with volt := none, powerGood := true, queued := none }
      let s := if v.raising ∧ q.isNone then
          s.modGens fun g => { g with armed := g.armed.map fun a => { a with waitPower := a.waitPower && decide (setPoint a.gen < v.target) } }
        else s
      match q with
      | some q => done (writeVoltage q.1 q.2 s)
      | none => done s
    else done s

/-- The changes of a withdrawn commit return to the staged generation, which keeps its number (R100). -/
def returnChanges (a : Armed) (s : State) : State :=
  s.modGens fun g =>
    { g with armed := none, staged := { g.staged with changes := satAdd 4294967295 a.gen.changes g.staged.changes } }

/-- No power-good within 1 ms of the voltage write: the commit fails and the voltage returns (R595). -/
def execDvfsTimeout (t : Time) (s : State) : Host.Outcome State Fault Refusal :=
  let s := s.advance t
  match s.rt.power.volt, s.gens.armed with
  | some v, some a =>
    if v.raising ∧ a.waitPower ∧ v.target = setPoint a.gen ∧ v.writtenAt + tMs ≤ s.up then
      let s := voltageBack (returnChanges a s)
      let s := match s.findPending (if a.rollback then 0x0202 else 0x0201) 0 with
        | some p => s.endPending p .internalFault 0x1201
        | none => s
      done (s.post 0x1282 3 0 v.target)
    else done s
  | _, _ => done s

/-! What a generation places on a block (R79, R600). -/

/-- Whether a generation holds an object whose path needs FWD, SEC and ETH: an RTP leg, stream, relay or subscription. -/
def netPath (g : Generation) : Bool :=
  g.legs.any (fun l => u8 l.2 2 == 0) || !g.vids.isEmpty || !g.relays.isEmpty || !g.subs.isEmpty

/-- Whether a generation holds a TDM object. -/
def tdmPath (g : Generation) : Bool :=
  g.legs.any (fun l => u8 l.2 2 == 1) || !g.xcs.isEmpty || !g.bypasses.isEmpty || !g.prots.isEmpty

/-- The lowest key of a map whose value is a block. -/
def lowestAt (m : Map Nat) (b : Nat) : Option Nat := (m.find? fun e => e.2 == b).map (·.1)

/-- The object that a generation places on a block, as the detail of R79 names it. -/
def placedOn (s : State) (g : Generation) (b : Nat) : Option Nat :=
  let eng := (s.rt.fault.placeOf b).getD 99
  if b < 16 then
    match lowestAt g.legAt b, lowestAt g.confAt b, partitionOf g b with
    | some l, _, _ => some l
    | none, some c, _ => some c
    | none, none, p => p
  else if b < 25 then lowestAt g.vidAt eng
  else if b < 30 then lowestAt g.outAt eng
  else if b = 30 ∨ b = 31 ∨ b = 34 then if netPath g then some 0xFFFF else none
  else if b = 32 then if g.selections.isEmpty then none else some 0xFFFF
  else if b = 33 then if tdmPath g then some 0xFFFF else none
  else none

/-- Whether a generation holds any versioned object but the power set point (R598). -/
def Generation.holds (g : Generation) : Bool :=
  !(g.legs.isEmpty && g.detectors.isEmpty && g.confs.isEmpty && g.members.isEmpty && g.routes.isEmpty && g.vids.isEmpty &&
    g.layouts.isEmpty && g.outs.isEmpty && g.relays.isEmpty && g.subs.isEmpty && g.lines.isEmpty && g.policers.isEmpty &&
    g.queues.isEmpty && g.xcs.isEmpty && g.bypasses.isEmpty && g.prots.isEmpty && g.selections.isEmpty && g.partitions.isEmpty)

/-! Domains (R600, R601). -/

/-- Whether a set point holds a domain on. -/
def heldOn (g : Generation) (b : Nat) : Bool := bit (uN g.power 4 8) b

/-- Whether an operation that is no work item runs on a block: a compression job, or an operation of the security engine (R79). -/
def State.engaged (s : State) (b : Nat) : Bool :=
  if b = 32 then s.rt.zip.any fun z => z.2.state == .running && !z.2.waiting
  else if b = 31 then !s.rt.sec.crypts.isEmpty || s.rt.sec.user.any (fun p => p.2.busy) || s.rt.sec.waiting.any fun q => !q.2.isEmpty
  else false

/-- Whether something uses a block: a placed object, an armed one, an item that targets it, or an operation on it. -/
def domainBusy (s : State) (b : Nat) : Bool :=
  (placedOn s s.gens.active b).isSome || (match s.gens.armed with
    | some a => (placedOn s a.gen b).isSome
    | none => false) || s.rt.clover.items.any (fun i => i.2.target == b) || s.engaged b

/-- Whether a domain is never switched off in Run: SEC and PCIE, FWD while ETH is powered, and the last powered cluster
outside user partitions (R600). -/
def staysOn (s : State) (b : Nat) : Bool :=
  b == 31 || b == 35 || (b == 30 && s.rt.power.powered.getLsbD 34) ||
  (decide (b < 16) && ((List.range 16).all fun c =>
    c == b || !s.rt.power.powered.getLsbD c || (partitionOf s.gens.active c).isSome))

/-- Idle instants of auto domains are kept from one tick boundary to the next (R600). -/
def trackIdle (s : State) : State :=
  s.modPower fun p =>
    { p with idleSince := (List.range 36).filterMap fun b =>
        if domainBusy s b || heldOn s.gens.active b then none else some (b, mgetD p.idleSince b s.up) }

def execDomainWake (t : Time) (b : Fin 36) (s : State) : Host.Outcome State Fault Refusal :=
  let s := s.advance t
  done (if s.rt.power.state = 0 then wakeDomain b.val s else s)

/-! Thermal (R602). -/

/-- The grade maximum in °C (R2). -/
def gradeMax : Nat := if Config.gradeI then 110 else 100

/-- The warning threshold in °C (R602). -/
def warnAt (p : Power) : Nat := p.warnAt.getD (gradeMax - 10)

/-- The sensor with the highest reading, the lowest number on a tie. -/
def hottest (temps : List Int) : Nat :=
  ((List.range temps.length).foldl (fun b i => if temps.getD b 0 < temps.getD i 0 then i else b) 0)

/-- The junction temperature in 0.1 °C (R602). -/
def junction (temps : List Int) : Int := temps.getD (hottest temps) 0

/-- The warning and high conditions after a sample, with their events (R602, R609). -/
def judgeThermal (s : State) : State :=
  let p := s.rt.power
  let j := junction p.temps
  let h := hottest p.temps
  let judge := fun (on : Bool) (lim : Nat) => if on then decide ((lim : Int) * 10 - 30 < j) else decide ((lim : Int) * 10 ≤ j)
  let w := judge p.warn (warnAt p)
  let g := judge p.high gradeMax
  let s := s.modPower fun p => { p with warn := w, high := g }
  let s := s.postIf (w && !p.warn) 0x1283 2 h (sat32 j)
  let s := s.postIf (g && !p.high) 0x1284 4 h (sat32 j)
  let s := s.postIf (p.warn && !w) 0x1285 1 h 0
  alertUpdate (s.postIf (p.high && !g) 0x1285 1 h 1)

/-! Commands. -/

/-- PWR.STATUS (R608). -/
def cmdPwrStatus : Cmd where
  code := 0x1200
  len := len1 0
  safe := true
  run := fun _ _ s =>
    let p := s.seen.power
    let seq := match p.volt with
      | none => 0
      | some v => if v.raising then 1 else 2
    okWith s (block 32 [(0, 1, if p.state = 0 ∧ p.idle then 1 else p.state), (1, 1, p.point), (2, 1, seq),
      (3, 1, b2n p.warn + 2 * b2n p.high), (4, 2, p.vddCore), (6, 2, sat32 (junction p.temps)), (8, 1, hottest p.temps),
      (9, 1, (p.unlocked.filter fun u => u.1 < 8).foldl (fun a u => a + 2 ^ u.1) 0), (0x10, 8, p.powered.toNat),
      (0x18, 4, p.wakes), (0x1C, 4, p.longest)])

/-- PWR.SET (R605). -/
def cmdPwrSet : Cmd where
  code := 0x1201
  len := len1 16
  gmode := .modify
  fails := fun r _ _ => fldFails r.params [rng 0 1 0 3, rsv 1 1, rng 2 2 1 10000, msk 4 8 0xFFFFFFFFF, rsv 0xC 4]
  run := fun r _ s => okWith (s.stage fun g => { g with power := r.params.take 16 })

/-- PWR.QUERY (R605). -/
def cmdPwrQuery : Cmd where
  code := 0x1202
  len := len1 0
  gmode := .read
  run := fun _ g s => okWith s (slice g.power 0 16)

/-- PWR.THERMAL_SET (R607). -/
def cmdPwrThermalSet : Cmd where
  code := 0x1204
  len := len1 4
  safe := true
  fails := fun r _ _ => fldFails r.params [rng 0 1 60 gradeMax, rsv 1 3]
  run := fun r _ s => okWith (s.modPower fun p => { p with warnAt := some (u8 r.params 0) })

def execPwrStatus (r : Request) (s : State) : Host.Outcome State Fault Refusal := execCmd cmdPwrStatus r s
def execPwrSet (r : Request) (s : State) : Host.Outcome State Fault Refusal := execCmd cmdPwrSet r s
def execPwrQuery (r : Request) (s : State) : Host.Outcome State Fault Refusal := execCmd cmdPwrQuery r s
def execPwrThermalSet (r : Request) (s : State) : Host.Outcome State Fault Refusal := execCmd cmdPwrThermalSet r s

end Sys2Proof.Machine
end

