-- ==== Sys2Proof/Machine/Clover.lean ====
section
/-! DEFINITION. Clover: work items, ready lists, flows, storage, spill and back-pressure (R110 to R137). -/

namespace Sys2Proof.Machine

/-- Kind of a flow: 0 outside the table, 1 atomic, 2 ordered (R121). -/
def flowKind (f : Nat) : Nat :=
  if f < 0x2800 then 1
  else if f < 0x3000 then 0
  else if f < 0x4040 then 1
  else if f < 0x5000 then 0
  else if f < 0x5040 then 2
  else if f < 0x6000 then 0
  else if f < 0x6100 then 2
  else if f < 0x8000 then 0
  else if f < 0xC000 then 2
  else if f < 0x10000 then 1
  else 0

/-- No flow (R121). -/
def noFlow : Nat := 0xFFFFF

/-- Whether a target is a listed value (R114). -/
def targetOk (t : Nat) : Bool := t < 30 || t == 32 || t == 0xFF

/-- The item that a 32-byte descriptor describes, or none where Clover discards it (R114, R115). -/
def parseItem (port : Nat) (d : Bytes) : Option Item :=
  let f := u32 d 4
  let fl := u8 d 0x1F
  if u8 d 2 < 8 ∧ targetOk (u8 d 3) ∧ (f = noFlow ∨ (f < 0x100000 ∧ flowKind f ≠ 0)) ∧ fl < 8 then
    some {
      handler := u16 d 0, level := if u8 d 2 = 0 then 1 else u8 d 2, target := u8 d 3, flow := f, deadline := u32 d 8
      input := u64 d 0x10, length := u32 d 0x18, object := u16 d 0x1C, tag := u8 d 0x1E, noDeadline := bit fl 2, port := port }
  else none

/-- Ticks from a tick to an item's deadline, read as a signed 32-bit value (R110). -/
def deadlineDiff (tick d : Nat) : Int := signed 32 (d + 4294967296 - tick % 4294967296)

/-- The place of an item in dispatch order: level, deadline, then enqueue (R117). -/
def Item.rank (tick : Nat) (i : Item) : Nat :=
  i.level * 2 ^ 33 + if i.noDeadline then 2 ^ 32 else (deadlineDiff tick i.deadline + 2147483648).toNat

/-- Whether an item waits in Clover, on chip or spilled. -/
def Item.waits (i : Item) : Bool := i.state == .waiting || i.state == .spilled

/-- Whether an item is in service. -/
def Item.serving (i : Item) : Bool :=
  match i.state with
  | .inService _ _ => true
  | _ => false

/-- Whether an item runs on a consumer. -/
def Item.on (i : Item) (b p : Nat) : Bool := i.state == .inService b p

/-- The item in service on a consumer, with its order. -/
def Clover.running (c : Clover) (b p : Nat) : Option (Nat × Item) := c.items.find? fun i => i.2.on b p

/-- Shared entries in use (R127). -/
def Clover.sharedUse (c : Clover) : Nat := (c.items.filter fun i => i.2.reserve.isNone && i.2.state != .spilled).length

/-- Reserve entries in use. -/
def Clover.reserveUse (c : Clover) : Nat := (c.items.filter fun i => i.2.reserve.isSome).length

/-- Entries of one reserve in use: 1000 the tick generator, b × 9 + p a core position. -/
def Clover.reserveOf (c : Clover) (r : Nat) : Nat := (c.items.filter fun i => i.2.reserve == some r).length

/-- Items in the spill area. -/
def Clover.spilled (c : Clover) : Nat := (c.items.filter fun i => i.2.state == .spilled).length

/-- Whether a waiting item, on chip or spilled, has its turn: within the window of its ordered flow, or at the head of its atomic flow
(R122, R124). -/
def Clover.eligible (c : Clover) (order : Nat) (i : Item) : Bool :=
  i.waits &&
  (if i.flow = noFlow then true
    else if flowKind i.flow = 2 then
      decide ((i.seq + 4294967296 - (mgetD c.flows i.flow {}).oldest) % 4294967296 < 4096)
    else c.items.all fun j => j.2.flow != i.flow || j.1 == order ||
      match j.2.state with
      | .inService _ _ => false
      | .nascent _ => true
      | .held => true
      | _ => decide (order < j.1))

/-- Whether an item may be dispatched: it has its turn, and is not spilled (R117, R128). -/
def Clover.ready (c : Clover) (order : Nat) (i : Item) : Bool := i.state == .waiting && c.eligible order i

/-- Items that have become ready take the present instant for their latency (R131). -/
def Clover.stampReady (old : Clover) (up : Time) (c : Clover) : Clover :=
  { c with items := c.items.map fun i =>
      if c.eligible i.1 i.2 && !(match mget old.items i.1 with
          | some j => old.eligible i.1 j
          | none => false) then (i.1, { i.2 with readyAt := up }) else i }

/-- A sequence number is given to an item of an ordered flow as it is enqueued (R122). -/
def Clover.number (i : Item) (c : Clover) : Item × Clover :=
  if flowKind i.flow = 2 ∧ i.flow ≠ noFlow then
    let f := mgetD c.flows i.flow {}
    ({ i with seq := f.next }, { c with flows := mset c.flows i.flow { f with next := (f.next + 1) % 4294967296 } })
  else (i, c)

/-- An accepted item takes its order, and its sequence unless its parent still runs (R122, R139). -/
def Clover.accept (i : Item) (up : Time) (c : Clover) : Clover :=
  let p := match i.state with
    | .nascent _ => (i, c)
    | _ => c.number i
  p.2.stampReady up
    { p.2 with items := mset p.2.items p.2.nextOrder p.1, nextOrder := p.2.nextOrder + 1, stats := bump p.2.stats 0 }

/-- The items that the release of a parent makes visible take their sequence numbers and their places in their flows, in the order in
which the parent enqueued them (R122, R124, R139). -/
def Clover.promote (parent : Nat) (c : Clover) : Clover :=
  (c.items.filter fun i => i.2.state == .nascent parent).foldl (fun c i =>
    let p := c.number { i.2 with state := .waiting }
    { p.2 with items := mset (mdel p.2.items i.1) p.2.nextOrder p.1, nextOrder := p.2.nextOrder + 1 }) c

/-- The items that a running item enqueued are discarded (R139). -/
def Clover.dropChildren (parent : Nat) (c : Clover) : Clover :=
  { c with items := c.items.filter fun i => i.2.state != .nascent parent }

/-- Held items of an ordered flow are released while the oldest unreleased one is complete (R122). -/
def Clover.releaseLoop (flow : Nat) : Nat → Clover → Clover
  | 0, c => c
  | n + 1, c =>
    let f := mgetD c.flows flow {}
    match c.items.find? fun i => i.2.flow == flow && i.2.state == .held && i.2.seq == f.oldest with
    | some (o, _) =>
      let c := c.promote o
      Clover.releaseLoop flow n
        { c with items := mdel c.items o
                 flows := mmod c.flows flow {} fun f => { f with oldest := (f.oldest + 1) % 4294967296 } }
    | none => c

/-- An item ends: on an ordered flow it is held until its turn in release, otherwise it is released at once (R122 to R124). -/
def Clover.finish (order : Nat) (i : Item) (up : Time) (c : Clover) : Clover :=
  c.stampReady up
    (if flowKind i.flow = 2 ∧ i.flow ≠ noFlow then
      Clover.releaseLoop i.flow (c.items.length + 1) { c with items := mset c.items order { i with state := .held } }
    else { c.promote order with items := mdel (c.promote order).items order })

/-- An item ends without output: what it enqueued is discarded, and it takes its turn in release (R123). -/
def Clover.finishDead (order : Nat) (i : Item) (up : Time) (c : Clover) : Clover :=
  (c.dropChildren order).finish order i up

/-! Enqueue (R114, R127 to R130). -/

/-- The spill of one block of 64: waiting shared items, lowest level first, latest deadline first (R128). -/
def spillBlock (c : Clover) : Clover :=
  let cand := (c.items.filter fun i => i.2.state == .waiting && i.2.reserve.isNone)
  let sorted := cand.mergeSort fun a b => b.2.rank c.tick * 2 ^ 40 + b.1 ≤ a.2.rank c.tick * 2 ^ 40 + a.1
  let take := (sorted.take (Nat.min 64 (16777216 - c.spilled))).map (·.1)
  { c with
    items := c.items.map fun i => if take.contains i.1 then (i.1, { i.2 with state := .spilled }) else i
    episode := c.episode + take.length, stats := bump c.stats 8 take.length }

/-- Reaching the high mark starts a spill episode (R128, R136). -/
def checkSpill (s : State) : State :=
  let c := s.rt.clover
  if !c.spilling && decide (106496 ≤ c.sharedUse) then
    (s.modClover fun c => { c with spilling := true, episode := 0 }).post 0x0380 2 0 c.sharedUse
  else s

/-- The last spilled item has left the spill area, or none went there and the low mark is passed: the episode ends (R136; log 167). -/
def endSpill (s : State) : State :=
  let c := s.rt.clover
  if c.spilling ∧ c.spilled = 0 ∧ c.sharedUse < 106496 ∧ (c.episode ≠ 0 ∨ c.sharedUse < 90112) then
    (s.modClover fun c => { c with spilling := false }).post 0x0381 1 0 c.episode
  else s

/-- While the spill area has room the shared store does not fill: a full one spills a block first (R128). -/
def Clover.makeRoom (c : Clover) : Clover := if 114112 ≤ c.sharedUse then spillBlock c else c

/-- The store an enqueue is drawn from: shared, or the reserve of the core that enqueues where shared is full; none while the producer
stalls (R127, R129, R130; log 168). -/
def Clover.storeFor (c : Clover) (core : Option Nat) : Option (Option Nat) :=
  if c.sharedUse < 114112 then some none
  else match core with
    | some r => if c.reserveOf r < 4 then some (some r) else none
    | none => none

/-- The reserve that an enqueue may be drawn from: that of one of the 144 core positions (R127). -/
def reserveFor (by_ : Option (Nat × Nat)) : Option Nat :=
  by_.bind fun b => if b.1 < 16 ∧ b.2 < 9 then some (b.1 * 9 + b.2) else none

/-- A producer waits at its enqueue; the first to wait starts back-pressure (R130, R136; log 169). -/
def stallProducer (port : Nat) (d : Bytes) (by_ : Option (Nat × Nat)) (s : State) : State :=
  let first := s.rt.clover.pressureFrom.isNone
  let up := s.up
  (s.modClover fun c => { c with
    stalled := c.stalled ++ [(port, d, by_)], pressureFrom := some (c.pressureFrom.getD up)
    pressureMark := if first then up else c.pressureMark }).postIf first 0x0382 3 port 0

/-- Whether a producer waits at an enqueue; Sorrel's packet receive and the host stream ports then take nothing in (R130). -/
def State.stalls (s : State) (port : Nat) : Bool := s.rt.clover.stalled.any fun p => p.1 == port

/-- An item takes its entry, where a store has one; otherwise its producer stalls (R129, R130). -/
def placeItem (port : Nat) (d : Bytes) (i : Item) (by_ : Option (Nat × Nat)) (s : State) : State :=
  let parent := by_.bind fun b => (s.rt.clover.running b.1 b.2).map (·.1)
  let s := s.modClover Clover.makeRoom
  match s.rt.clover.storeFor (reserveFor by_) with
  | some r =>
    checkSpill (s.modClover (Clover.accept
      { i with reserve := r, state := match parent with
          | some o => .nascent o
          | none => .waiting } s.up))
  | none => stallProducer port d by_ s

/-- An item is enqueued: Clover discards a bad one, which takes no sequence number, and a producer that waits stays in line (R115, R123,
R129, R130; log 170). -/
def enqueueItem (port : Nat) (d : Bytes) (by_ : Option (Nat × Nat)) (s : State) : State :=
  match parseItem port d with
  | none => (s.modClover fun c => { c with stats := bump c.stats 0x14 }).post 0x0387 2 port (u16 d 0)
  | some i =>
    if s.rt.clover.stalled.any fun p => p.1 == port && p.2.2 == by_ then stallProducer port d by_ s
    else placeItem port d i by_ s

/-- A producer finishes an earlier stage and enqueues an item (R114); where its domain is off, its dispatch is the demand that wakes it (R601). Clover
stops with CORE_CLK (R23, R591). -/
def execWorkItemEnqueue (t : Time) (e : Enqueue) (s : State) : Host.Outcome State Fault Refusal :=
  let s := s.advance t
  done (if s.coreClock then enqueueItem e.port e.desc (e.by_.map fun b => (b.1.val, b.2.val)) s else s)

/-- The stalled producer at or after the rotating pointer, among those for which an entry is free (R16, R130). -/
def nextStalled (c : Clover) : Option (Nat × Bytes × Option (Nat × Nat)) :=
  leastBy (fun p => (p.1 + 64 - c.ptr % 64) % 64) (c.stalled.filter fun p => (c.storeFor (reserveFor p.2.2)).isSome)

/-- The time in back-pressure is counted up to an instant, in whole µs (R134). -/
def Clover.countPressure (up : Time) (c : Clover) : Clover :=
  match c.pressureFrom with
  | some _ =>
    let us := (up - c.pressureMark) / tUs
    { c with stats := bump c.stats 0x18 us, pressureMark := c.pressureMark + us * tUs }
  | none => c

/-- Back-pressure ends once no producer waits (R136). -/
def endPressure (s : State) : State :=
  match s.rt.clover.stalled, s.rt.clover.pressureFrom with
  | [], some f =>
    (s.modClover fun c => { c.countPressure s.up with pressureFrom := none }).post 0x0383 1 0 ((s.up - f) / tUs)
  | _, _ => s

/-- An entry has freed: a stalled producer completes its enqueue; the last one ends back-pressure (R130, R136). -/
def execEnqueueStallRelease (t : Time) (s : State) : Host.Outcome State Fault Refusal :=
  let s := s.advance t
  let s := if s.coreClock then s.modClover Clover.makeRoom else s
  match if s.coreClock then nextStalled s.rt.clover else none with
  | some p =>
    let s := s.modClover fun c => { c with stalled := c.stalled.erase p, ptr := (p.1 + 1) % 64 }
    done (endPressure (match parseItem p.1 p.2.1 with
      | some i => placeItem p.1 p.2.1 i p.2.2 s
      | none => s))
  | none => done s

/-- While shared use is at or above the high mark a block of 64 waiting items is spilled (R128). -/
def execSpillBlock (t : Time) (s : State) : Host.Outcome State Fault Refusal :=
  let s := s.advance t
  done (if s.coreClock && decide (106496 ≤ s.rt.clover.sharedUse) then (checkSpill s).modClover spillBlock else s)

/-- The first 64 spilled items in dispatch order: those that a refill takes (R128). -/
def refillChoice (c : Clover) : List Nat :=
  let sp := c.items.filter fun i => i.2.state == .spilled
  let sorted := sp.mergeSort fun a b => a.2.rank c.tick * 2 ^ 40 + a.1 ≤ b.2.rank c.tick * 2 ^ 40 + b.1
  (sorted.take 64).map (·.1)

/-- They return (R128). -/
def refillItems (c : Clover) : Clover :=
  let take := refillChoice c
  { c with items := c.items.map fun i => if take.contains i.1 then (i.1, { i.2 with state := .waiting }) else i }

/-! Deadlines (R126). -/

/-- Whether an item's deadline is at or before an ended tick; one that was so at its enqueue is handled at the next boundary (R126; log
171). -/
def Item.past (tick : Nat) (i : Item) : Bool := !i.noDeadline && decide (deadlineDiff tick i.deadline ≤ 0)

/-- Waiting items whose deadline tick has ended expire: discarded, counted and released (R126). -/
def expireItems (tick : Nat) (s : State) : State :=
  endSpill <| (s.rt.clover.items.filter fun i => i.2.waits && i.2.past tick).foldl (fun s i =>
    s.modClover fun c => { c with stats := bump c.stats 0x10 }.finishDead i.1 i.2 s.up) s

/-- Spilled items whose record reads as uncorrectable are discarded, counted as expired and released (R577). -/
def discardSpilled (bad : List Nat) (s : State) : State :=
  (s.rt.clover.items.filter fun i => bad.contains i.1).foldl (fun s i =>
    s.modClover fun c => { c with stats := bump c.stats 0x10 }.finishDead i.1 i.2 s.up) s

/-- REFILL_BLOCK: below the low mark a block of 64 spilled items returns in dispatch order; the last ends the episode. The operand names
the items, by their places, whose record in SPILL is uncorrectable (R128, R136, R577). -/
def execRefillBlock (r : ReadBack) (s : State) : Host.Outcome State Fault Refusal :=
  let s := s.advance r.at_
  let lost := (refillChoice s.rt.clover).filter r.bad.contains
  done (if s.coreClock then endSpill (if s.rt.clover.sharedUse < 90112 then discardSpilled lost (s.modClover refillItems) else s) else s)

/-- Flows of the waiting items that a tick's end expires, in order. -/
def expiring (tick : Nat) (c : Clover) : List Nat :=
  (c.items.filter fun i => i.2.waits && i.2.past tick).map (·.2.flow)

/-! Injection (R111, R112, R116). -/

/-- The level of a leg's tick item: 1 facing TDM or a serial audio port, otherwise 2 (R116). -/
def legLevel (b : Bytes) : Nat := if u8 b 2 = 1 ∨ u8 b 2 = 2 then 1 else 2

/-- The tick items of a generation, in priority order and by object within a level (R111, R196); log 21. -/
def tickItems (s : State) (g : Generation) (tick : Nat) : List Item :=
  let shed := fun l => s.rt.fault.clusters.any fun c => c.2.shedLegs.contains l
  let leg := fun lv => (g.legs.filter fun e => legLevel e.2 == lv && !shed e.1).map fun e =>
    ({ handler := Config.freeNat 0 % 65536, level := lv, target := mgetD g.legAt e.1 0xFF, flow := e.1
       object := e.1, deadline := tick % 4294967296, tag := g.number % 256, tickItem := true, port := 36 } : Item)
  let conf := (g.confs.filter fun e => !(membersOf g e.1).isEmpty).map fun e =>
    ({ handler := Config.freeNat 1 % 65536, level := 3, target := mgetD g.confAt e.1 0xFF, flow := 0x2000 + e.1
       object := e.1, deadline := tick % 4294967296, tag := g.number % 256, tickItem := true, port := 36 } : Item)
  leg 1 ++ leg 2 ++ conf

/-- A tick item is injected from the reserve, or missed where the reserve is full (R129). -/
def injectItem (i : Item) (s : State) : State :=
  if s.rt.clover.reserveOf 1000 < 16384 then
    s.modClover (Clover.accept { i with reserve := some 1000 } s.up)
  else (s.modClover fun c => { c with stats := bump c.stats 0x1C }).post 0x0386 3 i.object i.deadline

/-! Commands (R132 to R135). -/

/-- SCHED.STATUS (R133). -/
def cmdSchedStatus : Cmd where
  code := 0x0300
  len := len1 0
  safe := true
  run := fun _ _ s =>
    let c := s.seen.clover
    okWith s (block 32 [(0, 8, s.seenAt / tMs), (8, 4, c.sharedUse), (0xC, 4, c.reserveUse), (0x10, 4, c.spilled),
      (0x14, 1, if c.pressureFrom.isSome then 2 else b2n c.spilling)])

/-- SCHED.STATS (R134). -/
def cmdSchedStats : Cmd where
  code := 0x0301
  len := len1 4
  safe := true
  fails := fun r _ _ => fldFails r.params [rng 0 1 0 1, rsv 1 3]
  run := fun r _ s =>
    let m := s.seen.clover.stats
    let d := block 96 (m.map fun e => (e.1, if e.1 < 0x10 then 8 else 4, e.2))
    okWith (if u8 r.params 0 = 1 then
      s.clearSeen (fun b rt => { rt with clover := { rt.clover with stats := clearMax (0x20 ≤ ·) b.clover.stats rt.clover.stats } }) else s) d

/-- SCHED.FLOW (R135). -/
def cmdSchedFlow : Cmd where
  code := 0x0302
  len := len1 4
  safe := true
  fails := fun r _ _ => badIf (decide (0x100000 ≤ u32 r.params 0) || flowKind (u32 r.params 0) == 0) 0
  run := fun r _ s =>
    let f := u32 r.params 0
    let c := s.seen.clover
    let q := if flowKind f = 2 then mgetD c.flows f {} else {}
    okWith s (le 4 (c.items.filter fun i => i.2.flow == f && i.2.waits).length ++
      le 4 (c.items.filter fun i => i.2.flow == f && i.2.serving).length ++ le 4 q.oldest ++ le 4 q.next)

def execSchedStatus (r : Request) (s : State) : Host.Outcome State Fault Refusal := execCmd cmdSchedStatus r s
def execSchedStats (r : Request) (s : State) : Host.Outcome State Fault Refusal := execCmd cmdSchedStats r s
def execSchedFlow (r : Request) (s : State) : Host.Outcome State Fault Refusal := execCmd cmdSchedFlow r s

end Sys2Proof.Machine
end

