-- ==== Sys2Proof/Machine/TestBase.lean ====
section
/-! DEFINITION. What a finished unit test leaves, the health map, and substitution (R630 to R645). -/

namespace Sys2Proof.Machine

/-- The kind of a unit (R630): 0 core site, 1 cluster memory, 2 Campion, 3 Mallow, 4 Sorrel, 5 security engine, 6 key store,
7 compression, 8 TDM, 9 Ethernet MACs. -/
def unitKind (b site : Nat) : Nat :=
  if b < 16 then if site = 255 then 1 else 0
  else if b < 25 then 2
  else if b < 30 then 3
  else if b = 30 then 4
  else if b = 31 then if site = 255 then 6 else 5
  else if b = 32 then 7
  else if b = 33 then 8
  else 9

/-- Whether a kind of unit has logic self-test (R630). -/
def hasLogic (kind : Nat) : Bool := kind != 1 && kind != 6

/-- Whether a kind of unit has memories under test (R630). -/
def hasMemory (kind : Nat) : Bool := kind != 5

/-- Sites of a block that the health map gives a bit (R637). -/
def healthSites (b : Nat) : Nat := if b < 16 then 9 else if b = 31 then 3 else if b = 35 then 0 else 1

/-- Whether a failed unit has no spare and no remaining engine: severity 4 (R639, R645). -/
def noSpare (b site : Nat) : Bool := b == 30 || b == 32 || b == 33 || b == 34 || (b == 31 && site == 255)

/-- A site fails a test: its bit sets and waits to be written to flash, and the site is out of service (R637). -/
def markSite (b site : Nat) (s : State) : State :=
  s.modTest fun t =>
    let out := mmod t.out b 0 fun m => if bit m site then m else m + 2 ^ site
    if site < healthSites b ∧ !bit (mgetD t.health b 0) site then
      { t with out := out, health := mmod t.health b 0 (· + 2 ^ site), everSet := satAdd 4294967295 t.everSet 1
               unwritten := t.unwritten ++ [b * 256 + site] }
    else { t with out := out }

/-- A unit's test ends: its report is kept, and a failure marks the site and raises TEST.UNUSABLE (R631, R637, R643, R645).
A failing signature is a free value; logic and memory say which parts of the test ran. -/
def endUnitTest (b : Nat) (origin : Nat) (logic memory : Bool) (r : UnitTest) (s : State) : State :=
  let site := r.site.val
  let k := unitKind b site
  let lg := logic && hasLogic k
  let res := if r.result = 1 ∧ lg then 1 else if r.result = 2 ∧ memory ∧ hasMemory k then 2 else 0
  let d := s.draw
  let s := if res = 1 then d.2 else s
  let want := if lg then (Config.bistSignature k).toNat else 0
  let rep : TestReport :=
    { origin := origin, result := res, element := if res = 2 then r.element.val else 0
      signature := if res = 1 then d.1 % 2 ^ 64 else want, expected := want
      patterns := if lg then Config.bistPatterns k % 2 ^ 32 else 0, address := if res = 2 then r.address.toNat else 0
      isolated := (mgetD s.rt.test.reports (b * 256 + site) {}).isolated }
  let s := s.modTest fun t => { t with reports := mset t.reports (b * 256 + site) rep }
  if res = 0 then s
  else (markSite b site s).post 0x1481 (if noSpare b site then 4 else 3) b (site * 256 + origin)

/-- Whether a unit's reported test failed. -/
def unitFailed (b : Nat) (r : UnitTest) (s : State) : Bool :=
  (mgetD s.rt.test.reports (b * 256 + r.site.val) {}).result != 0

/-- The assignment of a cluster's sites at the end of a cold boot's self-test (R638). -/
def assignCluster (ok : Nat → Bool) : Cluster :=
  { pos := (((List.range 9).filter ok).zip (List.range 9)).map fun e => (e.2, e.1), degraded := decide (((List.range 9).filter ok).length < 8) }

/-- Engine places and spares at the end of a cold boot's self-test: the spare stands in for the lowest failed engine (R638). -/
def assignEngines (ok : Nat → Bool) (first n spare : Nat) : Map Nat × List Nat :=
  let good := (span first n).filter ok
  let up : Map Nat := good.map fun e => (e, e)
  match (span first n).find? (fun e => !ok e), ok spare with
  | some e, true => (mset up e spare, [])
  | _, true => (up, [spare])
  | _, false => (up, [])

/-- A kept list of a map's changes to a cluster. -/
def modCluster (b : Nat) (f : Cluster → Cluster) (s : State) : State :=
  s.modFault fun x => { x with clusters := mmod x.clusters b {} f }

/-- A site that fails a test under TEST.RUN leaves service; a spare that is held takes its place (R637, R638; log 22). -/
def dropSite (b site : Nat) (s : State) : State :=
  if b < 16 then
    modCluster b (fun c =>
      match c.pos.find? fun p => p.2 == site with
      | none => c
      | some (p, _) =>
        let pos := mdel c.pos p
        match mget pos 8, c.claim with
        | some sp, none => { c with pos := if p = 8 then pos else mset (mdel pos 8) p sp }
        | _, _ => { c with pos := pos }) s
  else if b < 30 then
    s.modFault fun f =>
      match f.placeOf b, f.spares.find? fun e => decide (e < 25) == decide (b < 25) with
      | some p, some e => { f with places := mset f.places p e, spares := f.spares.erase e }
      | some p, none => { f with places := mdel f.places p }
      | none, _ => { f with spares := f.spares.erase b }
  else s

end Sys2Proof.Machine
end

