-- ==== Sys2Proof/Machine/DspBase.lean ====
section
/-! DEFINITION. Core memories, device addresses, images, and how an item starts on a core (R411, R415, R416, R418, R428, R429, R433). -/

namespace Sys2Proof.Machine

/-! Words in 4-byte containers (R416). -/

/-- The word at a word address. -/
def wordAt (m : Mem) (w : Nat) : Word24 := BitVec.ofNat 24 (uN (memRead m (4 * w) 3) 0 3)

/-- A word written, with its sign in byte 3. -/
def wordSet (m : Mem) (w : Nat) (v : Word24) : Mem := memWrite m (4 * w) (leI 4 v.toInt)

/-- One byte of a container written from outside: byte 3 follows the sign of byte 2. -/
def containerSet (m : Mem) (a : Nat) (v : Byte) : Mem :=
  if a % 4 = 3 then m
  else if a % 4 = 2 then memSet (memSet m a v) (a + 1) (if v.getLsbD 7 then 0xFF else 0)
  else memSet m a v

/-! Cores. -/

/-- The key of the core at a position of a cluster: its physical site's. -/
def coreKey (s : State) (b p : Nat) : Option Nat := (mget (s.rt.fault.cluster b).pos p).map fun site => b * 16 + site

def State.core (s : State) (k : Nat) : Core := mgetD s.rt.dsp.cores k {}
def modCore (k : Nat) (f : Core → Core) (s : State) : State := s.modDsp fun d => { d with cores := mmod d.cores k {} f }

/-- Clusters of a partition, ascending. -/
def clustersOf (g : Generation) (q : Nat) : List Nat := (List.range 16).filter fun c => bit (u16 (mgetD g.partitions q []) 2) c

/-- First device address of the cluster memories. -/
def clusterBase : Nat := 0x100000000000

/-- First device address of a core's own banks. -/
def bankBase : Nat := 0x200000000000

/-- The byte at a device address as a core's DMA reads it; none where nothing is (R418). -/
def devRead (s : State) (k a : Nat) : Option Byte :=
  let c := s.core k
  if a < s.rt.dram.fitted then some (memGet s.rt.dram.mem a)
  else if clusterBase ≤ a ∧ a < clusterBase + 16 * 0x100000 then
    let o := a - clusterBase
    if o % 0x100000 < 0x80000 then some (memGet (mgetD s.rt.dsp.shared (o / 0x100000) []) (o % 0x100000)) else none
  else if bankBase ≤ a ∧ a < bankBase + 0x10000 then some (memGet c.xmem (a - bankBase))
  else if bankBase + 0x10000 ≤ a ∧ a < bankBase + 0x20000 then some (memGet c.ymem (a - bankBase - 0x10000))
  else none

/-- A byte that a core's DMA writes to a device address. -/
def devWrite (k a : Nat) (v : Byte) (s : State) : State :=
  if a < s.rt.dram.fitted then s.dramWrite a [v]
  else if clusterBase ≤ a ∧ a < clusterBase + 16 * 0x100000 then
    let o := a - clusterBase
    if o % 0x100000 < 0x80000 then
      s.modDsp fun d => { d with shared := mmod d.shared (o / 0x100000) [] fun m => containerSet m (o % 0x100000) v }
    else s
  else if bankBase ≤ a ∧ a < bankBase + 0x10000 then modCore k (fun c => { c with xmem := containerSet c.xmem (a - bankBase) v }) s
  else if bankBase + 0x10000 ≤ a ∧ a < bankBase + 0x20000 then
    modCore k (fun c => { c with ymem := containerSet c.ymem (a - bankBase - 0x10000) v }) s
  else s

/-! Images (R434, R435). -/

/-- Program words, X words, Y words and entries of an image. -/
def imageWords (b : Bytes) : Nat × Nat × Nat × Nat := (u16 b 8, u16 b 0xA, u16 b 0xC, u16 b 0xE)

/-- The program address of an entry. -/
def imageEntry (b : Bytes) (h : Nat) : Nat := u16 b (128 + 2 * h) % 16384

/-- Program words of an image, written from address 0 (R434). -/
def loadProgram (b : Bytes) (off : Nat) : Nat → Nat → Map (BitVec 48) → Map (BitVec 48)
  | 0, _, m => m
  | n + 1, w, m => loadProgram b off n (w + 1) (mset m w (BitVec.ofNat 48 (uN b (off + 6 * w) 6)))

/-- A bank reloaded with words of an image. -/
def loadBank (b : Bytes) (off : Nat) : Nat → Nat → Mem → Mem
  | 0, _, m => m
  | n + 1, w, m => loadBank b off n (w + 1) (wordSet m w (BitVec.ofNat 24 (uN b (off + 3 * w) 3)))

/-- A core reloads its program memory and its banks (R435). -/
def Core.reload (b : Bytes) (stamp : Nat) (c : Core) : Core :=
  let n := imageWords b
  let x := 128 + 2 * n.2.2.2 + 6 * n.1
  { c with prog := loadProgram b (128 + 2 * n.2.2.2) n.1 0 c.prog, stamp := stamp, xmem := loadBank b x n.2.1 0 c.xmem, ymem := loadBank b (x + 3 * n.2.1) n.2.2.1 0 c.ymem }

/-! Contexts of user flows (R429, R433). -/

/-- The partition of a user atomic flow, its number there, and its home cluster. -/
def userFlow (g : Generation) (flow : Nat) : Option (Nat × Nat × Nat) :=
  if 0xC000 ≤ flow ∧ flow < 0x10000 then
    let q := (flow - 0xC000) / 4096
    let f := flow % 4096
    let cs := clustersOf g q
    if f < u16 (mgetD g.partitions q []) 4 ∧ cs ≠ [] then some (q, f, cs.getD (f % cs.length) 0) else none
  else none

/-- X addresses of the current and the shadow page of a flow on its home cluster. -/
def contextPages (s : State) (g : Generation) (flow : Nat) : Nat × Nat :=
  match userFlow g flow with
  | none => (0, 0)
  | some (q, f, _) =>
    let pw := u16 (mgetD g.partitions q []) 6
    let base := 0x30000 + f / (clustersOf g q).length * 2 * pw
    let sel := mgetD s.rt.fault.selectors flow 0
    (base + sel * pw, base + (1 - sel) * pw)

/-- Whether an item may not run: no image, or a handler past its entries (R428). -/
def badEntry (s : State) (b : Nat) (i : Item) : Option Nat :=
  match partitionOf s.gens.active b with
  | none => none
  | some q =>
    let m := mgetD s.rt.dsp.images q {}
    if m.stamp = 0 ∨ u16 m.inForce 0xE ≤ i.handler then some q else none

/-- The 32-byte descriptor of an item as the core sees it (R114). -/
def Item.descriptor (i : Item) : Bytes :=
  le 2 i.handler ++ le 1 i.level ++ le 1 i.target ++ le 4 i.flow ++ le 4 i.deadline ++ le 4 i.seq ++ le 8 i.input ++ le 4 i.length ++
    le 2 i.object ++ le 1 i.tag ++ le 1 (b2n i.replayed + 2 * b2n i.tickItem + 4 * b2n i.noDeadline)

/-- The registers of a core at the start of an item (R411, R419). -/
def Core.start (pc : Nat) (desc : Bytes) (pages : Nat × Nat) (c : Core) : Core :=
  { c with
    regs := { c.regs with m := List.replicate 8 0, lc := 0, be := 0, sw := 0x400 }, pc := pc, late := [], later := [], ctrlLate := []
    forward := [], delay := none, repeat_ := none, recent := [], cycles := 0, running := true, done := false, desc := desc
    ctxCur := pages.1, ctxShd := pages.2, enq := List.replicate 16 0, refused := false, reason := 0, pend := 0, en := 0, ipc := 0, isw := 0
    dma := List.replicate 4 {} }

/-- An item starts on a core: under an image it has not yet loaded the core reloads first; with pre-copy the current page is copied to
the shadow (R428, R429, R435). -/
def startItem (b p : Nat) (i : Item) (s : State) : State :=
  match coreKey s b p with
  | none => s
  | some k =>
    let g := s.gens.active
    let atomic := flowKind i.flow == 1 && i.flow != noFlow
    match partitionOf g b with
    | none =>
      let sel := mgetD s.rt.fault.selectors i.flow 0
      let page := fun n => if atomic then Config.firmwarePage i.flow n % 2 ^ 24 else 0
      modCore k (Core.start (Config.firmwareEntry i.handler % 16384) i.descriptor (page sel, page (1 - sel))) s
    | some q =>
      let m := mgetD s.rt.dsp.images q {}
      let home : Bool := match userFlow g i.flow with
        | some f => f.1 == q && f.2.2 == b
        | none => false
      let pages := if atomic && home then contextPages s g i.flow else (0, 0)
      let s := modCore k (fun c => (if c.stamp = m.stamp then c else c.reload m.inForce m.stamp).start
        (imageEntry m.inForce i.handler) i.descriptor pages) s
      let pw := u16 (mgetD g.partitions q []) 6
      if atomic && home && bit (u8 (mgetD g.partitions q []) 8) 0 then
        let copy := fun (x : Mem) => memWrite x (4 * (pages.2 - 0x20000)) (memRead x (4 * (pages.1 - 0x20000)) (4 * pw))
        s.modDsp fun d => { d with shared := mmod d.shared b [] copy }
      else s

/-- An item that finds no entry is discarded at dispatch, counted and released (R115, R123, R428). -/
def discardEntry (q order : Nat) (i : Item) (s : State) : State :=
  let s := s.modDsp fun d => { d with images := mmod d.images q {} fun m => { m with bad := m.bad + 1 } }
  let up := s.up
  (s.modClover fun c => { c with stats := bump c.stats 0x14 }.finishDead order i up).post 0x0387 2 i.port i.handler

/-- A core stops: its transfers are abandoned, and an enqueue it waits at is withdrawn (R142, R427). -/
def stopCore (b p : Nat) (s : State) : State :=
  match coreKey s b p with
  | none => s
  | some k =>
    let s := modCore k (fun c => { c with running := false, dma := c.dma.map fun d => { d with busy := false } }) s
    s.modClover fun c => { c with stalled := c.stalled.filter fun x => x.2.2 != some (b, p) }

/-- Bits set in a core's pending sources (R423). -/
def raiseSource (k n : Nat) (s : State) : State := modCore k (fun c => { c with pend := c.pend ||| BitVec.ofNat 8 (2 ^ n) }) s

/-- Reserve entries of a core not in use (R419). -/
def reserveFree (s : State) (b p : Nat) : Nat := 4 - s.rt.clover.reserveOf (b * 9 + p)

/-- Source 6 of each running core whose reserve has risen from 0 (R423). -/
def raiseReserves (old : State) (s : State) : State :=
  (List.range 144).foldl (fun s i =>
    if reserveFree old (i / 9) (i % 9) = 0 ∧ 0 < reserveFree s (i / 9) (i % 9) then
      match coreKey s (i / 9) (i % 9) with
      | some k => if (s.core k).running then raiseSource k 6 s else s
      | none => s
    else s) s

end Sys2Proof.Machine
end

