-- ==== Sys2Proof/Machine/SecBase.lean ====
section
/-! DEFINITION. The engines of the media security engine: their service, counters, arbitration and duplicated computation (R16, R361,
R368 to R370, R374). -/

namespace Sys2Proof.Machine

/-- Engines in service (R369, R638). -/
def enginesIn (rt : Runtime) : List Nat :=
  (List.range 3).filter fun e =>
    !rt.sec.fenced.getLsbD e && !bit (mgetD rt.test.health 31 0) e && !bit (mgetD rt.test.out 31 0) e

def enginesUp (s : State) : List Nat := enginesIn s.rt

/-- A KEY.STATS counter, by its place from 1 (R374). -/
def bumpSec (i : Nat) (s : State) : State := s.modSec fun x => { x with stats := bump x.stats (4 * (i - 1)) }

/-- A mismatch of the datapaths: the retry passes, or the engine is fenced and the request moves (R368 to R370). -/
def mismatchAt (e kind : Nat) (s : State) : State :=
  if kind = 0 then s
  else
    let s := (bumpSec 13 (s.modSec fun x => { x with mismatches := x.mismatches + 1 })).post 0x0A82 2 e kind
    if kind = 1 then bumpSec 14 s
    else
      let s := s.modSec fun x => { x with fenced := x.fenced ||| (1#3 <<< e) }
      let n := (enginesUp s).length
      let s := s.post 0x0A83 3 e n
      let s := s.postIf (n == 1) 0x0A84 4 0 n
      if n = 0 then s else bumpSec 15 s

/-- A request runs on an engine in service, under duplicated computation (R368 to R370). -/
def runOn (engine mismatch : Nat) (s : State) : State :=
  let up := enginesUp s
  if up.isEmpty then s else mismatchAt (if up.contains engine then engine else up.headD 0) mismatch s

/-- The arbiter's requesters: the leg, forwarding, recorder and host queues, then the user pages (R16, R361). The pointer moves to the one
after the winner. -/
def secTurn (requester : Nat) (s : State) : State := s.modSec fun x => { x with turn := (requester + 1) % 20 }

/-- Of the queues with requests that wait, the one at or after the rotating pointer (R16, R361). -/
def Sec.nextQueue (x : Sec) : Option Nat :=
  leastBy (fun q => (q + 20 - x.turn % 20) % 20) ((List.range 2).filter fun q => !(mgetD x.waiting q []).isEmpty)

end Sys2Proof.Machine
end

