-- ==== Sys2Proof/Machine/RecBase.lean ====
section
/-! DEFINITION. The recorder's ring, its segments and its records (R376 to R391). -/

namespace Sys2Proof.Machine

/-! The ring (R383). -/

/-- Bytes of the data area: REC past its control area. -/
def recSize (d : Dram) : Nat := (regionSize d 6 - 1048576) / 64 * 64

/-- The device address of a ring position. -/
def recAddr (d : Dram) (p : Nat) : Nat := regionBase d 6 + 1048576 + p % Nat.max 1 (recSize d)

/-- Whether a device address lies in REC at a byte that no sealed segment holds: the control area, or a position outside those from
oldest to sealed end (R383, R387). -/
def recOpen (s : State) (a : Nat) : Bool :=
  let d := s.rt.dram
  let r := s.rt.recorder
  let o := a - regionBase d 6
  let size := Nat.max 1 (recSize d)
  decide (regionBase d 6 ≤ a) && decide (o < regionSize d 6) &&
    (decide (o < 1048576) || decide (recSize d ≤ o - 1048576) ||
      decide (r.sealedEnd - r.oldest ≤ (o - 1048576 + size - r.oldest % size) % size))

/-- Bytes written at a ring position, wrapping at the end of the data area. -/
def recWrite (p : Nat) (b : Bytes) (s : State) : State :=
  let d := s.rt.dram
  let room := recSize d - p % Nat.max 1 (recSize d)
  (s.dramWrite (recAddr d p) (b.take room)).dramWrite (recAddr d (p + room)) (b.drop room)

/-- Bytes read from a ring position. -/
def recRead (s : State) (p n : Nat) : Bytes :=
  let d := s.rt.dram
  let room := recSize d - p % Nat.max 1 (recSize d)
  memRead d.mem (recAddr d p) (Nat.min n room) ++ memRead d.mem (recAddr d (p + room)) (n - room)

/-- Errors that stand in the lines of ring positions (R577). -/
def recErrors (p n : Nat) (s : State) : Bool × State :=
  let d := s.rt.dram
  let room := recSize d - p % Nat.max 1 (recSize d)
  let a := readErrors (recAddr d p) (Nat.min n room) s
  let b := readErrors (recAddr d (p + room)) (n - room) a.2
  (a.1 || b.1, b.2)

/-- Bytes that a header and a seal reserve. -/
def segReserve : Nat := 192

/-- The end of a segment with a body of n bytes. -/
def segEnd (start n : Nat) : Nat := start + ceilTo 64 (160 + n)

/-- The end of the space that is reserved or written. -/
def Rec.used (r : Rec) : Nat :=
  (match r.seg with
    | some g => segEnd g.start g.body
    | none => r.sealedEnd) + if r.reserved.isSome then segReserve else 0

/-- The position below which the ring may be written (R386, R387). -/
def Rec.limit (size : Nat) (r : Rec) : Nat :=
  let base := if r.mode = 0 then r.drain else match r.seg with
    | some g => g.start
    | none => r.sealedEnd
  r.reads.foldl (fun (a : Nat) (x : Nat × Nat × Nat) => Nat.min a x.2.1) base + size

/-- Segments give way until the ring reaches an end: those released, or in overwrite mode any, with the drain moving along; what is
left of a segment released in part starts at the drain (R386; log 48). Answers the segments left, oldest, drain, and those overwritten
before their release. -/
def giveWay (size end_ : Nat) (past : Bool) : List (Nat × Nat) → Nat → Nat → Nat → List (Nat × Nat) × Nat × Nat × Nat
  | [], oldest, drain, n => ([], oldest, drain, n)
  | g :: l, oldest, drain, n =>
    if end_ ≤ oldest + size then (g :: l, oldest, drain, n)
    else if g.2 ≤ drain then giveWay size end_ past l g.2 drain n
    else if past then giveWay size end_ past l g.2 (Nat.max drain g.2) (n + 1)
    else ((drain, g.2) :: l, drain, drain, n)

/-- REC.OVERWRITTEN at most once per second, with the segments overwritten since (R386). -/
def overwrittenEvent (n : Nat) (s : State) : State :=
  let up := s.up
  let r := s.rt.recorder
  let total := r.overSince + n
  let due : Bool := match r.overAt with
    | some t => decide (t + tS ≤ up)
    | none => true
  if n = 0 then s
  else if due then (s.modRec fun r => { r with overSince := 0, overAt := some up }).post 0x0B83 2 0 total
  else s.modRec fun r => { r with overSince := total }

/-- The ring is written up to an end. -/
def makeRoom (end_ : Nat) (s : State) : State :=
  let r := s.rt.recorder
  let x := giveWay (recSize s.rt.dram) end_ (r.mode == 1) r.held r.oldest r.drain 0
  overwrittenEvent x.2.2.2 (s.modRec fun r => { r with held := x.1, oldest := x.2.1, drain := x.2.2.1 })

/-- Whether the ring may be written up to an end. -/
def hasRoom (s : State) (end_ : Nat) : Bool := end_ ≤ s.rt.recorder.limit (recSize s.rt.dram)

/-! Records (R379, R385). -/

/-- A record's bytes, padded to a multiple of 4. -/
def Record.bytes (r : Record) (time : Nat) : Bytes :=
  let b := le 1 r.type ++ le 1 r.codec ++ le 2 r.object ++ le 4 r.data.length ++ le 4 time ++ le 2 r.ms ++ le 1 r.flags ++ le 1 r.pt ++
    le 4 r.ts ++ r.data
  b ++ zeros (ceilTo 4 b.length - b.length)

/-- A record is lost: counted in the segment in progress and in the chain, and reported at most once per second (R385). -/
def loseRecord (s : State) : State :=
  let up := s.up
  let s := s.modRec fun r => { r with
    lost := r.lost + 1, lostSince := r.lostSince + 1, seg := r.seg.map fun g => { g with lost := g.lost + 1, flags := g.flags ||| 4 } }
  let r := s.rt.recorder
  let due : Bool := match r.lostAt with
    | some t => decide (t + tS ≤ up)
    | none => true
  if due then (s.modRec fun r => { r with lostSince := 0, lostAt := some up }).post 0x0B86 2 0 r.lostSince else s

/-- A record is written into the segment in progress, or discarded where it would cross the limit (R386). -/
def putRecord (g : Seg) (b : Bytes) (s : State) : State :=
  let r := s.rt.recorder
  let e := segEnd g.start (g.body + b.length) + if r.reserved.isSome then segReserve else 0
  if hasRoom s e then
    let at_ := g.start + 128 + g.body
    let s := recWrite at_ b (makeRoom e s)
    s.modRec fun r => { r with write := at_ + b.length, seg := some { g with body := g.body + b.length, records := g.records + 1 } }
  else loseRecord s

/-- Bytes of the staging buffer in use. -/
def Rec.staged (r : Rec) : Nat := sum (r.staging.map fun x => (x.bytes 0).length)

/-- A record reaches the recorder: its own second's segment, the staging buffer, or late into the segment in progress (R384, R385). -/
def takeRecord (x : Record) (s : State) : State :=
  match s.rt.recorder.seg with
  | none => loseRecord s
  | some g =>
    let sec := x.time / tS
    if g.second < sec then
      if s.rt.recorder.staged + (x.bytes 0).length ≤ 8388608 then s.modRec fun r => { r with staging := r.staging ++ [x] }
      else loseRecord s
    else if sec = g.second then putRecord g (x.bytes (x.time % tS / tNs)) s
    else putRecord g ({ x with flags := x.flags ||| 16 }.bytes 0) s

/-! Segments (R380 to R384). -/

/-- The recorder key of slot 65,535. -/
def recorderKey (s : State) : Bytes :=
  match mget s.rt.sec.slots 65535 with
  | some k => k.key
  | none => []

/-- A segment's header (R380). -/
def segHeader (s : State) (g : Seg) (digest : Bytes) : Bytes :=
  let r := s.rt.recorder
  let flags := g.flags ||| b2n (r.seq == 0) ||| (if r.mode = 1 then 32 else 0)
  le 4 0x4753524C ++ le 2 1 ++ le 2 flags ++ le 8 r.chain ++ le 8 r.seq ++ le 8 g.second ++ le 4 g.seconds ++ le 4 g.records ++
    le 8 g.body ++ le 4 g.lost ++ le 4 g.gen ++ le 8 Config.deviceId.toNat ++ slice digest 0 32 ++ slice r.link 0 32

/-- The HMAC of a seal, by a request on the recorder queue; free where the recorder key's slot has been lost or no engine is in service
(R344, R360, R370, R381; log 189). -/
def sealMac (head : Bytes) (s : State) : Bytes × State :=
  let s := secTurn 2 (bumpSec 3 s)
  if (enginesUp s).isEmpty ∨ !mhas s.rt.sec.slots 65535 then
    let d := s.draw
    ((List.range 32).map (Config.loadedOctet d.1), if (enginesUp s).isEmpty then bumpSec 16 d.2 else bumpSec 8 d.2)
  else (slice (Config.hmac (recorderKey s) head) 0 32, s)

/-- A segment is hashed, sealed and linked, and joins the chain (R380, R381). -/
def sealSeg (g : Seg) (s : State) : State :=
  let e := segEnd g.start g.body
  let head := segHeader s g (Config.sha256 (recRead s (g.start + 128) g.body))
  let x := sealMac head s
  let mac := x.1
  let tail := g.start + 128 + g.body
  let s := recWrite tail (mac ++ zeros (e - tail - 32)) (recWrite g.start head x.2)
  let s := s.modRec fun r => { r with
    link := Config.sha256 (head ++ mac), lastSeq := r.seq, lastSecond := g.second + g.seconds - 1, seq := r.seq + 1, sealedEnd := e
    held := r.held ++ [(g.start, e)], seg := none }
  s.postIf s.rt.recorder.segEvent 0x0B80 0 0 (s.rt.recorder.lastSeq % 4294967296)

/-- The segment in progress seals with flags; the one behind it takes its place, and staged records are written (R384). -/
def sealCurrent (flags : Nat) (s : State) : State :=
  match s.rt.recorder.seg with
  | none => s
  | some g =>
    let s := sealSeg { g with flags := g.flags ||| flags } s
    let l := s.rt.recorder.staging
    let s := s.modRec fun r => { r with
      mode := r.modeNext, staging := [], reserved := none
      seg := r.reserved.map fun n => { n with start := r.sealedEnd } }
    l.foldl (fun s x => takeRecord x s) s

/-- A second finds no room for its header and seal space (R386). -/
def missSecond (second : Nat) (s : State) : State :=
  let first := s.rt.recorder.missing.isNone
  let s := s.modRec fun r => { r with missing := some (match r.missing with
    | some m => (m.1, m.2 + 1)
    | none => (second, 1)) }
  s.postIf first 0x0B81 3 0 0

/-- A gap segment accounts for missing seconds (R386, R389). -/
def gapSegment (first n : Nat) (s : State) : State :=
  let r := s.rt.recorder
  let s := makeRoom (r.sealedEnd + segReserve) s
  sealSeg { start := s.rt.recorder.sealedEnd, second := first, seconds := n, flags := 8, gen := s.gens.active.number } s

/-- The segment of a second opens, where there is room for what it reserves, after a gap segment for missing seconds (R384, R386). -/
def openRecSegment (second : Nat) (s : State) : State :=
  let s := s.modRec fun r => { r with lastOpen := some second, mode := if r.seg.isNone then r.modeNext else r.mode }
  let r := s.rt.recorder
  let gap := r.seg.isNone && r.missing.isSome
  let need := r.used + segReserve + if gap then segReserve else 0
  let g : Seg := { second := second, gen := s.gens.active.number }
  if hasRoom s need then
    if r.seg.isSome then
      (makeRoom need s).modRec fun r => { r with reserved := some g }
    else
      let s := match r.missing with
        | some m => ((gapSegment m.1 m.2 s).modRec fun r => { r with missing := none }).post 0x0B82 1 0 m.2
        | none => s
      let s := makeRoom (s.rt.recorder.sealedEnd + segReserve) s
      s.modRec fun r => { r with seg := some { g with start := r.sealedEnd } }
  else missSecond second s

/-- A new chain starts on an empty ring (R390): cause 1 cold reset, 2 REC.CLEAR. -/
def startChain (cause : Nat) (s : State) : State :=
  let d := s.draw
  let s := d.2.modRec fun r => { r with
    running := true, chain := d.1 % 2 ^ 64, seq := 0, link := zeros 32, oldest := 0, drain := 0, sealedEnd := 0, write := 0, lastSeq := 0
    lastSecond := 0, seg := none, reserved := none, lastOpen := none, held := [], missing := none, staging := [], lost := 0, lostSince := 0
    lostAt := none, overSince := 0, overAt := none, clearing := false, mode := r.modeNext }
  s.post 0x0B84 2 0 cause

/-- A step of the counter forward closes the segment in progress and opens that of the second then shown; a step back leaves it open, with
the step in its flags (R380, R388). -/
def recStep (old new : Time) (s : State) : State :=
  let r := s.rt.recorder
  if old < new ∧ r.running ∧ r.seg.isSome then
    let s := sealCurrent 16 s
    let again : Bool := match s.rt.recorder.seg with
      | some g => g.second != new / tS
      | none => true
    if again then openRecSegment (new / tS) (sealCurrent 16 s) else s
  else if new < old ∧ r.running then s.modRec fun r => { r with seg := r.seg.map fun g => { g with flags := g.flags ||| 16 } }
  else s

/-- The segment that was open at a warm reset is closed, a gap accounts for the reset, and recording resumes (R389). -/
def recResume (s : State) : State :=
  let r := s.rt.recorder
  let now := s.now / tS
  let s := s.modRec fun r => { r with staging := [], arriving := [], reserved := none, reads := [], acc := [], runs := [], running := true }
  match r.seg with
  | none =>
    match r.missing with
    | some m => openRecSegment now (s.modRec fun r => { r with missing := some (m.1, now - m.1) })
    | none => s
  | some g =>
    let s := (sealCurrent 2 s).post 0x0B85 2 0 g.records
    let s := if g.second + 1 < now ∧ hasRoom s (s.rt.recorder.sealedEnd + segReserve) then gapSegment (g.second + 1) (now - g.second - 1) s
      else if g.second + 1 < now then s.modRec fun r => { r with missing := some (g.second + 1, now - g.second - 1) } else s
    openRecSegment now s

/-! What is recorded (R376, R377). -/

/-- The form and directions of an object's selection in force: none while the recorder stands still. -/
def selectionOf (s : State) (key : Nat) : Nat × Nat :=
  if s.rt.recorder.running then
    match mget s.gens.active.selections key with
    | some b => (u8 b 1, u8 b 4)
    | none => (0, 0)
  else (0, 0)

/-- Whether a leg's direction (0 receive, 1 send) is selected in a form. -/
def recorded (s : State) (leg dir form : Nat) : Bool :=
  let x := selectionOf s leg
  x.1 == form && bit x.2 dir

/-- A record is on its way to the recorder. -/
def pushRecord (x : Record) (s : State) : State := s.modRec fun r => { r with arriving := r.arriving ++ [x] }

/-- A tick of octets of a leg's direction; ten make a record (R376). -/
def gather (leg dir type codec flags : Nat) (at_ : Time) (b : Bytes) (s : State) : State :=
  let a := mgetD s.rt.recorder.acc (leg * 2 + dir) { start := at_ }
  let a := { a with data := a.data ++ b, ms := a.ms + 1, flags := a.flags ||| flags }
  if 10 ≤ a.ms then
    pushRecord { type := type, codec := codec, object := leg, time := a.start, ms := a.ms, flags := a.flags, data := a.data }
      (s.modRec fun r => { r with acc := mdel r.acc (leg * 2 + dir) })
  else s.modRec fun r => { r with acc := mset r.acc (leg * 2 + dir) a }

/-- What has been gathered of a leg's direction is recorded. -/
def flushAcc (leg dir type codec : Nat) (s : State) : State :=
  match mget s.rt.recorder.acc (leg * 2 + dir) with
  | none => s
  | some a => pushRecord { type := type, codec := codec, object := leg, time := a.start, ms := a.ms, flags := a.flags, data := a.data }
      (s.modRec fun r => { r with acc := mdel r.acc (leg * 2 + dir) })

/-- A run of concealed ticks ends, and is recorded (R377). -/
def flushRun (leg codec : Nat) (s : State) : State :=
  match mget s.rt.recorder.runs leg with
  | none => s
  | some a => pushRecord { type := 7, codec := codec, object := leg, time := a.start, ms := a.ms, flags := a.flags }
      (s.modRec fun r => { r with runs := mdel r.runs leg })

/-- A concealed tick of a payload selection lengthens its run (R377). -/
def addRun (leg codec flags : Nat) (at_ : Time) (s : State) : State :=
  let a := mgetD s.rt.recorder.runs leg { start := at_ }
  let s := s.modRec fun r => { r with runs := mset r.runs leg { a with ms := a.ms + 1, flags := a.flags ||| flags } }
  if 65535 ≤ a.ms + 1 then flushRun leg codec s else s

/-- A 24-bit sample in 16 bits (R377). -/
def sample16 (v : Int) : Bytes :=
  let x := roundDiv v 256
  leI 2 (if x < -32767 then -32767 else if 32767 < x then 32767 else x)

/-- A tick at a rate in kHz, converted to 16 kHz in 16 bits, from the block of the tick before and its own (R376, R377). -/
def linear16 (rate : Nat) (prev y : List Int) : Bytes := (if rate = 16 then y else Config.resample rate 16 prev y).flatMap sample16

end Sys2Proof.Machine
end

