-- ==== Sys2Proof/Machine/Mailbox.lean ====
section
/-! DEFINITION. BAR0 mailbox, event-ring and MSI-X rows, BAR2, and configuration requests (R42 to R71). -/

namespace Sys2Proof.Machine

/-- Whether a host request reaches the device (R690, R612). -/
def State.reachable (s : State) : Bool :=
  s.senak.pcie.linkUp && !s.senak.pcie.held && (s.rt.power.state = 0 || s.rt.power.state = 2)

/-- A configuration request has its effect where it reaches the device. -/
def State.reached (f : State → State) (s : State) : State := if s.reachable then f s else s

/-! Identity and window registers (R49 to R51). -/

/-- A bit of DEV_FAULT sets. -/
def State.devFault (i : Nat) (s : State) : State := s.modSenak fun h => { h with devFault := h.devFault ||| (1#6 <<< i) }

/-- A write of DWIN_BASE keeps bits [10:0] (R49). -/
def writeDwinBase (v : BitVec 32) (s : State) : State := s.modSenak fun h => { h with dwinBase := v.setWidth 11 }

/-- A write of DEV_FAULT clears the bits written as 1 (R9). -/
def writeDevFault (v : BitVec 32) (s : State) : State :=
  s.modSenak fun h => { h with devFault := h.devFault &&& ~~~(v.setWidth 6) }

/-- A read of an RC register of 32 bits: its value leaves the device. -/
def State.readOut (v : Nat) (s : State) : State := s.emit (.read (le 4 v))

/-- The device address that a BAR2 offset names (R49). -/
def dwinAddress (s : State) (off : Nat) : Nat := s.senak.dwinBase.toNat * gib + off

/-- Whether a BAR2 access of n bytes is dropped (R50). -/
def bar2Dropped (s : State) (off n : Nat) (write : Bool) : Bool :=
  let a := dwinAddress s off
  let d := s.rt.dram
  decide (d.fitted < a + n) || (write && decide (2 ≤ s.lifecycle) && decide (hwinSize d < a + n))

/-- A dropped access is counted and shows in DEV_FAULT (R50). -/
def dropBar2 (s : State) : State :=
  (s.modSenak fun h => { h with dwinErr := satAdd 65535 h.dwinErr 1 }).devFault 3

/-- A BAR2 read of DRAM: the bytes it holds, and free ones where the read meets REC outside the sealed segments (R387) (log 157). -/
def openRead (a n : Nat) (s : State) : State :=
  let held := memRead s.rt.dram.mem a n
  if (List.range n).any fun i => recOpen s (a + i) then
    s.draw.2.emit (.read (held.zipIdx.map fun x => if recOpen s (a + x.2) then Config.loadedOctet s.draw.1 x.2 else x.1))
  else s.emit (.read held)

/-- A BAR2 access (R50, R51, R577). -/
def bar2 (a : Bar2) (s : State) : State :=
  match a with
  | .read off n =>
    if bar2Dropped s off n false then (dropBar2 s).emit (.read (List.replicate n 0xFF))
    else
      let m := readErrors (dwinAddress s off) n s
      if m.1 then m.2.emit .poisonedRead else openRead (dwinAddress s off) n m.2
  | .write off data =>
    if bar2Dropped s off data.length true then dropBar2 s
    else s.dramWrite (dwinAddress s off) data

/-! MSI-X. -/

/-- A write of a word of the MSI-X table; unmasking a vector whose pending bit is set sends its message (R44). -/
def writeMsix (i v : Nat) (s : State) : State :=
  (s.modPcie fun p => { p with msixTable := mset p.msixTable i v }).releaseVectors

/-- What R42 fixes of the words of configuration space: word index, the bits fixed, and their values; the places of the bits are PCI
Express's (log 161). -/
def configKnown (p : Pcie) : List (Nat × BitVec 32 × BitVec 32) :=
  let cap := Config.capabilityAt
  let bar := fun i => BitVec.ofNat 32 (mgetD p.bars i 0)
  let speed : Nat := if p.rate = 16 then 4 else if p.rate = 8 then 3 else 0
  [(0, -1, 0x48101FD7#32), (1, 0x00100004#32, 0x00100000#32 ||| if p.bme then 4#32 else 0#32), (2, -1, 0x0B4000B0#32),
    (4, -1, bar 0 &&& 0xFF000000#32 ||| 4#32), (5, -1, bar 1), (6, -1, bar 2 &&& 0xC0000000#32 ||| 0xC#32), (7, -1, bar 3),
    (12, -1, 0), (15, 0xFF00#32, 0),
    (cap 0, 0xFF#32, 1), (cap 0 + 1, 3, if p.d0 then 0 else 3),
    (cap 1, 0xFF#32, 0x10), (cap 1 + 1, 7, 2), (cap 1 + 2, 0x7000#32, 0x5000#32), (cap 1 + 3, 0xFFF#32, 0x904#32),
    (cap 1 + 4, 0x03FF0000#32, BitVec.ofNat 32 (speed * 2 ^ 16 + p.width * 2 ^ 20)),
    (cap 2, 0x07FF00FF#32, 0x003F0011#32), (cap 2 + 1, -1, 0x4000#32), (cap 2 + 2, -1, 0x5000#32), (cap 3, 0xFFFF#32, 1)]

/-- A word of configuration space (R42). -/
def configRead (p : Pcie) (i : Nat) : BitVec 32 :=
  match (configKnown p).find? fun x => x.1 == i with
  | some x => Config.configWord i &&& ~~~x.2.1 ||| x.2.2
  | none => Config.configWord i

/-- A configuration request: a read is answered, a write changes what the endpoint may send, and held messages go once it may (R42, R44,
R599). -/
def execPcieConfigAccess (t : Time) (a : ConfigAccess) (s : State) : Host.Outcome State Fault Refusal :=
  let s := s.advance t
  done (s.reached fun s =>
    match a with
    | .busMaster on => (s.modPcie fun p => { p with bme := on }).releaseVectors
    | .power d0 => (s.modPcie fun p => { p with d0 := d0 }).releaseVectors
    | .turnOff => s.modPcie fun p => { p with turnOff := true }
    | .read off => s.readOut (configRead s.senak.pcie (off / 4)).toNat
    | .bar i v => s.modPcie fun p => { p with bars := mset p.bars i.val v.toNat }
    | .other => s)

/-! Mailboxes (R54, R55). -/

/-- A doorbell: it enters the queue, or is refused where the slot is busy (R55). -/
def ringDoorbell (t : Time) (v : BitVec 32) (s : State) : State :=
  let s := s.advance t
  let n := v.toNat % 64
  let b := 1#64 <<< n
  if s.senak.busy &&& b = 0 then
    s.modSenak fun h => { h with
      busy := h.busy ||| b, done := h.done &&& ~~~b, doorbells := h.doorbells ++ [{ slot := n, arrived := s.up }] }
  else
    ((s.modSenak fun h => { h with mbxErr := satAdd 65535 h.mbxErr 1, stats := bump h.stats 0x1C }).devFault 0).post 0x0183 2 n 0

/-- A write of MBX_DONE_LO or MBX_DONE_HI clears the bits written as 1 (R54). -/
def writeMbxDone (hi : Bool) (v : BitVec 32) (s : State) : State :=
  let m : BitVec 64 := if hi then v.setWidth 64 <<< 32 else v.setWidth 64
  s.modSenak fun h => { h with done := h.done &&& ~~~m }

/-! The event ring (R64 to R71). -/

/-- Vector 0 falls due when TAIL differs from HEAD and the hold-off has passed since its last message (R44, R70). -/
def vector0 (s : State) : State :=
  if s.ringDue then
    if s.senak.pcie.canSend && !msixMasked s.senak.pcie 0 then s.sendHeld 0 else s.sendVector 0
  else s

/-- A write of EVQ_SIZE (R65). -/
def writeEvqSize (v : BitVec 32) (s : State) : State :=
  s.modEvq fun q =>
    let n := bits v.toNat 3 0
    let en := v.getLsbD 31
    let q' := { q with
      log2 := if !q.en && 8 ≤ n && n ≤ 12 then n else q.log2, holdoff := bits v.toNat 15 8, en := en }
    if en && !q.en then { q' with head := 0, tail := 0, phase := true } else q'

/-- A write of EVQ_BASE_LO or EVQ_BASE_HI, ignored while EN is 1 (R65). -/
def writeEvqBase (hi : Bool) (v : BitVec 32) (s : State) : State :=
  s.modEvq fun q =>
    if q.en then q
    else if hi then { q with base := v ++ q.base.extractLsb' 0 20 }
    else { q with base := q.base.extractLsb' 20 32 ++ v.extractLsb' 12 20 }

/-- A write of EVQ_HEAD; the next message follows when the hold-off allows (R69, R70). -/
def writeEvqHead (v : BitVec 32) (s : State) : State := vector0 (s.modEvq fun q => { q with head := v.toNat % 4096 })

/-- The 32 bytes of an event with its phase bit (R66). -/
def entryBytes (e : Event) (phase : Bool) : Bytes :=
  le 2 e.code ++ le 1 (b2n phase) ++ le 1 e.sev ++ le 4 e.obj ++ le 4 e.hostSeq ++ le 4 e.detail ++ timeBytes e.time

/-- An entry is written at TAIL, and TAIL and PHASE advance (R67). -/
def writeEntry (e : Event) (s : State) : State :=
  let q := s.senak.evq
  let tail := (q.tail + 1) % 2 ^ q.log2
  let s := { s with hostMem := memWrite s.hostMem (q.base.toNat * 4096 + q.tail * 32) (entryBytes e q.phase) }
  let s := s.modEvq fun q => { q with tail := tail, phase := if tail = 0 then !q.phase else q.phase }
  vector0 (s.modSenak fun h => { h with stats := bump h.stats 0x10 })

/-- The oldest waiting event, or the loss marker after the waiting events, goes to the ring where it has room (R67, R68, R71). -/
def ringWrite (t : Time) (s : State) : State :=
  let s := s.advance t
  let q := s.senak.evq
  if q.en ∧ (q.tail + 1) % 2 ^ q.log2 ≠ q.head ∧ (q.backlog ≠ [] ∨ q.marker ≠ 0) then
    if s.senak.pcie.canSend then
      match q.backlog with
      | e :: l => writeEntry e (s.modEvq fun q => { q with backlog := l })
      | [] =>
        let e : Event := { code := 0x0182, sev := 2, obj := 0, detail := q.marker, time := s.now }
        let s := if s.rt.mgmt.threshold ≤ 2 then s.modMgmt (Mgmt.logEvent e s.up) else s
        writeEntry e (s.modEvq fun q => { q with marker := 0 })
    else (s.modEvq fun q => { q with en := false }).devFault 2
  else s

def execEventRingWrite (t : Time) (s : State) : Host.Outcome State Fault Refusal := done (ringWrite t s)

/-- The hold-off passes: a message is sent where entries remain (R70). -/
def execEvqHoldoffExpiry (t : Time) (s : State) : Host.Outcome State Fault Refusal := done (vector0 (s.advance t))

end Sys2Proof.Machine
end

