-- ==== Sys2Proof/Machine/Fault.lean ====
section
/-! DEFINITION. Dispatch and completion, replay, spares, engines and shedding (R117 to R124, R138 to R160). -/

namespace Sys2Proof.Machine

/-! Limits as FAULT.STATUS gives them (R147, R157). -/

/-- The limit of a block in service: 0.1 core-µs per tick, or kpixel/s. -/
def blockLimit (point : Nat) (f : FaultBlk) (b : Nat) : Nat :=
  if b < 16 then clusterLimit f point b
  else if (f.placeOf b).isNone then 0
  else if b < 25 then 500000 else 600000

/-- The load admitted on a block. -/
def blockDemand (g : Generation) (f : FaultBlk) (b : Nat) : Nat :=
  if b < 16 then clusterCharge g b
  else match f.placeOf b with
    | none => 0
    | some p => if b < 25 then campionLoad g p else mallowLoad g p

/-! Core faults (R141 to R148). -/

/-- A fault counter, by its place in R158 from 1. -/
def bumpFault (i : Nat) (n : Nat) (s : State) : State := s.modFault fun f => { f with stats := bump f.stats (4 * (i - 1)) n }

/-- A cluster of fewer than 8 active cores becomes degraded, once (R147). -/
def degrade (b : Nat) (s : State) : State :=
  let c := s.rt.fault.cluster b
  if b < 16 ∧ c.active < 8 ∧ c.degraded = false then
    (modCluster b (fun c => { c with degraded := true }) s).post 0x0484 3 b (blockLimit s.rt.power.point s.rt.fault b)
  else s

/-- The core at a position is fenced; a held spare claims the position, and otherwise the fault is a second concurrent one
and the cluster may become degraded (R142, R147, R148). -/
def fenceCore (b p : Nat) (s : State) : State :=
  let c := s.rt.fault.cluster b
  match mget c.pos p with
  | none => s
  | some site =>
    let up := s.up
    let s := modCore (b * 16 + site) (fun k => { k with stamp := 0 }) s
    let fenced := fun c : Cluster => { c with pos := mdel c.pos p, fenced := c.fenced ++ [site], toTest := mset c.toTest site up }
    if p < 8 ∧ c.spare.isSome ∧ c.claim.isNone then
      modCluster b (fun c => { fenced c with claim := some (p, up), loaded := false }) s
    else if p < 8 then
      degrade b (bumpFault 10 1 (modCluster b fenced s))
    else modCluster b (fun c => { fenced c with claim := none, loaded := false }) s

/-- A poisoned item is discarded and released, and reported (R145). -/
def poison (order : Nat) (i : Item) (cause : Nat) (s : State) : State :=
  let s := bumpFault 9 1 (s.modClover (Clover.finishDead order i s.up))
  s.post 0x0483 3 i.object (i.handler * 65536 + cause)

/-- An item goes back at level 0 with the replayed flag, to a block; what it had run is discarded, and after a missed deadline it has the
next tick's (R142). What user code wrote outside its shadow page stands as the item left it (R140; log 166). -/
def replayItem (order b : Nat) (cause : Nat) (i : Item) (s : State) : State :=
  let up := s.up
  let i := { i with
    level := 0, replayed := true, target := b, state := .waiting, missed := i.missed || cause == 4, work := none
    deadline := if cause = 4 then (i.deadline + 1) % 4294967296 else i.deadline }
  bumpFault 7 1 (s.modClover fun c =>
    let c' := c.dropChildren order
    c'.stampReady up { c' with items := mset c'.items order i })

/-- A core fault of a cause at a position, real or injected (R141, R142, R145, R159). -/
def coreFault (b p cause : Nat) (injected : Bool) (s : State) : State :=
  match mget (s.rt.fault.cluster b).pos p with
  | none => s
  | some site =>
    let s := endPressure (stopCore b p (bumpFault cause 1 s))
    let run := s.rt.clover.running b p
    let rep := match run with
      | some (_, i) => i.replayed
      | none => false
    let s := s.post 0x0480 3 b (p * 2 ^ 24 + cause * 65536 + site * 4096 + b2n injected * 256 + b2n rep * 512)
    match run with
    | none => fenceCore b p s
    | some (o, i) =>
      if i.replayed then poison o i cause (if cause = 1 ∨ cause = 2 then fenceCore b p s else s)
      else replayItem o b cause i (fenceCore b p s)

/-- Fenced sites whose fault lies at least 20 µs back start their self-test at a boundary (R142). -/
def startTests (s : State) : State :=
  let up := s.up
  s.modFault fun f => { f with clusters := mall f.clusters fun _ c =>
    { c with toTest := c.toTest.filter fun e => up < e.2 + 20 * tUs } }

/-- DSP.IMAGE_ACTIVE for a partition with an image in force (R435, R441). -/
def imageEvent (q : Nat) (s : State) : State :=
  let m := mgetD s.rt.dsp.images q {}
  if m.stamp = 0 then s else s.post 0x0C80 1 q (u32 m.inForce 0x14)

/-- The spare has the image of the position that it has claimed, which in a user partition is the partition's (R142, R435). -/
def execSpareLoaded (t : Time) (b : Fin 16) (s : State) : Host.Outcome State Fault Refusal :=
  let s := s.advance t
  let c := s.rt.fault.cluster b.val
  let s' := modCluster b.val (fun c => { c with loaded := c.claim.isSome }) s
  done (match if c.claim.isSome ∧ !c.loaded then partitionOf s.gens.active b.val else none with
    | some q => imageEvent q s'
    | none => s')

/-- The spare enters the position it has claimed (R142). -/
def execSpareEntry (t : Time) (b : Fin 16) (s : State) : Host.Outcome State Fault Refusal :=
  let s := s.advance t
  let c := s.rt.fault.cluster b.val
  if s.atBoundary then
    match c.claim, c.spare with
    | some (p, at_), some site =>
      if c.loaded ∧ at_ + 20 * tUs ≤ s.up then
        let s := modCluster b.val (fun c => { c with pos := mset (mdel c.pos 8) p site, claim := none, loaded := false }) s
        done (startTests (s.post 0x0481 2 b.val p))
      else done s
    | _, _ => done (startTests s)
  else done s

/-- The lowest positions 0 to 7 of a cluster that are empty and unclaimed, then the spare's (R146). -/
def emptyPositions (c : Cluster) : List Nat :=
  ((List.range 8).filter fun p => !mhas c.pos p && (match c.claim with
    | some q => q.1 != p
    | none => true)) ++ [8]

/-- The places of engines of one kind without an engine. -/
def emptyPlaces (f : FaultBlk) (campion : Bool) : List Nat :=
  (if campion then span 16 8 else span 25 4).filter fun p => !mhas f.places p

/-- The position that a site whose self-test has just passed will take: the first one empty that no site before it takes (R146, R160). -/
def Cluster.nextPlace (c : Cluster) : Nat := ((emptyPositions c).filter fun p => !c.ended.any fun e => e.2 == some p).headD 8

/-- The self-test of a fenced core or engine ends, which leaves a core's memories at zero (R146, R150, R160, R634). -/
def execCoreSelftestEnd (t : Time) (b : Fin 30) (r : UnitTest) (s : State) : Host.Outcome State Fault Refusal :=
  let s := s.advance t
  let f := s.rt.fault
  let site := r.site.val
  let b := b.val
  let c := f.cluster b
  let mine : Bool :=
    if b < 16 then c.fenced.contains site && !mhas c.toTest site && !mhas c.ended site
    else site == 0 && f.enginesFenced.contains b && !mhas f.enginesEnded b
  if mine ∧ s.lifecycle ≠ 4 then
    let s := endUnitTest b 3 true true r s
    let bad := unitFailed b r s
    let s := bumpFault (if bad then 15 else 14) 1 s
    let p := if bad then 0xFF else if b < 16 then c.nextPlace else 0
    let s := if b < 16 then modCluster b (fun c => { c with ended := c.ended ++ [(site, if bad then none else some p)] }) (modCore (b * 16 + site) (fun _ => {}) s)
      else s.modFault fun f => { f with enginesEnded := mset f.enginesEnded b (!bad) }
    done (s.post 0x0482 (if bad then 3 else 1) b (site * 2 ^ 24 + p * 65536 + b2n bad))
  else done s

/-- The sites of a cluster whose self-test has ended are handled in the order of its end: a pass takes the position reported for it, or
the first empty one where that has been filled since, and a fail stays out (R146, R160; log 165). -/
def returnSites (c : Cluster) : Cluster :=
  let c := c.ended.foldl (fun c e =>
    let c := { c with fenced := c.fenced.erase e.1 }
    match e.2 with
    | some p => { c with pos := mset c.pos (if (emptyPositions c).contains p then p else (emptyPositions c).headD 8) e.1 }
    | none => c) { c with ended := [] }
  if 8 ≤ c.active then { c with degraded := false } else c

/-- An engine whose self-test has ended: a pass serves an empty place, or is held as the spare (R146, R150; log 23). -/
def returnEngine (b : Nat) (f : FaultBlk) : FaultBlk :=
  match mget f.enginesEnded b with
  | none => f
  | some ok =>
    let f := { f with enginesEnded := mdel f.enginesEnded b, enginesFenced := f.enginesFenced.erase b }
    if ok then
      match emptyPlaces f (decide (b < 25)) with
      | p :: _ => { f with places := mset f.places p b }
      | [] => { f with spares := f.spares ++ [b] }
    else f

/-- The first boundary after the self-test (R146). -/
def execCoreReturn (t : Time) (b : Fin 30) (s : State) : Host.Outcome State Fault Refusal :=
  let s := s.advance t
  if s.atBoundary then
    done (if b.val < 16 then
      modCluster b.val (fun c => if c.ended.isEmpty then c else returnSites c) s
    else s.modFault (returnEngine b.val))
  else done s

/-! Shedding (R149). -/

/-- Items taken from the front of a list until their sizes reach an excess. -/
def takeUntil (excess : Nat) : List (Nat × Nat) → List Nat × Nat
  | [] => ([], excess)
  | (k, v) :: l => if excess = 0 then ([], 0) else let r := takeUntil (excess - v) l; (k :: r.1, r.2)

/-- The legs, then the routes, that a degraded cluster sheds: level 2 before level 1, the highest number first (log 24). -/
def shedding (s : State) (b : Nat) : List Nat × List Nat :=
  let g := s.gens.active
  let excess := clusterCharge g b - clusterLimit s.rt.fault s.rt.power.point b
  let legs := fun lv => ((g.legs.filter fun e => mget g.legAt e.1 == some b && legLevel e.2 == lv).map
    fun e => (e.1, legCost e.2)).reverse
  let l := takeUntil excess (legs 2 ++ legs 1)
  let routes := ((g.routes.filter fun e => mget g.legAt (e.1 / 65536) == some b).map fun e => (e.1, 3)).reverse
  (l.1, (takeUntil l.2 routes).1)

/-- From the boundary after degradation load is shed until the charge fits (R149). -/
def execLoadShedStart (t : Time) (b : Fin 16) (s : State) : Host.Outcome State Fault Refusal :=
  let s := s.advance t
  let c := s.rt.fault.cluster b.val
  let x := shedding s b.val
  if s.atBoundary ∧ c.degraded ∧ (x.1 ≠ [] ∨ x.2 ≠ []) then
    let first := c.shedLegs.isEmpty && c.shedRoutes.isEmpty
    let s := modCluster b.val (fun c =>
      { c with shedLegs := x.1, shedRoutes := x.2, shedTicks := if first then 0 else c.shedTicks }) s
    done (s.postIf first 0x0485 3 b.val (x.1.length + x.2.length))
  else done s

/-- Whether a cluster sheds. -/
def Cluster.sheds (c : Cluster) : Bool := !(c.shedLegs.isEmpty && c.shedRoutes.isEmpty)

/-- Shedding ends at the first boundary at which the limit covers the charge (R149). -/
def execLoadShedEnd (t : Time) (b : Fin 16) (s : State) : Host.Outcome State Fault Refusal :=
  let s := s.advance t
  let c := s.rt.fault.cluster b.val
  if s.atBoundary ∧ c.sheds ∧ clusterCharge s.gens.active b.val ≤ clusterLimit s.rt.fault s.rt.power.point b.val then
    let s := modCluster b.val (fun c => { c with shedLegs := [], shedRoutes := [] }) s
    done (s.post 0x0486 1 b.val c.shedTicks)
  else done s

/-- Each cluster that sheds counts a tick (R158, R160). -/
def countShed (s : State) : State :=
  let n := (s.rt.fault.clusters.filter fun c => c.2.sheds).length
  bumpFault 11 n (s.modFault fun f => { f with clusters := mall f.clusters fun _ c =>
    if c.sheds then { c with shedTicks := c.shedTicks + 1 } else c })

/-! Engines (R150 to R153). -/

/-- An engine is fenced; the spare of its kind is powered and takes its place, or what it served is orphaned (R150, R152, R153). -/
def engineFault (e cause affected : Nat) (s : State) : State :=
  match s.rt.fault.placeOf e with
  | none => s
  | some p =>
    let campion := decide (e < 25)
    let s := bumpFault (if campion then 12 else 13) 1 s
    let s := s.modFault fun f => { f with enginesFenced := f.enginesFenced ++ [e], places := mdel f.places p }
    let s := s.post 0x0487 3 e (cause * 2 ^ 24 + affected % 65536)
    let s := match s.rt.clover.running p 0 with
      | some (o, i) => if i.replayed then poison o i cause s else replayItem o p cause i s
      | none => s
    match s.rt.fault.spares.find? fun x => decide (x < 25) == campion with
    | some x => wakeDomain x (s.modFault fun f => { f with places := mset f.places p x, spares := f.spares.erase x })
    | none =>
      let objs := if campion then (s.gens.active.vidAt.filter fun v => v.2 == p).map fun v => 0x10000 + v.1
        else (s.gens.active.outAt.filter fun v => v.2 == p).map fun v => 0x20000 + v.1
      (s.modFault fun f => { f with orphans := f.orphans ++ objs }).post 0x0484 3 e 0

/-- A Campion fault: the slices in service and unfinished are coded again from the journal (R150). -/
def campionFault (e cause : Nat) (s : State) : State :=
  match s.rt.fault.placeOf e with
  | none => s
  | some p => engineFault e cause
      (sum (s.rt.fault.openSlices.map fun v => if mget s.gens.active.vidAt v.1 = some p then v.2 else 0)) s

/-- Regions that compare: both flags set (R286, R296). -/
def comparing (m : Map Bytes) : Nat := (m.filter fun e => u8 e.2 2 % 4 == 3).length

/-- The items of a flow are withdrawn without output: those that wait, or those in service too. -/
def dropFlow (flow : Nat) (serving : Bool) (s : State) : State :=
  (s.rt.clover.items.filter fun i => i.2.flow == flow && (i.2.waits || (serving && i.2.serving))).foldl (fun s i =>
    s.modClover (Clover.finishDead i.1 i.2 s.up)) s

/-- A frame in composition is abandoned with its item: its inputs are freed, and it is counted as repeated without a comparison (R24, R152,
R286, R287). -/
def giveUpFrame (o : Nat) (s : State) : State :=
  match (mget s.rt.mallow.outs o).bind (·.composing) with
  | none => s
  | some c =>
    let s := s.modMallow fun m => { m with outs := mupd m.outs o fun x =>
      { x with composing := none, stats := bump (bump x.stats 8) 0x1C (comparing c.regions) } }
    let free := fun (v : Nat) (y : Vid) =>
      { y with held := c.holds.foldl (fun l h => if h.1 = 0x10000 + v then l.erase h.2 else l) y.held }
    dropFlow (0x4000 + o) true (s.modVideo fun x => { x with vids := mall x.vids free })

/-- A Mallow fault: the frame in composition of each output is abandoned and counted as repeated (R152, R287). -/
def mallowFault (e : Nat) (s : State) : State :=
  match s.rt.fault.placeOf e with
  | none => s
  | some p =>
    let hit := (s.rt.mallow.outs.filter fun o => mget s.gens.active.outAt o.1 == some p && o.2.composing.isSome).map (·.1)
    engineFault e 8 hit.length (hit.foldl (fun s o => giveUpFrame o s) s)

def execMallowEngineFault (t : Time) (e : Fin 5) (s : State) : Host.Outcome State Fault Refusal :=
  done (mallowFault (25 + e.val) (s.advance t))

/-! Dispatch and completion (R117, R118, R122, R124, R138). -/

/-- Whether a consumer exists and carries work: a core at a position 0 to 7, an engine place, or compression. -/
def consumerIn (f : FaultBlk) (b p : Nat) : Bool :=
  if b < 16 then decide (p < 8) && mhas (f.cluster b).pos p
  else if b < 30 then p == 0 && mhas f.places b
  else b == 32 && p == 0

/-- The physical block that serves a consumer. -/
def serverOf (s : State) (b : Nat) : Nat := mgetD s.rt.fault.places b b

/-- Whether Clover dispatches to a block: not quiesced, reset, under test, failed or held in reset (R79, R591, R633, R639). -/
def dispatchable (s : State) (b : Nat) : Bool :=
  !s.senak.stopped.contains b && !mhas s.senak.quiesce b && !s.underTest b && !(30 ≤ b && s.blockFailed b) &&
    !s.boot.inReset.getLsbD b

/-- The highest-ranked ready item that a block may take (R117, R118). -/
def nextItem (s : State) (b : Nat) : Option (Nat × Item) :=
  let c := s.rt.clover
  let any := decide (b < 16) && (partitionOf s.gens.active b).isNone
  leastBy (fun i => i.2.rank c.tick * 2 ^ 40 + i.1)
    (c.items.filter fun i => (i.2.target == b || (any && i.2.target == 0xFF)) && c.ready i.1 i.2)

/-- An armed injection fires on the item that its position takes; an engine is named by its own block number (R159). -/
def fireInjection (b p : Nat) (s : State) : State :=
  let e := serverOf s b
  match mget s.rt.fault.injections (e * 16 + p) with
  | none => s
  | some cause =>
    let s := s.modFault fun f => { f with injections := mdel f.injections (e * 16 + p) }
    if b < 16 then coreFault b p cause true s else if b < 25 then campionFault e cause s else mallowFault e s

/-- Whether a consumer is free to take work. -/
def consumerFree (s : State) (b p : Nat) : Bool :=
  consumerIn s.rt.fault b p && (s.rt.clover.running b p).isNone && dispatchable s (serverOf s b)

/-- The consumers that an item may go to: those of its block, or every core where it names none (R118). -/
def Item.consumers (i : Item) : List (Nat × Nat) :=
  (if i.target = 0xFF then List.range 16 else [i.target]).flatMap fun b => (List.range 9).map fun p => (b, p)

/-- Of the free consumers that could take an item, the one at or after the rotating pointer (R16, R118). -/
def takerOf (s : State) (order : Nat) (i : Item) : Option (Nat × Nat) :=
  leastBy (fun c => (c.1 * 9 + c.2 + 324 - s.rt.clover.cptr % 324) % 324) (i.consumers.filter fun c =>
    consumerFree s c.1 c.2 && s.domainReady (serverOf s c.1) && (nextItem s c.1).map (·.1) == some order)

/-- The configuration under which an engine's work on a stream's item starts: a replay keeps the one it began with (R98). -/
def startsUnder (s : State) (i : Item) : Bytes :=
  if i.began.isEmpty ∧ 0x3000 ≤ i.flow ∧ i.flow < 0x4000 then mgetD s.gens.active.vids (i.flow - 0x3000) [] else i.began

/-- A free consumer takes the highest-ranked item, where the rotating pointer does not give it to another; a domain that is off is woken
first (R117, R118, R131, R601). -/
def dispatch (b p : Nat) (s : State) : State :=
  if consumerFree s b p ∧ s.coreClock then
    match nextItem s b with
    | none => s
    | some (o, i) =>
      if s.domainReady (serverOf s b) then
        if takerOf s o i ≠ some (b, p) then s
        else match badEntry s b i with
        | some q => discardEntry q o i s
        | none =>
          let ns := (s.up - i.readyAt) / tNs
          let s := s.modClover fun c =>
            { c with items := mset c.items o { i with state := .inService b p, began := startsUnder s i }, dispatched := true, cptr := (b * 9 + p + 1) % 324
                     stats := bumpMax c.stats (0x20 + 4 * i.level) ns }
          fireInjection b p (startItem b p i (s.modPower fun x => { x with idle := false }))
      else wakeDomain (serverOf s b) s
  else s

/-- The item in service on a flow, with its order. -/
def serviceOf (s : State) (flow : Nat) : Option (Nat × Item) := s.rt.clover.items.find? fun i => i.2.flow == flow && i.2.serving

/-- What a firmware item computes waits in its shadow page for its completion (R138). -/
def deferWork (order : Nat) (w : Work) (s : State) : State :=
  s.modClover fun c => { c with items := mupd c.items order fun i => { i with work := some w } }

/-- A meaning applied as of an earlier tick. -/
def atTick (tick : Nat) (f : State → State) (s : State) : State :=
  let r := f ((s.modTime fun b => { b with now := tick * tMs }).modClover fun c => { c with tick := tick })
  (r.modTime fun b => { b with now := s.now }).modClover fun c => { c with tick := s.rt.clover.tick }

/-- The tick that ended last, as descriptors carry it (R15, R110). -/
def endedTick (s : State) : Nat := (s.now / tMs + 4294967295) % 4294967296

/-- An item completes: the selector of its context flips, and what it produced becomes visible in its turn (R122, R138). -/
def completeItem (b p : Nat) (s : State) : State :=
  match s.rt.clover.running b p with
  | none => s
  | some (o, i) =>
    let s := if flowKind i.flow = 1 ∧ i.flow ≠ noFlow then
        s.modFault fun f => { f with selectors := mset f.selectors i.flow (1 - mgetD f.selectors i.flow 0) }
      else s
    let s := if i.replayed && !i.past (endedTick s) then bumpFault 8 1 s else s
    raiseReserves s (endPressure (stopCore b p (s.modClover (Clover.finish o i s.up))))

/-- Whether the item of a core that runs an image may end: DONE is written and its DMA is idle (R428). -/
def coreDone (s : State) (b p : Nat) : Bool :=
  match if b < 16 then coreKey s b p else none with
  | none => true
  | some k =>
    let c := s.core k
    (partitionOf s.gens.active b).isNone || (c.done && c.dma.all fun d => !d.busy)

/-! Commands (R156 to R159). -/

/-- A bit map of sites. -/
def siteMap (l : List Nat) : Nat := l.foldl (fun m x => m ||| 2 ^ x) 0

/-- FAULT.STATUS (R157). -/
def cmdFaultStatus : Cmd where
  code := 0x0400
  len := len1 4
  safe := true
  fails := fun r _ _ => fldFails r.params [rng 0 1 0 29, rsv 1 3]
  run := fun r _ s =>
    let b := u8 r.params 0
    let f := s.seen.fault
    let c := f.cluster b
    let maps := if b < 16 then
        [siteMap ((c.pos.filter fun p => p.1 < 8).map (·.2)), siteMap c.spare.toList, siteMap c.fenced]
      else [b2n (f.placeOf b).isSome, b2n (f.spares.contains b), b2n (f.enginesFenced.contains b)]
    let standing := if b = 24 ∨ b = 29 then (f.placeOf b).getD 0xFF else 0xFF
    okWith s (block 24 [(0, 2, maps.getD 0 0), (2, 2, maps.getD 1 0), (4, 2, maps.getD 2 0),
      (6, 2, mgetD s.seen.test.health b 0), (8, 4, blockLimit s.seen.power.point f b), (0xC, 4, blockDemand s.seenGen f b),
      (0x10, 1, standing), (0x11, 1, b2n (decide (b < 16) && c.sheds))])

/-- FAULT.STATS (R158). -/
def cmdFaultStats : Cmd where
  code := 0x0401
  len := len1 4
  safe := true
  fails := fun r _ _ => fldFails r.params [rng 0 1 0 1, rsv 1 3]
  run := fun r _ s =>
    okWith (if u8 r.params 0 = 1 then
      s.clearSeen (fun b rt => { rt with fault := { rt.fault with stats := lessSeen rt.fault.stats b.fault.stats } }) else s)
      (block 64 (s.seen.fault.stats.map fun e => (e.1, 4, e.2)))

/-- FAULT.INJECT (R156, R159, R640). -/
def cmdFaultInject : Cmd where
  code := 0x0402
  len := len1 8
  fails := fun r _ s =>
    let b := u8 r.params 0
    fldFails r.params [rng 0 1 0 29, rng 1 1 0 (if b < 16 then 8 else 0), rsv 3 5,
      oneOf 2 1 (if b < 16 then [1, 2, 3, 4] else if b < 25 then [6] else [8])] ++
    failIf (decide (2 ≤ s.lifecycle)) .deniedLifecycle s.lifecycle ++ failIf (s.underTest b) .wrongState 1
  run := fun r _ s =>
    okWith (s.modFault fun f => { f with injections := mset f.injections (u8 r.params 0 * 16 + u8 r.params 1) (u8 r.params 2) })

def execFaultStatus (r : Request) (s : State) : Host.Outcome State Fault Refusal := execCmd cmdFaultStatus r s
def execFaultStats (r : Request) (s : State) : Host.Outcome State Fault Refusal := execCmd cmdFaultStats r s
def execFaultInject (r : Request) (s : State) : Host.Outcome State Fault Refusal := execCmd cmdFaultInject r s

end Sys2Proof.Machine
end

