-- ==== Sys2Proof/Machine/Sec.lean ====
section
/-! DEFINITION. The media security engine: key store, derivation, generic service, user pages (R340 to R375). -/

namespace Sys2Proof.Machine

/-! Slots. -/

/-- The last slot for the host (R340). -/
def lastHostSlot : Nat := 65519

/-- A counter of a slot: 0 authentication failures, 1 replay discards, 2 grace acceptances. -/
def bumpSlot (slot i : Nat) (s : State) : State := s.modSec fun x => { x with counts := bump x.counts (4 * slot + i) }

/-- The slot that a queue request names, where it is usable: held, of a kind, and bound to no page (R352, R353, R366). -/
def Sec.usable (x : Sec) (slot kind : Nat) : Option KeySlot :=
  match mget x.slots slot with
  | some k => if k.kind = kind ∧ !mhas x.pages slot then some k else none
  | none => none

/-- The tag octets of a profile (R357). -/
def tagLen (profile : Nat) (rtcp : Bool) : Nat :=
  if 5 ≤ profile then 16 else if (profile = 2 ∨ profile = 4) ∧ !rtcp then 4 else 10

/-! Derivation (R346). -/

/-- The octets of an ASCII label. -/
def ascii (l : String) : Bytes := l.toList.map fun c => BitVec.ofNat 8 c.toNat

/-- A key of L bits from the root key, a label and a context. -/
def kdf (root : Bytes) (label : String) (context : Bytes) (l : Nat) : Bytes :=
  let k := fun i => slice (Config.cmac root (be 4 i ++ ascii label ++ [0] ++ context ++ be 4 l)) 0 16
  (k 1 ++ k 2).take (l / 8)

/-- The device identifier as SYS.INFO returns it. -/
def idBytes : Bytes := le 8 Config.deviceId.toNat

/-- The device-internal slots are derived again at a boot; without a root key they stay empty (R340, R343). -/
def deriveInternal (s : State) : State :=
  if s.rt.mgmt.rootKey.isEmpty then s
  else
    let key := fun l => ({ kind := 3, key := kdf s.rt.mgmt.rootKey l idBytes 256 } : KeySlot)
    s.modSec fun x => { x with slots := mset (mset x.slots 65534 (key "LNR-TRANSPORT")) 65535 (key "LNR-RECORDER") }

/-- The key store is zeroised: slots, counters and page bindings (R343); detail as R375. -/
def zeroise (detail : Nat) (s : State) : State :=
  (s.modSec fun x => { x with slots := [], pages := [], installs := [], counts := [] }).post 0x0A86 2 0 detail

/-! SRTP acceptance (R350, R354, R358). -/

/-- The index that a sequence number stands for, against a reference index (RFC 3711, appendix A). -/
def estimateIndex (ref seq : Nat) : Nat :=
  let roc := ref / 65536
  let sl := ref % 65536
  let v := if sl < 32768 then if 32768 < (seq : Int) - sl then roc - 1 else roc
    else if (seq : Int) < (sl : Int) - 32768 then roc + 1 else roc
  v * 65536 + seq

/-- What a send request meets. -/
inductive SendResult where
  | index (n : Nat) | absent | exhausted
  deriving DecidableEq, Repr

/-- A slot's near-exhaustion event, raised once (R354). -/
def nearEvent (slot which : Nat) (k : KeySlot) (s : State) : State :=
  if k.near.getLsbD (which - 1) then s
  else
    let s := s.modSec fun x => { x with slots := mupd x.slots slot fun k => { k with near := k.near ||| (1#3 <<< (which - 1)) } }
    s.post 0x0A81 2 slot which

/-- A request on a used-up counter is refused (R354, R355). -/
def refuseKey (slot which : Nat) (s : State) : State := (bumpSec 11 s).post 0x0A80 3 slot which

/-- A send request on a kind 1 slot takes its index; seq is given for a subscription (R350, R354). -/
def acceptSend (slot : Nat) (rtcp : Bool) (seq : Option Nat) (s : State) : SendResult × State :=
  match s.rt.sec.usable slot 1 with
  | none => (.absent, bumpSec 8 s)
  | some k =>
    if rtcp then
      if 2 ^ 31 ≤ k.rtcp then (.exhausted, refuseKey slot 2 s)
      else
        let s := s.modSec fun x => { x with slots := mupd x.slots slot fun k => { k with rtcp := k.rtcp + 1 } }
        (.index k.rtcp, if 2 ^ 30 ≤ k.rtcp then nearEvent slot 2 k s else s)
    else
      let n := match seq with
        | some q => estimateIndex (k.highest.getD k.index) q
        | none => k.index
      if 2 ^ 48 ≤ n ∨ (k.highest.getD 0 = 2 ^ 48 - 1) then (.exhausted, refuseKey slot 1 s)
      else
        let s := s.modSec fun x => { x with slots := mupd x.slots slot fun k =>
          match seq with
          | some _ => { k with highest := some (Nat.max n (k.highest.getD 0)), index := Nat.max k.index (n + 1) }
          | none => { k with index := n + 1 } }
        (.index n, if 2 ^ 47 ≤ n then nearEvent slot 1 k s else s)

/-- Whether an index lies within a window and has not been seen (R358). -/
def Window.fresh (w : Window) (n : Nat) : Bool :=
  match w.top with
  | none => true
  | some t => if t < n then true else decide (t < n + 128) && !w.seen.getLsbD (t - n)

/-- A window once an index has been authenticated. -/
def Window.mark (w : Window) (n : Nat) : Window :=
  match w.top with
  | none => { top := some n, seen := 1 }
  | some t => if t < n then { top := some n, seen := (w.seen <<< (n - t)) ||| 1 } else { w with seen := w.seen ||| (1#128 <<< (t - n)) }

/-- The index of a received packet: an estimate for SRTP, the explicit one for SRTCP (R358). -/
def packetIndex (profile : Nat) (rtcp : Bool) (w : Window) (p : Bytes) : Nat :=
  if rtcp then
    let o := if 5 ≤ profile then p.length - 4 else p.length - tagLen profile true - 4
    beNat (slice p o 4) % 2 ^ 31
  else
    let q := beNat (slice p 2 2)
    match w.top with
    | none => q
    | some t => estimateIndex t q

/-- What a received packet meets: its plain octets, or the place of its discard in KEY.STATS from 1. -/
abbrev Opened := Except Nat Bytes

/-- A received packet is checked in the order of R358, with the grace key where one is held (R351). -/
def acceptReceive (slot : Nat) (rtcp : Bool) (p : Bytes) (s : State) : Opened × State :=
  if 9216 < p.length then (.error 9, bumpSec 9 s)
  else match s.rt.sec.usable slot 2 with
    | none => (.error 8, bumpSec 8 s)
    | some k =>
      let need := 12 + tagLen k.profile rtcp
      if p.length < need then (.error 6, bumpSlot slot 0 (bumpSec 6 s))
      else
        let w := if rtcp then k.winC else k.win
        let n := packetIndex k.profile rtcp w p
        if !w.fresh n then (.error 7, bumpSlot slot 1 (bumpSec 7 s))
        else match Config.srtpOpen k.profile k.key k.salt rtcp n p with
          | some d =>
            (.ok d, s.modSec fun x => { x with slots := mupd x.slots slot fun k =>
              if rtcp then { k with winC := k.winC.mark n } else { k with win := k.win.mark n } })
          | none =>
            match k.grace with
            | none => (.error 6, bumpSlot slot 0 (bumpSec 6 s))
            | some g =>
              let gw := if rtcp then g.winC else g.win
              let m := packetIndex k.profile rtcp gw p
              match if gw.fresh m then Config.srtpOpen k.profile g.key g.salt rtcp m p else none with
              | none => (.error 6, bumpSlot slot 0 (bumpSec 6 s))
              | some d =>
                let g' := if rtcp then { g with winC := g.winC.mark m } else { g with win := g.win.mark m }
                (.ok d, bumpSlot slot 2 (bumpSec 10 (s.modSec fun x =>
                  { x with slots := mupd x.slots slot fun k => { k with grace := some g' } })))

/-! The generic service (R363, R364). -/

/-- The result of a generic operation: 0 done, 2 authentication failure, 3 length, 4 counter. -/
structure Generic where
  result : Nat
  out : Bytes := []
  tag : Bytes := []
  iv : Bytes := []
  deriving DecidableEq, Repr

/-- Whether an operation is GCM. -/
def isGcm (op : Nat) : Bool := op == 5 || op == 6

/-- The refusal of R364, as a page reports it: 3 a length, 4 a counter. -/
def lengthRefusal (op : Nat) (iv : Bytes) (n : Nat) : Option Nat :=
  if op ≤ 3 ∧ n % 16 ≠ 0 then some 3
  else if op = 6 ∧ 65536 < n then some 3
  else if op = 4 ∧ 2 ^ 32 < beNat (slice iv 12 4) + ceilDiv n 16 then some 4
  else if isGcm op ∧ 2 ^ 32 < 2 + ceilDiv n 16 then some 4
  else none

/-- A generic operation on a key snapshot (R363, R364). -/
def genericOp (op : Nat) (key iv aad data tag : Bytes) : Generic :=
  match lengthRefusal op iv data.length with
  | some r => { result := r }
  | none =>
    if op = 7 then { result := 0, tag := slice (Config.sha256 data) 0 32 }
    else if op = 8 then { result := 0, tag := slice (Config.hmac key data) 0 32 }
    else
      let out := slice (Config.cipher key op iv aad data) 0 data.length
      let t := slice (Config.cipherTag key op iv aad data) 0 16
      if op = 6 ∧ t ≠ slice tag 0 16 then { result := 2 }
      else
        { result := 0, out := out, tag := if isGcm op then t else []
          iv := if isGcm op then slice iv 0 12 else if 2 ≤ op then slice (Config.cipherIv key op iv data) 0 16 else [] }

/-- A device IV of a kind 3 slot with a fixed field: the IV, or none where the counter is used up (R355). -/
def deviceIv (slot : Nat) (k : KeySlot) (s : State) : Option Bytes × State :=
  if 2 ^ 64 ≤ k.index then (none, refuseKey slot 3 s)
  else
    let s := s.modSec fun x => { x with slots := mupd x.slots slot fun k => { k with index := k.index + 1 } }
    (some (slice k.salt 0 4 ++ be 8 k.index), if 2 ^ 63 ≤ k.index then nearEvent slot 3 k s else s)

/-! Commands (R371 to R374). -/

/-- DENIED_LIFECYCLE in DECOMMISSIONED (R348). -/
def keyDenied (s : State) : List Fail := failIf (s.lifecycle == 4) .deniedLifecycle s.lifecycle

/-- KEY.STATUS (R374). -/
def cmdKeyStatus : Cmd where
  code := 0x0A00
  len := len1 0
  safe := true
  block := some 31
  run := fun _ _ s =>
    okWith s (block 16 [(0, 1, siteMap (enginesIn s.seen)), (1, 1, b2n s.seen.sec.enabled),
      (4, 4, (s.seen.sec.slots.filter fun k => k.1 ≤ lastHostSlot).length), (8, 4, s.seen.sec.mismatches)])

/-- Key lengths that a kind and profile allow (R341, R347, R357). -/
def keyLenOk (kind profile n : Nat) : Bool :=
  if kind ≤ 2 then n == (if profile = 3 ∨ profile = 4 ∨ profile = 6 then 32 else 16)
  else if kind = 3 then n == 16 || n == 32
  else 16 ≤ n && n ≤ 32

/-- Salt lengths that a kind and profile allow. -/
def saltLenOk (kind profile n : Nat) : Bool :=
  if kind ≤ 2 then n == (if 5 ≤ profile then 12 else 14) else if kind = 3 then n == 0 || n == 4 else n == 0

/-- Whether the 48 octets of key and salt hold zeros past the two lengths. -/
def zeroFill (m : Bytes) (k l : Nat) : Bool := allZero (slice m k (32 - k)) && allZero (slice m (32 + l) (16 - l))

/-- The key and salt octets of an install, where its material is good (R347, R348). -/
def installMaterial (p : Bytes) (x : Sec) : Except Fail Bytes :=
  let k := u8 p 0x14; let l := u8 p 0x15
  if u8 p 6 = 0 then
    if zeroFill (slice p 0x18 48) k l && allZero (slice p 0x48 8) then .ok (slice p 0x18 48) else .error (.badParam, 0x38)
  else match mget x.slots 65534 with
    | none => .error (.keyAbsent, 0)
    | some t => match Config.keyUnwrap t.key (slice p 0x18 56) with
      | some m => if zeroFill m k l then .ok (slice m 0 48) else .error (.authFailed, 0)
      | none => .error (.authFailed, 0)

/-- A key is written into a slot, in one step (R350). -/
def writeSlot (slot : Nat) (k : KeySlot) (s : State) : State :=
  s.modSec fun x => { x with slots := mset x.slots slot k, installs := bump x.installs slot }

/-- The index with which a slot starts: as given, below 2^15 by the device's choice, or the old slot's (R349). -/
def startIndex (p : Bytes) (fresh : Nat) (old : Option KeySlot) (k : KeySlot) : KeySlot :=
  match u8 p 7, old with
  | 0, _ => if k.kind = 1 then { k with index := u64 p 8, rtcp := u32 p 0x10 }
    else if k.kind = 3 then { k with index := u64 p 8 } else k
  | 1, _ => { k with index := fresh % 32768 }
  | _, some o => { k with index := o.index, rtcp := o.rtcp, highest := o.highest, win := o.win, winC := o.winC, near := o.near }
  | _, none => k

/-- The grace key that a receive slot keeps of the one it replaces (R351). -/
def graceOf (p : Bytes) (old : Option KeySlot) (up : Time) (k : KeySlot) : Option Grace :=
  match old with
  | some o => if k.kind = 2 ∧ o.kind = 2 ∧ o.profile = k.profile ∧ u16 p 0x16 ≠ 0 then
      some { key := o.key, salt := o.salt, win := o.win, winC := o.winC, until_ := up + u16 p 0x16 * tMs }
    else none
  | none => none

/-- The key that an install puts into a slot (R347 to R351). -/
def installedKey (p m : Bytes) (old : Option KeySlot) (fresh : Nat) (up : Time) : KeySlot :=
  let k := startIndex p fresh old
    { kind := u8 p 4, profile := u8 p 5, key := slice m 0 (u8 p 0x14), salt := slice m 32 (u8 p 0x15) }
  { k with grace := graceOf p old up k }

/-- KEY.INSTALL (R347 to R351). -/
def cmdKeyInstall : Cmd where
  code := 0x0A01
  len := len1 88
  safe := true
  block := some 31
  fails := fun r _ s =>
    let p := r.params
    let kind := u8 p 4
    let src := u8 p 7
    let old := mget s.rt.sec.slots (u32 p 0)
    fldFails p [rng 0 4 0 lastHostSlot, rng 4 1 1 4, rng 5 1 (if kind ≤ 2 then 1 else 0) (if kind ≤ 2 then 6 else 0), rng 6 1 0 1,
      rng 7 1 0 2, rng 8 8 0 (if kind = 1 then 2 ^ 48 - 1 else 2 ^ 64 - 1), rng 0x10 4 0 (if kind = 1 then 0x7FFFFFFF else 2 ^ 32 - 1),
      (0x14, 1, keyLenOk kind (u8 p 5)), (0x15, 1, saltLenOk kind (u8 p 5)),
      rng 0x16 2 0 (if kind = 2 then 10000 else 0), rsv 0x50 8] ++
    badIf (src == 1 && kind != 1) 7 ++
    (match installMaterial p s.rt.sec with
      | .error f => [f]
      | .ok _ => []) ++
    failIf (s.lifecycle == 3 && u8 p 6 == 0) .deniedLifecycle 3 ++ keyDenied s ++
    failIf (src == 2 && (match old with
      | some k => k.kind != kind || k.profile != u8 p 5
      | none => true)) .wrongState 1
  run := fun r _ s =>
    let p := r.params
    let slot := u32 p 0
    let m := match installMaterial p s.rt.sec with
      | .ok m => m
      | .error _ => []
    let d := s.draw
    okWith (writeSlot slot (installedKey p m (mget s.rt.sec.slots slot) d.1 s.up) (if u8 p 7 = 1 then d.2 else s))

/-- A grace key is dropped when its time ends (R351). -/
def execGraceKeyExpiry (t : Time) (slot : Nat) (s : State) : Host.Outcome State Fault Refusal :=
  let s := s.advance t
  done (s.modSec fun x => { x with slots := mupd x.slots slot fun k =>
    match k.grace with
    | some g => if g.until_ ≤ s.up then { k with grace := none } else k
    | none => k })

/-- An error in a slot: a single-bit one is corrected and counted, an uncorrectable one empties the slot (R344). -/
def execKeySlotLost (t : Time) (e : SlotError) (s : State) : Host.Outcome State Fault Refusal :=
  let s := s.advance t
  done (if 65536 ≤ e.slot then s
    else if e.single then bumpSec 12 s
    else (s.modSec fun x => { x with slots := mdel x.slots e.slot }).post 0x0A85 3 e.slot 0)

/-- KEY.ERASE (R352, R372). -/
def cmdKeyErase : Cmd where
  code := 0x0A02
  len := len1 8
  safe := true
  block := some 31
  fails := fun r _ s =>
    fldFails r.params [rng 0 4 0 lastHostSlot, rng 4 4 1 65520] ++
    badIf (decide (lastHostSlot + 1 < u32 r.params 0 + u32 r.params 4)) 4 ++ keyDenied s
  run := fun r _ s =>
    let a := u32 r.params 0
    okWith (s.modSec fun x => { x with slots := mkeep x.slots fun k _ => k < a || a + u32 r.params 4 ≤ k })

/-- KEY.QUERY (R373). -/
def cmdKeyQuery : Cmd where
  code := 0x0A03
  len := len1 4
  safe := true
  block := some 31
  fails := fun r _ s => fldFails r.params [rng 0 4 0 65535] ++ keyDenied s
  run := fun r _ s =>
    let n := u32 r.params 0
    let x := s.seen.sec
    let c := fun i => mgetD x.counts (4 * n + i) 0
    let tail := [(2, 1, mgetD x.pages n 0xFF), (4, 4, mgetD x.installs n 0), (0x14, 4, c 0), (0x18, 4, c 1), (0x1C, 4, c 2)]
    okWith s (block 32 (match mget x.slots n with
      | none => tail
      | some k =>
        let gone := (k.kind == 1 && (decide (2 ^ 48 ≤ k.index) || decide (2 ^ 31 ≤ k.rtcp))) || (k.kind == 3 && decide (2 ^ 64 ≤ k.index))
        let idx := if k.kind = 2 then k.win.top.getD 0 else k.index
        [(0, 1, k.kind), (1, 1, k.profile), (3, 1, if gone then 1 else if k.grace.isSome then 2 else 0), (8, 8, idx),
          (0x10, 4, if k.kind = 2 then k.winC.top.getD 0 else k.rtcp)] ++ tail))

/-- KEY.BIND (R366, R372). -/
def cmdKeyBind : Cmd where
  code := 0x0A04
  len := len1 8
  safe := true
  block := some 31
  fails := fun r _ s => fldFails r.params [rng 0 4 0 lastHostSlot, (4, 1, fun v => v < 16 || v == 0xFF), rsv 5 3] ++ keyDenied s
  run := fun r _ s =>
    let n := u32 r.params 0
    okWith (s.modSec fun x => { x with pages := if u8 r.params 4 = 0xFF then mdel x.pages n else mset x.pages n (u8 r.params 4) })

/-- KEY.DERIVE (R346, R372). -/
def cmdKeyDerive : Cmd where
  code := 0x0A05
  len := len1 24
  safe := true
  block := some 31
  fails := fun r _ s =>
    fldFails r.params [rng 0 4 0 lastHostSlot, rng 4 1 3 4, oneOf 5 1 [16, 32], rsv 6 2] ++ keyDenied s
  run := fun r _ s =>
    let p := r.params
    okWith (writeSlot (u32 p 0)
      { kind := u8 p 4, key := kdf s.rt.mgmt.rootKey "LNR-HOST" (idBytes ++ slice p 8 16) (8 * u8 p 5) } s)

/-- The octets of output before the result block of an operation. -/
def cryptOut (op n : Nat) : Nat := if op = 7 ∨ op = 8 then 0 else n

/-- The key of a generic operation: its slot's, where it is usable (R363). -/
def cryptKey (op : Nat) (dev : Bool) (k : Option KeySlot) : Option Bytes :=
  match k with
  | some k => if dev && k.salt.length != 4 then none else some k.key
  | none => if op = 7 then some [] else none

/-- The initial vector of a generic operation: as given, or the device's; none where the slot's invocations are used up (R350). -/
def cryptIv (p : Bytes) (slot : Nat) (dev : Bool) (k : Option KeySlot) (s : State) : Option Bytes × State :=
  match k with
  | some k => if dev then if k.salt.length = 4 then deviceIv slot k s else (some [], s) else (some (slice p 8 16), s)
  | none => (some (slice p 8 16), s)

/-- A generic operation enters the host queue: it is accepted with a snapshot of its slot (R350, R363). -/
def acceptCrypt (mailbox : Nat) (p : Bytes) (s : State) : Crypt × State :=
  let op := u8 p 4
  let slot := u32 p 0
  let k := s.rt.sec.usable slot (if op = 8 then 4 else 3)
  let dev := op == 5 && bit (u8 p 5) 0
  let v := cryptIv p slot dev k s
  ({ slot := mailbox, key := cryptKey op dev k, iv := v.1.getD [], refused := v.1.isNone }, bumpSec 4 v.2)

/-- The operations that waited at their producer enter the host queue in order (R350, R360). -/
def acceptWaiting (s : State) : State :=
  s.rt.sec.crypts.foldl (fun s c =>
    match s.senak.pending.find? fun p => p.code == 0x0A06 && p.slot == c.slot with
    | some p =>
      if c.waits then
        let v := acceptCrypt c.slot p.params s
        v.2.modSec fun x => { x with crypts := x.crypts ++ [v.1] }
      else s.modSec fun x => { x with crypts := x.crypts ++ [c] }
    | none => s) (s.modSec fun x => { x with crypts := [] })

/-- KEY.CRYPT: accepted at once, or once the queues are enabled (R350, R360, R363). -/
def cmdKeyCrypt : Cmd where
  code := 0x0A06
  len := len1 64
  block := some 31
  fails := fun r _ s =>
    let p := r.params
    let op := u8 p 4
    let aad := if isGcm op then u32 p 0x18 else 0
    fldFails p [rng 0 4 0 (if op = 7 then 2 ^ 32 - 1 else lastHostSlot), rng 4 1 0 8, rng 5 1 0 (if op = 5 then 1 else 0), rsv 6 2,
      rng 0x18 4 0 65536, rng 0x1C 4 0 16777216, (0x28, 8, fun v => v % 64 == 0)] ++
    badIf (!inHwin s.rt.dram (u64 p 0x20) (aad + u32 p 0x1C)) 0x20 ++
    badIf (!inHwin s.rt.dram (u64 p 0x28) (cryptOut op (u32 p 0x1C) + 48)) 0x28 ++ keyDenied s
  run := fun r _ s =>
    let s := if s.rt.sec.enabled then
        let v := acceptCrypt r.slot.val r.params s
        v.2.modSec fun x => { x with crypts := x.crypts ++ [v.1] }
      else s.modSec fun x => { x with crypts := x.crypts ++ [{ slot := r.slot.val, waits := true, key := none, iv := [] }] }
    { status := .pending, st := s.addPending 0x0A06 0 r }

/-- The generic operation of the oldest KEY.CRYPT completes on an engine, under duplicated computation (R363, R368, R370). -/
def execKeyCryptDone (r : CryptoRun) (s : State) : Host.Outcome State Fault Refusal :=
  let s := s.advance r.at_
  match s.rt.sec.crypts, s.findPending 0x0A06 0 with
  | c :: l, some pc =>
    if s.rt.sec.enabled then
      let p := pc.params
      let op := u8 p 4
      let s := runOn r.engine.val r.mismatch.val (secTurn 3 (s.modSec fun x => { x with crypts := l }))
      if (enginesUp s).isEmpty then done (s.endPending pc .internalFault 0x31)
      else match c.key with
        | none => done ((bumpSec 8 s).endPending pc .keyAbsent 0)
        | some key =>
          if c.refused then done (s.endPending pc .badLength 0)
          else
            let aad := if isGcm op then u32 p 0x18 else 0
            let m := s.rt.dram.mem
            let g := genericOp op key c.iv (memRead m (u64 p 0x20) aad) (memRead m (u64 p 0x20 + aad) (u32 p 0x1C)) (slice p 0x30 16)
            if g.result = 2 then done ((bumpSec 6 s).endPending pc .authFailed 0)
            else if g.result ≠ 0 then done (s.endPending pc .badLength 0)
            else
              let out := g.out ++ slice g.tag 0 32 ++ slice g.iv 0 16
              done ((s.dramWrite (u64 p 0x28) out).endPending pc .ok 0)
    else done s
  | _, _ => done s

/-- KEY.QUEUES (R360, R372); in safe boot the queues cannot be enabled. -/
def cmdKeyQueues : Cmd where
  code := 0x0A07
  len := len1 4
  safe := true
  block := some 31
  fails := fun r _ s =>
    fldFails r.params [rng 0 1 0 1, rsv 1 3] ++ keyDenied s ++ failIf (s.senak.safeBoot && u8 r.params 0 == 1) .wrongState 8
  run := fun r _ s => 
    let s := s.modSec fun x => { x with enabled := u8 r.params 0 == 1 }
    okWith (if u8 r.params 0 = 1 then acceptWaiting s else s)

/-- KEY.STATS (R374). -/
def cmdKeyStats : Cmd where
  code := 0x0A08
  len := len1 4
  safe := true
  block := some 31
  fails := fun r _ s => fldFails r.params [rng 0 1 0 1, rsv 1 3] ++ keyDenied s
  run := fun r _ s =>
    let m := s.seen.sec.stats
    okWith (if u8 r.params 0 = 1 then
      s.clearSeen (fun b rt => { rt with sec := { rt.sec with stats := lessSeen rt.sec.stats b.sec.stats } }) else s)
      (block 64 (m.map fun e => (e.1, 4, e.2)))

def execKeyStatus (r : Request) (s : State) : Host.Outcome State Fault Refusal := execCmd cmdKeyStatus r s
def execKeyInstall (r : Request) (s : State) : Host.Outcome State Fault Refusal := execCmd cmdKeyInstall r s
def execKeyErase (r : Request) (s : State) : Host.Outcome State Fault Refusal := execCmd cmdKeyErase r s
def execKeyQuery (r : Request) (s : State) : Host.Outcome State Fault Refusal := execCmd cmdKeyQuery r s
def execKeyBind (r : Request) (s : State) : Host.Outcome State Fault Refusal := execCmd cmdKeyBind r s
def execKeyDerive (r : Request) (s : State) : Host.Outcome State Fault Refusal := execCmd cmdKeyDerive r s
def execKeyCrypt (r : Request) (s : State) : Host.Outcome State Fault Refusal := execCmd cmdKeyCrypt r s
def execKeyQueues (r : Request) (s : State) : Host.Outcome State Fault Refusal := execCmd cmdKeyQueues r s
def execKeyStats (r : Request) (s : State) : Host.Outcome State Fault Refusal := execCmd cmdKeyStats r s

/-! User pages (R365 to R367). -/

/-- A change of a page. -/
def modPage (u : Nat) (f : Page → Page) (s : State) : State := s.modSec fun x => { x with user := mmod x.user u {} f }

/-- GO accepts the page's operation with a snapshot (R350, R366). -/
def pageGo (u : Nat) (s : State) : State :=
  let p := mgetD s.rt.sec.user u {}
  let k := match mget s.rt.sec.slots p.slot with
    | some k => if mget s.rt.sec.pages p.slot = some u ∧ k.kind = (if p.op = 8 then 4 else 3) then some k.key else none
    | none => none
  let res :=
    if (enginesUp s).isEmpty then 6
    else if 8 < p.op then 5
    else if k.isNone ∧ p.op ≠ 7 then 1
    else if 2048 < p.dataLen + (if isGcm p.op then p.aadLen else 0) then 3
    else 0
  modPage u (fun p => { p with busy := true, snap := some (k, res) }) (bumpSec 5 s)

/-- A write to a page register or its data buffer; ignored and counted while BUSY is 1 (R365, R366). -/
def pageWrite (u off v : Nat) (s : State) : State :=
  let p := mgetD s.rt.sec.user u {}
  if p.busy then modPage u (fun p => { p with err := satAdd 65535 p.err 1 }) s
  else if 0x800 ≤ off then modPage u (fun p => { p with buf := memWrite p.buf (off - 0x800) (le 4 v) }) s
  else if off = 0 then
    let s := modPage u (fun p => { p with op := bits v 7 4, part := bits v 9 8 }) s
    if bit v 0 then pageGo u s else s
  else if off = 4 then modPage u (fun p => { p with slot := bits v 15 0 }) s
  else if off = 8 then modPage u (fun p => { p with dataLen := bits v 11 0, aadLen := bits v 27 16 }) s
  else if off = 0xC then modPage u (fun p => { p with done := p.done && !bit v 1 }) s
  else if 0x10 ≤ off ∧ off < 0x20 then modPage u (fun p => { p with iv := putAt p.iv (off - 0x10) (le 4 v) }) s
  else if 0x20 ≤ off ∧ off < 0x40 then modPage u (fun p => { p with out := putAt p.out (off - 0x20) (le 4 v) }) s
  else s

/-- The value of a page register. -/
def pageRead (u off : Nat) (x : Sec) : Nat :=
  let p := mgetD x.user u {}
  if 0x800 ≤ off then uN (memRead p.buf (off - 0x800) 4) 0 4
  else if off = 0 then p.op * 16 + p.part * 256
  else if off = 4 then p.slot
  else if off = 8 then p.dataLen + p.aadLen * 65536
  else if off = 0xC then b2n p.busy + 2 * b2n p.done + 256 * p.result
  else if 0x10 ≤ off ∧ off < 0x20 then u32 p.iv (off - 0x10)
  else if 0x20 ≤ off ∧ off < 0x40 then u32 p.out (off - 0x20)
  else if off = 0x40 then p.err
  else 0

/-- A page's operation runs on an engine to its result in the page's buffer (R363 to R366, R368). -/
def pageDone (u engine mismatch : Nat) (s : State) : State :=
  let p := mgetD s.rt.sec.user u {}
  match p.snap with
  | none => s
  | some (k, res) =>
    let s := runOn engine mismatch (secTurn (4 + u) s)
    let fin := fun (r : Nat) (f : Page → Page) =>
      modPage u (fun p => { f p with busy := false, done := true, result := r, snap := none })
        (if r = 1 then bumpSec 8 s else if r = 2 then bumpSec 6 s else s)
    if (enginesUp s).isEmpty then fin 6 id
    else if res ≠ 0 then fin res id
    else
      let aadN := if isGcm p.op then p.aadLen else 0
      let data := memRead p.buf aadN p.dataLen
      if p.op = 7 ∨ p.op = 8 then
        let msg := if p.part = 0 ∨ p.part = 1 then data else p.message ++ data
        if p.part = 1 ∨ p.part = 2 then fin 0 fun p => { p with message := msg }
        else fin 0 fun p => { p with message := [], out := (genericOp p.op (k.getD []) [] [] msg []).tag }
      else
        let g := genericOp p.op (k.getD []) p.iv (memRead p.buf 0 aadN) data (slice p.out 0 16)
        if g.result ≠ 0 then fin g.result id
        else fin 0 fun p =>
          { p with
            buf := memWrite p.buf aadN g.out, out := if p.op = 5 then putAt p.out 0 g.tag else p.out
            iv := if g.iv.length = 16 then g.iv else p.iv }

def execPageOperationDone (r : CryptoRun) (u : Fin 16) (s : State) : Host.Outcome State Fault Refusal :=
  done (pageDone u.val r.engine.val r.mismatch.val (s.advance r.at_))

end Sys2Proof.Machine
end

