-- ==== Sys2Proof/Machine/TimeBase.lean ====
section
/-! DEFINITION. The time counter, its steps and slews, the servo, and the timed queues (R522 to R540). -/

namespace Sys2Proof.Machine

/-- Rounding half away from zero. -/
def roundRat (q : Rat) : Int := if q < 0 then -((-q + 1 / 2).floor) else (q + 1 / 2).floor

/-! Settings (R544 to R547). -/

def TimeBlk.phaseSrc (b : TimeBlk) : Nat := u8 b.servo 0
def TimeBlk.freqSrc (b : TimeBlk) : Nat := u8 b.servo 1
def TimeBlk.kp (b : TimeBlk) : Nat := u32 b.servo 4
def TimeBlk.ki (b : TimeBlk) : Nat := u32 b.servo 8

/-- The frequency clamp in 0.001 ppb (R522). -/
def TimeBlk.clamp (b : TimeBlk) : Int := (u16 b.servo 0x1C * 1000000 : Nat)

/-- A frequency adjustment within the clamp. -/
def TimeBlk.clamped (b : TimeBlk) (y : Int) : Int := if y < -b.clamp then -b.clamp else if b.clamp < y then b.clamp else y

/-- Whether a frequency source is in service (R531). -/
def TimeBlk.freqIn (b : TimeBlk) : Bool := b.freqSrc != 0 && b.freqPresent

/-- y for the last frequency measurement: −f, in 0.001 ppb. -/
def TimeBlk.minusF (b : TimeBlk) : Int := b.clamped (roundRat (-1000 * b.f))

/-! Holdover frequency (R532). -/

/-- The segments of the last w of time, latest first. -/
def lastSegments (w : Time) : List (Time × Int) → List (Time × Int)
  | [] => []
  | (d, y) :: l => if w = 0 then [] else if w ≤ d then [(w, y)] else (d, y) :: lastSegments (w - d) l

/-- The mean of y over segments, weighted by time; none over no time. -/
def meanY (l : List (Time × Int)) : Option Int :=
  let d := sum (l.map (·.1))
  if d = 0 then none else some (roundDiv (l.foldl (fun a x => a + (x.1 : Int) * x.2) 0) d)

/-- The segments of y in LOCKED, with the one in progress. -/
def TimeBlk.segments (b : TimeBlk) : List (Time × Int) :=
  lastSegments (u16 b.servo 0x18 * tS)
    (if b.state = .locked then (b.up - b.historyFrom, b.y) :: b.history else b.history)

/-- The holdover frequency: the mean over LOCKED, or the stored value. -/
def TimeBlk.holdover (b : TimeBlk) : Int :=
  if b.state = .locked then (meanY b.segments).getD b.stored else b.stored

/-- y takes a value; a segment of LOCKED closes. -/
def TimeBlk.setY (b : TimeBlk) (y : Int) : TimeBlk :=
  { b with y := y, history := b.segments, historyFrom := b.up }

/-- Code of a servo state (R548). -/
def Servo.code : Servo → Nat
  | .freeRun => 0
  | .acquiring => 1
  | .locked => 2
  | .holdover => 3
  | .frequency => 4

/-- Whether BITS_OUT carries its clock: not in Sleep and below, and with squelch only in LOCKED, FREQUENCY and early HOLDOVER (R536, R597). -/
def bitsRuns (s : State) : Bool :=
  let b := s.rt.time
  s.rt.power.state == 0 && (match u8 b.pins 0xB with
    | 0 => false
    | 1 => true
    | _ => b.state == .locked || b.state == .frequency || (b.state == .holdover && !b.limitPassed))

/-- BITS_OUT carries its clock or is held low. -/
def bitsPin (s : State) : State := s.setPin 1 (bitsRuns s)

/-- The servo moves to a state; a change raises TIME.SERVO_STATE (R531, R550). -/
def servoTo (n : Servo) (s : State) : State :=
  let o := s.rt.time.state
  if n = o then s
  else
    let s := s.modTime fun b =>
      { b with
        stored := b.holdover, history := b.segments, historyFrom := b.up, state := n, stateSince := b.up
        lockCount := 0, outliers := 0, limitPassed := false }
    bitsPin (s.post 0x0F80 (if o = .locked then 3 else 1) 0 (o.code * 256 + n.code))

/-! Steps (R526). -/

/-- An instant moved by a signed amount; none lies before 0. -/
def shiftTime (t : Time) (d : Int) : Time := ((t : Int) + d).toNat

/-- Frames of the timed queues move with a step and are counted (R526, R549). -/
def moveTimed (d : Int) (b : TimeBlk) : TimeBlk :=
  { b with
    queues := mall b.queues fun _ q => q.map fun f => { f with launch := shiftTime f.launch d }
    stats := b.queues.foldl (fun m q => bump m (100 * (q.1 + 1) + 15) q.2.length) b.stats }

/-- Ticks are skipped by a step forward, and injection stalls after one back (R113). -/
def stepTicks (old new : Time) (s : State) : State :=
  let r := boundaryAt new
  if old < new then
    let first := Nat.max s.rt.clover.nextInject (nextBoundary { s with rt := { s.rt with time := { s.rt.time with now := old } } })
    if first < r then (s.modClover fun c => { c with nextInject := r }).post 0x0384 3 0 ((r - first) / tMs) else s
  else if new < old then s.post 0x0385 3 0 (ceilDiv (old - new) tMs)
  else s

/-- The counter steps by an amount, rounded to whole 2 ns half away from zero (R526). -/
def stepCounter (amount : Int) (host : Bool) (s : State) : State :=
  let d := roundDiv amount (2 * tNs) * (2 * tNs : Nat)
  let old := s.now
  let new := shiftTime old d
  let s := s.modTime fun b => moveTimed d
    { b with
      now := new, setAt := new, lastPps := b.lastPps.map fun t => shiftTime t d
      steps := satAdd 65535 b.steps 1, stats := bump b.stats (if host then 4 else 3) }
  recStep old new (stepTicks old new (s.post 0x0F81 3 0 (sat32 (roundDiv d tUs))))

/-! The servo (R530, R531). -/

/-- A phase in ns. -/
def thetaNs (theta : Int) : Rat := (theta : Rat) / tNs

/-- An accepted phase measurement updates y (R530). -/
def TimeBlk.update (b : TimeBlk) (theta : Int) : TimeBlk :=
  let th := thetaNs theta
  let s' := b.s + th
  let y := if b.freqIn then -((b.kp : Rat) * th) - 1000 * b.f else -((b.kp : Rat) * th + (b.ki : Rat) * s')
  let r := roundRat y
  let past := b.clamped r != r
  { b.setY (b.clamped r) with s := if b.freqIn || past then b.s else s', stats := bump b.stats 1 }

/-- Whether a measurement is below a threshold in ns. -/
def belowNs (theta : Int) (ns : Nat) : Bool := decide (theta.natAbs < ns * tNs)

/-- Whether a measurement is a step measurement (R531). -/
def TimeBlk.isStep (b : TimeBlk) (theta : Int) : Bool := u32 b.servo 0x0C != 0 && !belowNs theta (u32 b.servo 0x0C)

/-- The servo steps by −θ and resets s (R531). -/
def servoStep (theta : Int) (s : State) : State :=
  (stepCounter (-theta) false s).modTime fun b => { b with s := 0, lockCount := 0, stats := bump b.stats 1 }

/-- TIME.OUTLIER at most once per second, with the outliers since (R550). -/
def outlierEvent (s : State) : State :=
  let s := s.modTime fun b => { b with outliersSince := b.outliersSince + 1 }
  let b := s.rt.time
  let due := match b.outlierAt with
    | some t => decide (t + tS ≤ b.up)
    | none => true
  if due then (s.post 0x0F85 2 0 b.outliersSince).modTime fun b => { b with outlierAt := some b.up, outliersSince := 0 } else s

/-- A phase measurement in the state the servo is in (R531). -/
def phaseMeasure (theta : Int) (s : State) : State :=
  let s := s.modTime fun b => { b with theta := theta }
  let b := s.rt.time
  match b.state with
  | .freeRun | .frequency | .holdover =>
    if b.isStep theta then servoTo .acquiring (servoStep theta s) else servoTo .acquiring (s.modTime (·.update theta))
  | .acquiring =>
    if b.isStep theta then servoStep theta s
    else
      let n := if belowNs theta (u32 b.servo 0x10) then b.lockCount + 1 else 0
      let s := s.modTime fun b => { b.update theta with lockCount := n }
      if 16 ≤ n then servoTo .locked s else s
  | .locked =>
    if belowNs theta (u32 b.servo 0x14) then s.modTime fun b => { b.update theta with outliers := 0 }
    else
      let s := outlierEvent (s.modTime fun b => { b with outliers := b.outliers + 1, stats := bump b.stats 2 })
      if 4 ≤ b.outliers + 1 then servoTo .acquiring s else s

/-- A source's object detail (R550). -/
def sourceDetail (freq : Bool) (code : Nat) : Nat := b2n freq * 256 + code

/-- y returns to −f with a frequency source in service, otherwise to the holdover frequency. -/
def TimeBlk.fallback (b : TimeBlk) : TimeBlk := b.setY (if b.freqIn then b.minusF else b.holdover)

/-- The phase source returns (R531). -/
def phaseReturn (s : State) : State :=
  let s := (s.modTime fun b => { b with phasePresent := true }).post 0x0F84 1 0 (sourceDetail false s.rt.time.phaseSrc)
  if s.rt.time.state = .holdover then
    servoTo .acquiring (s.modTime fun b => { b with s := -(b.y : Rat) / (b.ki : Rat) })
  else s

/-- The phase source is lost (R531). -/
def phaseLost (s : State) : State :=
  let s := (s.modTime fun b => { b with phasePresent := false, stats := bump b.stats 5 }).post 0x0F83 3 0
    (sourceDetail false s.rt.time.phaseSrc)
  match s.rt.time.state with
  | .locked => servoTo .holdover (s.modTime TimeBlk.fallback)
  | .acquiring =>
    let n : Servo := if s.rt.time.freqIn then .frequency else .freeRun
    servoTo n (s.modTime TimeBlk.fallback)
  | _ => s

/-- The frequency source is lost (R531). -/
def freqLost (s : State) : State :=
  let s := (s.modTime fun b => { b with freqPresent := false, stats := bump b.stats 5 }).post 0x0F83 3 0
    (sourceDetail true s.rt.time.freqSrc)
  match s.rt.time.state with
  | .acquiring | .locked => s.modTime fun b => { b with s := 1000 * b.f / (b.ki : Rat) }
  | .frequency => servoTo .freeRun (s.modTime fun b => b.setY b.stored)
  | .holdover => s.modTime fun b => b.setY b.holdover
  | .freeRun => s

/-- A frequency measurement of a second (R529, R531). -/
def freqMeasure (f : Rat) (s : State) : State :=
  let b := s.rt.time
  let wide := decide (100000 < f) || decide (f < -100000)
  if b.freqSrc = 0 then s
  else if wide then if b.freqPresent then freqLost s else s
  else
    let s := s.modTime fun b => { b with f := f, freqPresent := true }
    let s := if b.freqPresent then s else s.post 0x0F84 1 0 (sourceDetail true b.freqSrc)
    match b.state with
    | .freeRun => if b.phaseSrc = 0 then servoTo .frequency (s.modTime fun b => b.setY b.minusF) else s
    | .frequency | .holdover => s.modTime fun b => b.setY b.minusF
    | _ => s

/-- The signed offset of a stamp from the nearest whole second, half-way counting as below (R529). -/
def secondOffset (t : Int) : Int :=
  let r := t % (tS : Nat)
  if r < (tS / 2 : Nat) then r else r - (tS : Nat)

/-! Timed queues (R537 to R540). -/

/-- A frame enters a list in ascending launch time, after those of equal time. -/
def insertTimed (f : Timed) : List Timed → List Timed
  | [] => [f]
  | g :: l => if f.launch < g.launch then f :: g :: l else g :: insertTimed f l

/-- A port counter of TIME.STATS. -/
def bumpPort (port i : Nat) (s : State) : State := s.modTime fun b => { b with stats := bump b.stats (100 * (port + 1) + i) }

/-- A port's tolerance in ns and late action (R540, R547). -/
def launchSetting (b : TimeBlk) (port : Nat) : Nat × Bool :=
  match mget b.launch port with
  | some l => (u32 l 4, u8 l 1 == 1)
  | none => (100000, false)

/-- A frame with a launch time enters its port's queue, or is discarded and counted (R537). -/
def enqueueTimed (port : Nat) (f : Timed) (s : State) : State :=
  if s.now + tS < f.launch then bumpPort port 14 s
  else if 2048 ≤ (mgetD s.rt.time.queues port []).length then bumpPort port 13 s
  else s.modTime fun b => { b with queues := mmod b.queues port [] (insertTimed f) }

/-- TIME.LAUNCH_LATE at most once per second per port (R539). -/
def launchLate (port : Nat) (s : State) : State :=
  let s := s.modTime fun b => { b with lateSince := bump b.lateSince port }
  let b := s.rt.time
  let due := match mget b.lateAt port with
    | some t => decide (t + tS ≤ b.up)
    | none => true
  if due then
    (s.post 0x0F88 2 port (mgetD b.lateSince port 0)).modTime fun b =>
      { b with lateAt := mset b.lateAt port b.up, lateSince := mset b.lateSince port 0 }
  else s

/-- The head of a timed queue is handled by its lateness: the state, and the frame with whether it was dropped (R539). -/
def launchHead (port : Nat) (s : State) : State × Option (Timed × Bool) :=
  match mgetD s.rt.time.queues port [] with
  | [] => (s, none)
  | f :: l =>
    if s.now < f.launch then (s, none)
    else
      let late := s.now - f.launch
      let s := s.modTime fun b =>
        { b with queues := mset b.queues port l, stats := bumpMax b.stats (100 * (port + 1) + 16) (late / tNs) }
      if late < 6 * tNs then (bumpPort port 9 s, some (f, false))
      else if late < f.tolerance * tNs then (bumpPort port 10 s, some (f, false))
      else
        let s := launchLate port s
        if f.drop then (bumpPort port 12 s, some (f, true))
        else (bumpPort port 11 s, some (f, false))

end Sys2Proof.Machine
end

