-- ==== Sys2Proof/Machine/NetBase.lean ====
section
/-! DEFINITION. Ports, their queues, and how a frame leaves (R322 to R324, R502 to R512, R537). -/

namespace Sys2Proof.Machine

/-! Settings. -/

/-- Port settings in force: disabled, 1,522 octets, until a NET.PORT_SET (R516). -/
def Net.port (n : Net) (p : Nat) : Bytes := (mget n.ports p).getD (block 32 [(0, 1, p), (2, 2, 1522), (0xC, 4, 0x80000000), (0x10, 4, 0x80000000)])

/-- A port's mode (R516). -/
def Net.mode (n : Net) (p : Nat) : Nat := u8 (n.port p) 1

/-- Whether a port is up (R503). -/
def Net.isUp (n : Net) (p : Nat) : Bool := mgetD n.up p false

/-- Pair settings in force (R517). -/
def Net.pair (n : Net) (i : Nat) : Bytes := (mget n.pairs i).getD (block 16 [(0, 1, i), (4, 2, 2000), (6, 2, 400), (8, 2, 60)])

/-- The redundancy mode of a port's pair: 0 independent, 1 PRP, 2 HSR (R510). -/
def Net.redundancy (n : Net) (p : Nat) : Nat := u8 (n.pair (p / 2)) 1

/-- The port by which settings and objects name a port: the even one of a PRP or HSR pair (R510). -/
def Net.named (n : Net) (p : Nat) : Nat := if n.redundancy p = 0 then p else p / 2 * 2

/-- A port's bit rate in Mb/s. -/
def Net.mbps (n : Net) (p : Nat) : Nat := if n.mode p = 1 then 10000 else if n.mode p = 0 then 0 else 25000

/-- The correction of a port in 2⁻¹⁶ ns: the set one, or the mode's default (R508). -/
def Net.correction (n : Net) (p : Nat) (egress : Bool) : Int :=
  let b := n.port p
  let v := u32 b (if egress then 0x10 else 0xC)
  if v ≠ 0x80000000 then signed 32 v
  else match u8 b 1, egress with
    | 1, false => -3153920
    | 1, true => 2416640
    | 2, false => -1409024
    | 2, true => 1130496
    | 3, false => -9986048
    | 3, true => 3842048
    | _, _ => 0

/-- A NET.STATS counter by port and place from 1 (R520). -/
def bumpNet (port i : Nat) (s : State) : State := s.modNet fun n => { n with stats := bump n.stats (port * 100 + i) }

/-- A FWD.PORT_STATS counter by port and response offset (R338). -/
def bumpFwd (port off : Nat) (s : State) : State := s.modFwd fun f => { f with stats := bump f.stats (port * 256 + off) }

/-! Packets. -/

/-- An RTP packet of 12 header octets and a payload. -/
def rtpPacket (flow pt : Nat) (marker : Bool) (seq ts ssrc : Nat) (payload : Bytes) : Packet :=
  { kind := 0, flow := flow, pt := pt, marker := marker, seq := seq % 65536, ts := ts % 4294967296, ssrc := ssrc
    data := le 1 0x80 ++ le 1 (b2n marker * 128 + pt) ++ be 2 seq ++ be 4 ts ++ be 4 ssrc ++ payload
    len := 12 + payload.length }

/-- Octets of a frame from the destination MAC through the FCS. -/
def frameLen (o : Outbound) : Nat :=
  let udp := if o.ip = 4 then 28 else if o.ip = 6 then 48 else 0
  if o.packet.kind = 4 then Nat.max 64 (o.packet.data.length + 4) else Nat.max 64 (18 + (if o.vlan = 0 then 0 else 4) + udp + o.packet.data.length)

/-! WFQ queues (R322 to R324). -/

/-- The FWD.QUEUE_SET block of a queue, or of the port settings for queue 15, with the defaults of R335. -/
def queueBlock (g : Generation) (port q : Nat) : Bytes :=
  (mget g.queues (port * 16 + q)).getD
    (block 16 [(0, 1, port), (1, 1, if q = 15 then 0xFF else q), (2, 2, 1), (4, 4, 262144), (8, 2, 20)])

/-- A frame's cost: its length and the port's overhead (R322). -/
def frameCost (g : Generation) (port : Nat) (o : Outbound) : Nat := ((frameLen o : Int) + sN (queueBlock g port 15) 8 2).toNat

/-- Octets in a list of queued frames. -/
def queuedBytes (l : List Queued) : Nat := sum (l.map fun f => frameLen f.out)

/-- A frame arrives at a WFQ queue, or is discarded as queue full (R323, R324). -/
def wfqEnqueue (port q : Nat) (o : Outbound) (s : State) : State :=
  let g := s.gens.active
  let x := mgetD s.rt.fwd.ports port {}
  let l := mgetD x.queues q []
  let n := frameLen o
  let p := s.rt.net.named port
  if u32 (queueBlock g p q) 4 < queuedBytes l + n ∨
      u32 (queueBlock g p 15) 4 < sum (x.queues.map fun e => queuedBytes e.2) + n then bumpFwd port 0x18 s
  else
    let up := s.up
    s.modFwd fun f => { f with ports := mmod f.ports port {} fun x =>
      { x with
        queues := mset x.queues q (l ++ [{ at_ := up, cost := frameCost g p o, out := o }])
        tags := if l.isEmpty then mset x.tags q (Nat.max x.v (mgetD x.tags q 0)) else x.tags } }

/-- The head tag of a queue (R323). -/
def headTag (g : Generation) (port q : Nat) (x : PortQ) (f : Queued) : Nat :=
  mgetD x.tags q 0 + ceilDiv (f.cost * 65536) (u16 (queueBlock g port q) 2)

/-- The queue that a free port chooses, with its head and tag: the smallest tag, exact ties under R16. -/
def wfqChoice (g : Generation) (port : Nat) (x : PortQ) : Option (Nat × Queued × Nat) :=
  leastBy (fun c => c.2.2 * 8 + (c.1 + 8 - x.ptr % 8) % 8)
    (x.queues.filterMap fun e => e.2.head?.map fun f => (e.1, f, headTag g port e.1 x f))

/-- The age limit of a port (R324). -/
def ageLimit (s : State) (port : Nat) : Time :=
  let r := s.rt.net.mbps port
  if r = 0 then 0 else u32 (queueBlock s.gens.active (s.rt.net.named port) 15) 4 * 8 * tUs / r

/-- FWD.AGED at most once per second per port (R324). -/
def countAged (port : Nat) (s : State) : State :=
  let s := bumpFwd port 0x1C s
  let up := s.up
  let s := s.modFwd fun f => { f with ports := mmod f.ports port {} fun x => { x with aged := x.aged + 1 } }
  let x := mgetD s.rt.fwd.ports port {}
  let due := match x.agedAt with
    | some t => decide (t + tS ≤ up)
    | none => true
  if due then
    (s.post 0x0988 2 port x.aged).modFwd fun f =>
      { f with ports := mmod f.ports port {} fun x => { x with agedAt := some up, aged := 0 } }
  else s

/-- A chosen head leaves its queue; the virtual time follows its tag. -/
def takeHead (port q tag : Nat) (s : State) : State :=
  s.modFwd fun f => { f with ports := mmod f.ports port {} fun x =>
    { x with v := tag, ptr := q + 1, tags := mset x.tags q tag, queues := mmod x.queues q [] (·.drop 1) } }

/-- Time that a frame of some octets takes on a port, its overhead included (R322). -/
def wireTime (s : State) (port len : Nat) : Time :=
  let r := s.rt.net.mbps port
  if r = 0 then 0 else ((len : Int) + sN (queueBlock s.gens.active (s.rt.net.named port) 15) 8 2).toNat * 8 * tUs / r

/-- Whether a frame sent now would end by the launch time of the earliest timed frame (R538). -/
def endsBefore (s : State) (port len : Nat) : Bool :=
  match (mgetD s.rt.time.queues port []).head? with
  | some f => decide (s.now + wireTime s port len ≤ f.launch)
  | none => true

/-- The next frame of a port's WFQ queues; aged frames are discarded as they would be chosen, and a frame that would end after
a launch time is not started (R323, R324, R538). -/
def wfqNext (port : Nat) : Nat → State → State × Option Outbound
  | 0, s => (s, none)
  | n + 1, s =>
    match wfqChoice s.gens.active (s.rt.net.named port) (mgetD s.rt.fwd.ports port {}) with
    | none => (s, none)
    | some (q, f, tag) =>
      let wait := s.up - f.at_
      let aged := decide (ageLimit s port ≤ wait)
      if aged then wfqNext port n (countAged port (takeHead port q tag s))
      else if endsBefore s port (frameLen f.out) then
        ((takeHead port q tag s).modFwd fun x => { x with stats := bumpMax x.stats (port * 256 + 0x24) (wait / tNs) }, some f.out)
      else (s, none)

/-- Frames that wait in a port's WFQ queues. -/
def wfqCount (s : State) (port : Nat) : Nat := sum ((mgetD s.rt.fwd.ports port {}).queues.map fun e => e.2.length)

/-! Transmission. -/

/-- The reported transmit time of a frame sent now (R508). -/
def egressTime (s : State) (port : Nat) : Time := shiftTime s.now (s.rt.net.correction port true)

/-- A transmit time stamp enters the port's queue of 64, or is dropped (R509). -/
def pushStamp (port tag : Nat) (s : State) : State :=
  let t := egressTime s port
  let up := s.up
  let q := mgetD s.rt.net.tsQueue port []
  if q.length < 64 then s.modNet fun n => { n with tsQueue := mset n.tsQueue port (q ++ [(tag, t)]) }
  else
    let s := bumpNet port 12 (s.modNet fun n => { n with tsLost := bump n.tsLost port })
    let e := mget s.rt.net.tsEvent port
    let n := (match e with
      | some e => e.2
      | none => 0) + 1
    let due := match e with
      | some e => decide (e.1 + tS ≤ up)
      | none => true
    if due then (s.post 0x0E82 2 port n).modNet fun x => { x with tsEvent := mset x.tsEvent port (up, 0) }
    else s.modNet fun x => { x with tsEvent := mset x.tsEvent port ((e.getD (0, 0)).1, n) }

/-- A frame's transmission starts: it is counted, and its time stamp returned where one was asked for. -/
def transmitted (port : Nat) (tsTag : Option Nat) (s : State) : State :=
  let s := bumpNet port 2 s
  match tsTag with
  | some t => pushStamp port t s
  | none => s

/-- A frame enters the queue of one port: timed where it has a launch time, otherwise its WFQ queue (R322, R537, R540). -/
def queueOn (port : Nat) (o : Outbound) (s : State) : State :=
  match o.launch with
  | some l =>
    let set := o.own.getD (launchSetting s.rt.time port)
    enqueueTimed port { launch := l, tolerance := set.1, drop := set.2, packet := { o.packet with len := frameLen o }, tsTag := o.tsTag } s
  | none => wfqEnqueue port o.queue o s

/-- The redundancy trailer or tag of a copy on a port: sequence, LAN identifier and LSDU size (R511, R512). -/
def redTag (mode port seq : Nat) (o : Outbound) : Packet :=
  let size := (if o.ip = 4 then 28 else if o.ip = 6 then 48 else 0) + o.packet.data.length + 6
  let lan := if mode = 2 then 0 else 0xA + port % 2
  if mode = 1 then { o.packet with data := o.packet.data ++ be 2 seq ++ be 2 (lan * 4096 + size % 4096) ++ be 2 0x88FB }
  else { o.packet with data := be 2 0x892F ++ be 2 (lan * 4096 + size % 4096) ++ be 2 seq ++ o.packet.data }

/-- A frame leaves by its port, or by both ports of a PRP or HSR pair under one sequence number (R511, R512). -/
def sendOut (o : Outbound) (s : State) : State :=
  let n := s.rt.net
  let mode := n.redundancy o.port
  if mode = 0 then queueOn o.port o s
  else
    let pair := o.port / 2
    let seq := mgetD n.redSeq pair 0
    let s := s.modNet fun n => { n with redSeq := mset n.redSeq pair ((seq + 1) % 65536) }
    let copy := fun port => queueOn port { o with packet := redTag mode port seq o }
    copy (2 * pair + 1) (copy (2 * pair) s)

/-- A media packet leaves, protected by its slot where one is named (R178, R360): the request waits at its producer. -/
def sendMedia (slot : Nat) (rtcp bySeq forwarding : Bool) (o : Outbound) (s : State) : State :=
  if slot = 0xFFFFFFFF then sendOut o s
  else s.modSec fun x => { x with waiting := mmod x.waiting (b2n forwarding) [] (· ++ [.send slot rtcp bySeq o]) }

end Sys2Proof.Machine
end

