-- ==== Sys2Proof/Machine/HspBase.lean ====
section
/-! DEFINITION. Stream FIFOs, and how a packet enters and leaves a host stream port (R551 to R557, R559, R561, R565). -/

namespace Sys2Proof.Machine

def State.hspPort (s : State) (h : Nat) : HspPort := mgetD s.rt.hsp h {}

/-- The words of a FIFO (R555). -/
def fifoDepth : Nat := 4096

/-- The parity bit that makes the number of ones in the word even (R551). -/
def parityOf (data : BitVec 64) (last : Bool) : Bool := xor last ((List.range 64).foldl (fun p i => xor p (data.getLsbD i)) false)

/-- A word as it is written. -/
def fifoWord (data : BitVec 64) (last : Bool) : FifoWord := { data := data, last := last, parity := parityOf data last }

/-- Whether a word fails its parity (R552). -/
def FifoWord.fails (w : FifoWord) : Bool := w.parity != parityOf w.data w.last

/-- Words that a packet takes. -/
def wordsFor (n : Nat) : Nat := ceilDiv n 8

/-- The words of a packet, the last padded with zero bytes and marked (R551). -/
def packetWords (b : Bytes) : List FifoWord :=
  let n := wordsFor b.length
  (List.range n).map fun i => fifoWord (BitVec.ofNat 64 (uN b (8 * i) 8)) (i + 1 == n)

/-- The bytes of the first packet of a FIFO, whether a word of it fails, and the FIFO after it (R553). -/
def HspDir.take (d : HspDir) : Option (Bytes × Bool × HspDir) :=
  match d.lengths with
  | [] => none
  | n :: rest =>
    let k := d.words.findIdx (·.last) + 1
    let ws := d.words.take k
    some ((ws.flatMap fun w => le 8 w.data.toNat).take n, ws.any FifoWord.fails, { d with words := d.words.drop k, lengths := rest })

/-- A packet enters a FIFO that has room for it. -/
def HspDir.push (b : Bytes) (d : HspDir) : HspDir := { d with words := d.words ++ packetWords b, lengths := d.lengths ++ [b.length] }

/-- Whether a whole packet fits (R556, R557). -/
def HspDir.fits (d : HspDir) (n : Nat) : Bool := d.words.length + wordsFor n ≤ fifoDepth

/-- A counter of HSP.STATS by its place from 0. -/
def bumpHsp (h i n : Nat) (s : State) : State := modHsp h (fun p => { p with stats := bump p.stats i n }) s

/-- The time that an inbound FIFO has spent full is counted up to an instant, in whole µs; the rest of a µs stays to be counted (R564). -/
def HspPort.countFull (up : Time) (p : HspPort) : HspPort :=
  match p.inb.fullSince with
  | some t =>
    let us := (up - t) / tUs
    { p with stats := bump p.stats 7 us, inb := { p.inb with fullSince := some (t + us * tUs) } }
  | none => p

/-- An instant joins those of the last second. -/
def lastSecond (up : Time) (l : List Time) : List Time := up :: l.filter fun t => up < t + tS

/-- Whether a second has passed since an event. -/
def secondSince (up : Time) (t : Option Time) : Bool :=
  match t with
  | some t => t + tS ≤ up
  | none => true

/-- A packet is discarded for want of outbound room (R557, R565). -/
def hspOverflow (h : Nat) (s : State) : State :=
  let up := s.up
  let p := s.hspPort h
  let l := lastSecond up p.overflows
  let report := secondSince up p.overflowAt
  let s := bumpHsp h 4 1 (modHsp h (fun p => { p with
    err := p.err ||| 2, overflows := l, overflowAt := if report then some up else p.overflowAt }) s)
  s.postIf report 0x1081 2 h l.length

/-- A packet completes with status 1 (R556, R565). -/
def hspPoison (h : Nat) (s : State) : State :=
  let up := s.up
  let p := s.hspPort h
  let l := lastSecond up p.poisons
  let report := secondSince up p.poisonAt
  let s := bumpHsp h 2 1 (modHsp h (fun p => { p with
    err := p.err ||| 1, poisons := l, poisonAt := if report then some up else p.poisonAt }) s)
  s.postIf report 0x1080 3 h l.length

/-- A writer with a deadline writes a packet to the outbound FIFO, or discards it where it does not fit (R557). -/
def hspSend (h : Nat) (b : Bytes) (s : State) : State :=
  if (s.hspPort h).outb.fits b.length then modHsp h (fun p => { p with outb := p.outb.push b }) s
  else hspOverflow h s

/-- A received frame as a host stream port carries it: its prefix with the corrected receive time, then the frame (R507). -/
def hostFrame (port : Nat) (at_ : Time) (raw : Bytes) : Bytes := timeBytes at_ ++ [0, 0, 0] ++ le 1 port ++ zeros 4 ++ raw

end Sys2Proof.Machine
end

