-- ==== Sys2Proof/Machine/Refs.lean ====
section
/-! DEFINITION. References between the objects of a generation (R88, R190, R301, R353) and checks that several SET commands share. -/

namespace Sys2Proof.Machine

/-- The value of a key slot field that names none. -/
def noSlot : Nat := 0xFFFFFFFF

/-- Range of a key slot field. -/
def slotFld (o : Nat) : Fld := (o, 4, fun v => v ≤ 65535 || v == noSlot)

/-- Objects that name key slots: kind (0 leg, 1 stream, 2 relay, 3 subscription), number, slot. -/
def slotUses (g : Generation) (send : Bool) : List (Nat × Nat × Nat) :=
  let at_ := fun kind off (m : Map Bytes) => m.map fun e => (kind, e.1, u32 e.2 off)
  (at_ 0 (if send then 0x50 else 0x54) (mkeep g.legs fun _ b => u8 b 2 == 0) ++
    at_ 1 (if send then 0x5C else 0x60) g.vids ++ at_ 2 (if send then 0x34 else 0x30) g.relays ++
    at_ 3 (if send then 0x38 else 0x3C) g.subs).filter fun u => u.2.2 != noSlot

/-- OBJECT_IN_USE where another object of the generation names a slot in the same direction (R353). -/
def slotClash (g : Generation) (kind num : Nat) (send : Bool) (slot : Nat) : List Fail :=
  if slot = noSlot then []
  else match (slotUses g send).find? fun u => u.2.2 == slot && !(u.1 == kind && u.2.1 == num) with
    | some u => [(.objectInUse, u.2.1)]
    | none => []

/-- A local binding: port, IP version, local address, local UDP port. -/
abbrev Local := Nat × Nat × Bytes × Nat

def legLocal (b : Bytes) : Local := (u8 b 0x20, u8 b 0x21, slice b 0x24 16, u16 b 0x44)
def vidLocal (b : Bytes) : Local := (u8 b 0x30, u8 b 0x31, slice b 0x34 16, u16 b 0x54)
def relayLocal (b : Bytes) : Local := (u8 b 4, u8 b 5, slice b 8 16, u16 b 0x28)
def subLocal (b : Bytes) : Local := (u8 b 0x0B, u8 b 0x0C, slice b 0x10 16, u16 b 0x30)

/-- RTP legs of a generation. -/
def rtpLegs (g : Generation) : Map Bytes := mkeep g.legs fun _ b => u8 b 2 == 0

/-- The first object of a map, other than one, with a local binding. -/
def sameLocal (m : Map Bytes) (f : Bytes → Local) (skip : Option Nat) (l : Local) : Option Nat :=
  (m.find? fun e => f e.2 == l && some e.1 != skip).map (·.1)

/-- OBJECT_IN_USE naming an object, where there is one. -/
def inUse (o : Option Nat) : List Fail :=
  match o with
  | some n => [(.objectInUse, n)]
  | none => []

/-- An IPv4 address field whose octets past the fourth are not 0 (R189). -/
def addrBad (b : Bytes) (ver off : Nat) : List Fail := badIf (u8 b ver == 4 && !allZero (slice b (off + 4) 12)) off

/-- The lowest of a list. -/
def lowest (l : List Nat) : Option Nat := leastBy id l

/-- A deletion or query of an object of a map: BAD_PARAM naming its field where it is absent (R88). -/
def absentBad (present : Bool) (off : Nat) : List Fail := badIf (!present) off

/-- WRONG_STATE, detail 0x0001, for a read of an object absent from a generation. -/
def absentState (present : Bool) : List Fail := failIf (!present) .wrongState 1

/-! Timeslots (R214, R494, R495). -/

/-- The TSLOT of a TDM leg. -/
def legTslot (b : Bytes) : Nat := u16 b 0x20

/-- TDM legs of a generation. -/
def tdmLegs (g : Generation) : Map Bytes := mkeep g.legs fun _ b => u8 b 2 == 1

/-- TSLOTs of a bypass group. -/
def groupSlots (b : Bytes) : List Nat := (List.range (u8 b 2)).map fun i => u16 b (4 + 4 * i)

/-- Outputs that a cross-connect drives, as TSLOTs; a transparent one drives none. -/
def xcDrives (b : Bytes) : List Nat :=
  match u8 b 0 with
  | 0 => [u16 b 4, u16 b 6]
  | 1 => [u16 b 6]
  | _ => []

/-- TSLOTs that a cross-connect names. -/
def xcNames (b : Bytes) : List Nat := if u8 b 0 < 2 then [u16 b 4, u16 b 6] else []

end Sys2Proof.Machine
end

