-- ==== Sys2Proof/Machine/Hsp.lean ====
section
/-! DEFINITION. Host stream ports: registers, rings, and the HSP commands (R507, R551 to R565). -/

namespace Sys2Proof.Machine

/-! Words (R552, R553). -/

def modDir (h : Nat) (out : Bool) (f : HspDir → HspDir) (s : State) : State :=
  modHsp h (fun p => if out then { p with outb := f p.outb } else { p with inb := f p.inb }) s

def dirOf (s : State) (h : Nat) (out : Bool) : HspDir := if out then (s.hspPort h).outb else (s.hspPort h).inb

/-- Bytes of the packet whose words end a FIFO: those after the packets that are whole. -/
def openWords (d : HspDir) : Nat := d.words.length - sum (d.lengths.map wordsFor)

/-- An inbound FIFO becomes full, or full no longer (R564). -/
def fullTime (h : Nat) (s : State) : State :=
  let d := (s.hspPort h).inb
  let up := s.up
  let full := decide (fifoDepth ≤ d.words.length)
  match d.fullSince, full with
  | none, true => modDir h false (fun d => { d with fullSince := some up }) s
  | some _, false => modDir h false (fun d => { d with fullSince := none }) (modHsp h (HspPort.countFull up) s)
  | _, _ => s

/-- FIFO_WRITE: a producer writes a word; while the FIFO is full it waits (R551 to R553). -/
def execFifoWrite (t : Time) (h : Fin 64) (out : Bool) (w : BitVec 64) (last : Bool) (s : State) : Host.Outcome State Fault Refusal :=
  let s := s.advance t
  let d := dirOf s h.val out
  if fifoDepth ≤ d.words.length then done s
  else done (fullTime h.val (modDir h.val out (fun d => { d with
    words := d.words ++ [fifoWord w last]
    lengths := if last then d.lengths ++ [8 * (openWords d + 1)] else d.lengths }) s))

/-- FIFO_READ: a consumer reads a word, or the idle item; a word that fails its parity, or that an upset has reached, is delivered with
its poison tag and counted (R552, R553). -/
def execFifoRead (t : Time) (h : Fin 64) (out : Bool) (upset : Bool) (s : State) : Host.Outcome State Fault Refusal :=
  let s := s.advance t
  let d := dirOf s h.val out
  match d.words with
  | [] => done (s.emit (.fifo (-1) false true false))
  | w :: rest =>
    let bad := w.fails != upset
    let s := modDir h.val out (fun d => { d with words := rest, lengths := if w.last then d.lengths.drop 1 else d.lengths }) s
    let s := modHsp h.val (fun p => { p with badWords := p.badWords + b2n bad }) s
    done (fullTime h.val (s.emit (.fifo w.data w.last false bad)))

/-! Registers (R559, R560). -/

def writeHspTail (out : Bool) (h : Nat) (v : BitVec 32) (s : State) : State := modDir h out (fun d => { d with tail := v.toNat % 4096 }) s

/-- A write of HSP_IN_SIZE or HSP_OUT_SIZE (R65, R559, R560). -/
def writeHspSize (out : Bool) (h : Nat) (v : BitVec 32) (s : State) : State :=
  modDir h out (fun d =>
    let n := bits v.toNat 3 0
    let en := v.getLsbD 31
    let d' := { d with log2 := if !d.en && 6 ≤ n && n ≤ 12 then n else d.log2, en := en }
    if en && !d.en then { d' with head := 0, tail := 0, phase := true } else d') s

/-- A write of HSP_IN_BASE or HSP_OUT_BASE, ignored while EN is 1 (R65, R559). -/
def writeHspBase (out hi : Bool) (h : Nat) (v : BitVec 32) (s : State) : State :=
  modDir h out (fun d =>
    if d.en then d
    else if hi then { d with base := v ++ d.base.extractLsb' 0 20 }
    else { d with base := d.base.extractLsb' 20 32 ++ v.extractLsb' 12 20 }) s

def writeHspErr (h : Nat) (v : BitVec 32) (s : State) : State := modHsp h (fun p => { p with err := p.err &&& ~~~(v.setWidth 3) }) s

/-! Descriptors (R555, R556, R561). -/

/-- The HSP.SET block of a port, with its defaults. -/
def hspBlock (s : State) (h : Nat) : Bytes := if (s.hspPort h).block.isEmpty then le 1 h ++ zeros 15 else (s.hspPort h).block

/-- The port's vector is sent once due and its hold-off has passed (R561). -/
def hspVector (h : Nat) (s : State) : State :=
  let p := s.hspPort h
  let b := hspBlock s h
  let up := s.up
  let free : Bool := match p.sentAt with
    | some t => decide (t + u16 b 4 * tUs ≤ up)
    | none => true
  if p.due && free then
    let s := modHsp h (fun p => { p with due := false, sentAt := some up }) s
    if u8 b 2 = 0 then s else s.sendVector (u8 b 2)
  else s

/-- Whether a direction's next descriptor waits to be served. -/
def HspDir.serves (d : HspDir) : Bool := d.en && d.head % 2 ^ d.log2 != d.tail % 2 ^ d.log2

/-- Host address of the next descriptor. -/
def HspDir.address (d : HspDir) : Nat := d.base.toNat * 4096 + 32 * d.head

/-- A descriptor completes: bytes 0x10 to 0x17 are written, its index advances and the vector is due (R555, R561). -/
def completeDesc (h : Nat) (out : Bool) (status written : Nat) (s : State) : State :=
  let d := dirOf s h out
  let s := { s with hostMem := memWrite s.hostMem (d.address + 0x10) (le 4 written ++ le 1 status ++ le 1 (b2n d.phase) ++ zeros 2) }
  let head := (d.head + 1) % 2 ^ d.log2
  let s := modDir h out (fun d => { d with head := head, phase := if head = 0 then !d.phase else d.phase }) s
  hspVector h (modHsp h (fun p => { p with due := true }) s)

/-- A descriptor that breaks R555 completes with status 4. -/
def badDesc (h : Nat) (out : Bool) (s : State) : State :=
  completeDesc h out 4 0 (bumpHsp h 6 1 (modHsp h (fun p => { p with err := p.err ||| 4 }) s))

/-- A frame from the host is sent, or breaks R507 and is counted. -/
def sendHostFrame (d : Bytes) (s : State) : State :=
  let flags := u8 d 0x12
  let bad := decide (d.length < 38) || decide (4 ≤ flags) || decide (3 < u8 d 0x13) || decide (7 < u8 d 0x14) ||
    !allZero (slice d 0x15 3) || (bit flags 1 && (decide (10 ^ 9 ≤ u32 d 8) || u16 d 14 != 0))
  if bad then bumpNet (u8 d 0x13 % 4) 7 s
  else
    let raw := d.drop 24
    sendOut { flow := 0x5000, port := u8 d 0x13, launch := if bit flags 1 then some (timeAt d 0) else none, queue := u8 d 0x14, ip := 0
              tsTag := if bit flags 0 then some (u16 d 0x10) else none
              packet := { kind := 4, flow := 0x5000, data := raw, len := raw.length } } s

/-- The HSP leg that a port feeds. -/
def hspLeg (g : Generation) (h : Nat) : Option Nat := (g.legs.find? fun e => u8 e.2 2 == 3 && u8 e.2 0x20 == h).map (·.1)

/-- An inbound packet reaches its consumer (R558): its status. For kind 2 an item of the partition is enqueued; which of its clusters it
names, and the address of its input, are free. -/
def deliverInbound (h : Nat) (d : Bytes) (s : State) : Nat × State :=
  let b := hspBlock s h
  match u8 b 1 with
  | 0 => match hspLeg s.gens.active h with
    | some leg => (0, pushInbox leg s.now { data := d, len := d.length } s)
    | none => (3, bumpHsp h 5 1 s)
  | 1 => (0, sendHostFrame d s)
  | _ =>
    let cs := clustersOf s.gens.active (u8 b 3)
    let x := s.draw
    let y := x.2.draw
    if cs.isEmpty then (0, s)
    else
      let desc := le 2 (u16 b 6) ++ le 1 6 ++ le 1 (cs.getD (x.1 % cs.length) 0) ++ le 4 (0x5000 + h) ++ zeros 8 ++ le 8 y.1 ++ le 4 d.length ++
        zeros 3 ++ le 1 4
      (0, enqueueItem 35 desc none y.2)

/-- HSP_INBOUND_FETCH: a descriptor and its packet are fetched when the FIFO has room; the packet passes the FIFO to its consumer; the
operand says whether a word of it is poisoned on the way (R556, R558). -/
def execHspInboundFetch (t : Time) (h : Fin 64) (poisoned : Bool) (s : State) : Host.Outcome State Fault Refusal :=
  let s := s.advance t
  let d := (s.hspPort h.val).inb
  if !d.serves || !s.senak.pcie.canSend || s.stalls 35 then done s
  else
    let e := memRead s.hostMem d.address 16
    let n := u32 e 8
    if u32 e 12 ≠ 0 ∨ n = 0 ∨ 16384 < n then done (badDesc h.val false s)
    else if !d.fits n then done (fullTime h.val s)
    else if poisoned then done (completeDesc h.val false 1 0 (hspPoison h.val s))
    else
      let r := deliverInbound h.val (memRead s.hostMem (u64 e 0) n) s
      done (completeDesc h.val false r.1 0 (if r.1 = 0 then bumpHsp h.val 0 1 r.2 else r.2))

/-- The octets of an outbound packet reach host memory and are counted, and cut ones too. -/
def writePacket (h a : Nat) (w : Bytes) (long : Bool) (s : State) : State :=
  let s := bumpHsp h 1 1 { s with hostMem := memWrite s.hostMem a w }
  if long then bumpHsp h 3 1 s else s

/-- HSP_OUTBOUND_WRITE: the next packet goes to the next posted buffer (R556). -/
def execHspOutboundWrite (t : Time) (h : Fin 64) (poisoned : Bool) (s : State) : Host.Outcome State Fault Refusal :=
  let s := s.advance t
  let d := (s.hspPort h.val).outb
  if !d.serves || !s.senak.pcie.canSend then done s
  else match d.take with
    | none => done s
    | some (b, bad, rest) =>
      let e := memRead s.hostMem d.address 16
      let n := u32 e 8
      if u32 e 12 ≠ 0 ∨ n < 64 ∨ 16384 < n ∨ n % 64 ≠ 0 then done (badDesc h.val true s)
      else
        let s := modDir h.val true (fun _ => rest) s
        let w := b.take n
        let long := decide (n < b.length)
        let s := writePacket h.val (u64 e 0) w long s
        if bad || poisoned then done (completeDesc h.val true 1 w.length (hspPoison h.val s))
        else done (completeDesc h.val true (if long then 2 else 0) w.length s)

/-- HSP_VECTOR_SEND (R561). -/
def execHspVectorSend (t : Time) (h : Fin 64) (s : State) : Host.Outcome State Fault Refusal := done (hspVector h.val (s.advance t))

/-! Commands (R562 to R564). -/

/-- HSP.SET (R563). -/
def cmdHspSet : Cmd where
  code := 0x1000
  len := len1 16
  fails := fun r _ s =>
    let b := r.params
    let legs := ([s.gens.active, s.gens.staged] ++ (s.gens.armed.map (·.gen)).toList).findSome? fun g => hspLeg g (u8 b 0)
    fldFails b [rng 0 1 0 63, rng 1 1 0 2, (2, 1, fun v => v == 0 || (2 ≤ v && v ≤ 63)), rng 3 1 0 3, rng 4 2 0 1000, rng 6 2 0 255, rsv 8 8] ++
      (if u8 b 1 = 0 then [] else inUse legs) ++ badIf (u8 b 1 == 2 && !mhas s.gens.active.partitions (u8 b 3)) 3
  run := fun r _ s => okWith (modHsp (u8 r.params 0) (fun p => { p with block := slice r.params 0 16 }) s)

/-- HSP.QUERY (R563). -/
def cmdHspQuery : Cmd where
  code := 0x1001
  len := len1 4
  fails := fun r _ _ => fldFails r.params [rng 0 1 0 63, rsv 1 3]
  run := fun r _ s => okWith s (hspBlock s (u8 r.params 0))

/-- HSP.STATS (R564). -/
def cmdHspStats : Cmd where
  code := 0x1002
  len := len1 4
  fails := fun r _ _ => fldFails r.params [rng 0 1 0 63, rng 1 1 0 1, rsv 2 2]
  run := fun r _ s =>
    let h := u8 r.params 0
    let m := (mgetD s.seen.hsp h {}).stats
    let s' := if u8 r.params 1 = 1 then
        s.clearSeen (fun b rt => { rt with hsp := mupd rt.hsp h fun p => { p with stats := lessSeen p.stats (mgetD b.hsp h {}).stats } })
      else s
    okWith s' ((List.range 8).flatMap fun i => le 4 (mgetD m i 0))

def execHspSet (r : Request) (s : State) : Host.Outcome State Fault Refusal := execCmd cmdHspSet r s
def execHspQuery (r : Request) (s : State) : Host.Outcome State Fault Refusal := execCmd cmdHspQuery r s
def execHspStats (r : Request) (s : State) : Host.Outcome State Fault Refusal := execCmd cmdHspStats r s

end Sys2Proof.Machine
end

