-- ==== Sys2Proof/Machine/Mgmt.lean ====
section
/-! DEFINITION. Harebell: flash, sensors, event log, firmware images, life cycle and behaviour levels (R646 to R672). -/

namespace Sys2Proof.Machine

/-! Voltage monitors (R648, R649). -/

/-- The window of a monitor in 0.1 mV. -/
def monitorWindow (s : State) (i : Nat) : Nat × Nat :=
  let pct := fun mv => (mv * 19 / 2, mv * 21 / 2)
  if i = 0 then let v := if s.rt.power.state = 2 then 620 else coreMv s.rt.power.point; (10 * (v - 40), 10 * (v + 40))
  else pct (match i with
    | 1 => 750
    | 2 => 800
    | 3 => 800
    | 4 => 1100
    | 5 => 850
    | 6 => 1200
    | _ => 1800)

/-- A sample of a monitor: out of its window after 3 samples outside, in again after 3 at least 10 mV inside. -/
def Monitor.sample (w : Nat × Nat) (mv : Nat) (m : Monitor) : Monitor :=
  let v := 10 * mv
  let outside := v < w.1 || w.2 < v
  let inside := w.1 + 100 ≤ v && v + 100 ≤ w.2
  let bad := if outside then m.bad + 1 else 0
  let good := if inside then m.good + 1 else 0
  { mv := mv, bad := bad, good := good, out := if m.out then !(3 ≤ good) else decide (3 ≤ bad) }

/-- One monitor is sampled and judged; monitor 0 keeps its state while VDD_CORE changes (R649). -/
def sampleMonitor (i mv : Nat) (s : State) : State :=
  let old := mgetD s.rt.mgmt.monitors i {}
  let new := if i = 0 ∧ s.rt.power.volt.isSome then { old with mv := mv } else old.sample (monitorWindow s i) mv
  let s := s.modMgmt fun m => { m with monitors := mset m.monitors i new }
  let s := if i = 0 then s.modPower fun p => { p with vddCore := mv } else s
  let s := s.postIf (new.out && !old.out) 0x1580 3 i mv
  s.postIf (old.out && !new.out) 0x1581 1 i mv

/-- Whether Uzogan runs. -/
def uzoganUp (s : State) : Bool :=
  (s.rt.power.state == 0 || s.rt.power.state == 2) && (match s.boot.phase with
    | .running => true
    | .booting _ => true
    | _ => false)

/-- The voltage monitors are sampled (R648, R650). -/
def execVoltageSample (t : Time) (mv : List Nat) (s : State) : Host.Outcome State Fault Refusal :=
  let s := s.advance t
  done (if uzoganUp s then alertUpdate (((mv.take 8).zip (List.range 8)).foldl (fun s e => sampleMonitor e.2 e.1 s) s) else s)

/-! The event log (R651 to R653). -/

/-- Entries that wait for the mirror. -/
def Mgmt.waiting (m : Mgmt) : Map LogEntry := m.log.filter fun e => !e.2.mirrored

/-- Whether a batch is due: 128 entries, the oldest 1 s old, or one of severity 4 (R652). -/
def mirrorDue (s : State) : Bool :=
  let w := s.rt.mgmt.waiting
  decide (128 ≤ w.length) || w.any fun e => e.2.event.sev == 4 || decide (e.2.at_ + tS ≤ s.up)

/-- The waiting entries are written to the mirror. -/
def Mgmt.mirrorAll (m : Mgmt) : Mgmt :=
  let w := m.waiting
  let all := w.foldl (fun a e => mset a e.1 e.2.event) m.mirror
  { m with
    log := mall m.log fun _ e => { e with mirrored := true }
    mirror := all.drop (all.length - 4096), mirroredThrough := (w.getLast?.map (·.1)).getD m.mirroredThrough }

/-- A batch is written, or its write fails (R652). -/
def mirrorWrite (ok : Bool) (s : State) : State :=
  if ok then alertUpdate (s.modMgmt fun m => { m.mirrorAll with mirrorFailing := false })
  else
    let n := s.rt.mgmt.waiting.length
    let up := s.up
    alertUpdate ((s.modMgmt fun m => { m with mirrorFailing := true, mirrorFailAt := up }).post 0x1582 3 0 n)

def execLogMirrorWrite (t : Time) (ok : Bool) (s : State) : Host.Outcome State Fault Refusal :=
  let s := s.advance t
  done (if uzoganUp s && !s.rt.mgmt.mirrorFailing && !s.rt.mgmt.flashHeld && mirrorDue s then mirrorWrite ok s else s)

/-- Every 10 s a failed write is tried again (R652). -/
def execLogMirrorRetry (t : Time) (ok : Bool) (s : State) : Host.Outcome State Fault Refusal :=
  let s := s.advance t
  done (if uzoganUp s && s.rt.mgmt.mirrorFailing && decide (s.rt.mgmt.mirrorFailAt + 10 * tS ≤ s.up) then mirrorWrite ok s else s)

/-- The 32 bytes of a log entry (R651). -/
def logBytes (seq : Nat) (e : LogEntry) : Bytes :=
  le 2 e.event.code ++ le 1 (2 * b2n e.mirrored) ++ le 1 e.event.sev ++ le 4 e.event.obj ++ le 4 seq ++ le 4 e.event.detail ++
    timeBytes e.event.time

/-- The oldest log sequence held. -/
def Mgmt.oldest (m : Mgmt) : Nat := (mfirst m.log).getD m.logNext

/-! Firmware images (R654 to R656). -/

/-- Whether a slot verifies now. -/
def Mgmt.slotValid (m : Mgmt) (i : Nat) : Bool :=
  match mget m.slots i with
  | some x => x.good && decide (m.rollback ≤ x.security)
  | none => false

/-- Whether the header of an image is well formed (R654). -/
def fwHeaderOk (b : Bytes) : Bool :=
  u32 b 0 == 0x474F5A55 && u16 b 4 == 1 && u16 b 6 == 0 && decide (u8 b 0xC < 64) && decide (u8 b 0xD < 8) && u16 b 0xE == 0 &&
    u32 b 0x10 == b.length && decide (4096 ≤ b.length) && decide (b.length ≤ 16777216) && allZero (slice b 0x14 12)

/-- Whether the signature of an image verifies over its SHA-384 digest, the signature field read as zeros, against the Fenord firmware key
(R655). -/
def fwSignatureOk (b : Bytes) : Bool :=
  Config.signatureOk (Config.sha384 (putAt b 0x20 (zeros 96))) (slice b 0x20 96) Config.firmwareKeyDigest

/-- The slot that holds an image (R654, R655). -/
def FwSlot.ofImage (b : Bytes) : FwSlot :=
  { version := u32 b 8, security := u8 b 0xC, levels := u8 b 0xD, good := fwHeaderOk b && fwSignatureOk b }

/-- The bytes that an MGMT.FW_WRITE names: of HWIN, or of host memory (R669). -/
def fwSource (p : Bytes) (s : State) : Bytes :=
  memRead (if u8 p 1 = 0 then s.rt.dram.mem else s.hostMem) (u64 p 8) (u32 p 4)

/-! Commands (R665 to R671). -/

/-- MGMT.STATUS (R666). -/
def cmdMgmtStatus : Cmd where
  code := 0x1500
  len := len1 0
  safe := true
  run := fun _ _ s =>
    let m := s.rt.mgmt
    let x := fun i => mgetD m.slots i { version := 0, security := 0 }
    okWith s (block 64 [(0, 1, m.lifecycle), (1, 1, m.level), (2, 1, m.config.level), (3, 1, m.otp.toNat), (4, 1, m.running),
      (5, 1, b2n (m.slotValid 0) + 2 * b2n (m.slotValid 1) + 4 * b2n m.asTrial + 8 * b2n m.config.trial.isSome), (6, 1, m.rollback),
      (7, 1, alertCauses s), (8, 4, (x 0).version), (0xC, 4, (x 1).version), (0x10, 1, (x 0).security), (0x11, 1, (x 1).security),
      (0x14, 4, m.oldest), (0x18, 4, m.logNext - 1), (0x1C, 4, m.mirroredThrough)])

/-- MGMT.SENSORS (R667). -/
def cmdMgmtSensors : Cmd where
  code := 0x1501
  len := len1 0
  safe := true
  run := fun _ _ s =>
    let r := s.seen
    let temps := (List.range 16).flatMap fun i => leI 2 (r.power.temps.getD i 0)
    let mv := (List.range 8).flatMap fun i => le 2 (mgetD r.mgmt.monitors i {}).mv
    let out := r.mgmt.monitors.foldl (fun a e => a + b2n e.2.out * 2 ^ e.1) 0
    let pll := (r.power.unlocked.filter fun u => u.1 < 8).foldl (fun a u => a + 2 ^ u.1) 0
    okWith s (temps ++ mv ++ le 1 out ++ le 1 pll ++ zeros 14)

/-- MGMT.LOG_READ (R668). -/
def cmdMgmtLogRead : Cmd where
  code := 0x1502
  len := len1 8
  safe := true
  fails := fun r _ _ => fldFails r.params [rng 4 1 1 30, rsv 5 3]
  run := fun r _ s =>
    let m := s.rt.mgmt
    let l := (m.log.filter fun e => decide (u32 r.params 0 ≤ e.1)).take (u8 r.params 4)
    okWith s (le 4 l.length ++ le 4 m.oldest ++ l.flatMap fun e => logBytes e.1 e.2)

/-- MGMT.CONFIG (R668). -/
def cmdMgmtConfig : Cmd where
  code := 0x1503
  len := len1 4
  safe := true
  fails := fun r _ _ => fldFails r.params [rng 0 1 0 4, msk 1 1 0x3F, rsv 2 2]
  run := fun r _ s =>
    okWith (alertUpdate (s.modMgmt fun m => { m with threshold := u8 r.params 0, alertMask := BitVec.ofNat 6 (u8 r.params 1) }))

/-- MGMT.FW_WRITE (R657, R669). -/
def cmdMgmtFwWrite : Cmd where
  code := 0x1504
  len := len1 24
  safe := true
  fails := fun r _ s =>
    let p := r.params
    let d := s.rt.dram
    fldFails p [rng 0 1 0 1, rng 1 1 0 1, rsv 2 2, rng 4 4 4096 16777216, (8, 8, fun v => v % 64 == 0), rsv 0x10 8] ++
    badIf (u8 p 1 == 0 && d.fitted != 0 && !inHwin d (u64 p 8) (u32 p 4)) 8 ++
    failIf (!s.rt.mgmt.recovered && u8 p 0 == s.rt.mgmt.running) .objectInUse (u8 p 0)
  run := fun r _ s =>
    { status := .pending, st := (s.addPending 0x1504 (u8 r.params 0) r).modMgmt fun m => { m with flashHeld := false } }

/-- The image of a slot's write has been checked, and where it is good the slot programmed and read back; a malformed header counts as a signature failure
(R669; log 192). -/
def execFwWriteDone (t : Time) (slot : Fin 2) (readBack : Bool) (s : State) : Host.Outcome State Fault Refusal :=
  let s := s.advance t
  match s.findPending 0x1504 slot.val with
  | none => done s
  | some p =>
    let x := FwSlot.ofImage (fwSource p.params s)
    let put := fun (x : FwSlot) => s.modMgmt fun m => { m with slots := mset m.slots p.obj x }
    done (if u8 p.params 1 = 0 ∧ s.rt.dram.fitted = 0 then s.endPending p .wrongState 0xA
      else if !x.good then s.endPending p .authFailed 1
      else if x.security < s.rt.mgmt.rollback then s.endPending p .authFailed 2
      else if readBack then (put x).endPending p .ok 0
      else (put { x with good := false }).endPending p .authFailed 3)

/-- MGMT.FW_ACTIVATE (R670). -/
def cmdMgmtFwActivate : Cmd where
  code := 0x1505
  len := len1 4
  safe := true
  fails := fun r _ s =>
    fldFails r.params [rng 0 1 0 1, rsv 1 3] ++ failIf (!s.rt.mgmt.slotValid (u8 r.params 0)) .wrongState 1
  run := fun r _ s => okWith (s.writeFlash fun c => { c with trial := some (u8 r.params 0) })

/-- MGMT.FW_CONFIRM (R655, R670). -/
def cmdMgmtFwConfirm : Cmd where
  code := 0x1506
  len := len1 0
  safe := true
  fails := fun _ _ s => failIf (!s.rt.mgmt.asTrial) .wrongState 2
  run := fun _ _ s =>
    let m := s.rt.mgmt
    okWith ((s.writeFlash fun c => { c with confirmed := m.running }).modMgmt fun m =>
      { m with asTrial := false, rollback := Nat.max m.rollback m.image.security })

/-- Entry to DECOMMISSIONED (R343, R391, R660). -/
def decommission (s : State) : State :=
  (zeroise 4 (s.modMgmt fun m => { m with rootKey := [] })).modRec fun r => { r with running := false }

/-- Whether MGMT.LIFECYCLE makes a move (R658). -/
def moveAllowed (m : Mgmt) (n : Nat) : Bool :=
  match m.lifecycle, n with
  | 0, 1 => m.otp.getLsbD 0 && m.otp.getLsbD 2
  | 1, 2 => true
  | 2, 3 => true
  | o, 4 => o < 4
  | _, _ => false

/-- MGMT.LIFECYCLE (R658, R660, R671). -/
def cmdMgmtLifecycle : Cmd where
  code := 0x1507
  len := len1 16
  safe := true
  fails := fun r _ s =>
    fldFails r.params [rng 0 1 1 4, rsv 1 7] ++ badIf (u64 r.params 8 != Config.deviceId.toNat) 8 ++
    failIf (!moveAllowed s.rt.mgmt (u8 r.params 0)) .wrongState 1
  run := fun r _ s =>
    let o := s.lifecycle
    let n := u8 r.params 0
    let s := s.modMgmt fun m => { m with lifecycle := n }
    okWith ((if n = 4 then decommission s else s).post 0x1584 2 0 (o * 256 + n))

/-- Octets of an OTP item (R659). -/
def otpLen (item : Nat) : Nat := if item = 1 then 32 else if item = 2 then 48 else 24

/-- MGMT.OTP_WRITE: a read-back that does not match is a free value (R659, R671). -/
def cmdMgmtOtpWrite : Cmd where
  code := 0x1508
  len := len1 52
  safe := true
  fails := fun r _ s =>
    let p := r.params
    let i := u8 p 0
    let m := s.rt.mgmt
    fldFails p [rng 0 1 1 3, rsv 1 3] ++
    badIf (decide (1 ≤ i) && decide (i ≤ 3) && !allZero (slice p (4 + otpLen i) (48 - otpLen i))) (4 + otpLen i) ++
    failIf (decide (m.lifecycle ≠ 0 ∧ ¬ (i = 2 ∧ m.lifecycle = 1))) .deniedLifecycle m.lifecycle ++
    failIf (m.otp.getLsbD (i - 1) || m.otpBad.getLsbD (i - 1)) .wrongState 4
  run := fun r _ s =>
    let i := u8 r.params 0
    let v := slice r.params 4 (otpLen i)
    let d := s.draw
    if d.1 % 2 = 1 then
      { status := .internalFault, detail := 0x1509, st := d.2.modMgmt fun m => { m with otpBad := m.otpBad ||| (1#3 <<< (i - 1)) } }
    else okWith (d.2.modMgmt fun m =>
      let m := { m with otp := m.otp ||| (1#3 <<< (i - 1)) }
      if i = 1 then { m with rootKey := v } else if i = 2 then { m with imageDigest := v } else { m with macs := v })

/-- MGMT.BEHAVIOUR (R661, R665). -/
def cmdMgmtBehaviour : Cmd where
  code := 0x1509
  len := len1 4
  safe := true
  fails := fun r _ s => fldFails r.params [rng 0 1 1 3, rsv 1 3] ++ failIf (s.lifecycle == 4) .deniedLifecycle s.lifecycle
  run := fun r _ s => okWith (s.writeFlash fun c => { c with level := u8 r.params 0 })

def execMgmtStatus (r : Request) (s : State) : Host.Outcome State Fault Refusal := execCmd cmdMgmtStatus r s
def execMgmtSensors (r : Request) (s : State) : Host.Outcome State Fault Refusal := execCmd cmdMgmtSensors r s
def execMgmtLogRead (r : Request) (s : State) : Host.Outcome State Fault Refusal := execCmd cmdMgmtLogRead r s
def execMgmtConfig (r : Request) (s : State) : Host.Outcome State Fault Refusal := execCmd cmdMgmtConfig r s
def execMgmtFwWrite (r : Request) (s : State) : Host.Outcome State Fault Refusal := execCmd cmdMgmtFwWrite r s
def execMgmtFwActivate (r : Request) (s : State) : Host.Outcome State Fault Refusal := execCmd cmdMgmtFwActivate r s
def execMgmtFwConfirm (r : Request) (s : State) : Host.Outcome State Fault Refusal := execCmd cmdMgmtFwConfirm r s
def execMgmtLifecycle (r : Request) (s : State) : Host.Outcome State Fault Refusal := execCmd cmdMgmtLifecycle r s
def execMgmtOtpWrite (r : Request) (s : State) : Host.Outcome State Fault Refusal := execCmd cmdMgmtOtpWrite r s
def execMgmtBehaviour (r : Request) (s : State) : Host.Outcome State Fault Refusal := execCmd cmdMgmtBehaviour r s

end Sys2Proof.Machine
end

