-- ==== Sys2Proof/Machine/Gain.lean ====
section
/-! DEFINITION. Decibels as factors and as comparisons, the limiter's constants, and the level of tones (R164, R199, R202, R207, R227). -/

namespace Sys2Proof.Machine

/-- Bits of the greatest number whose d-th power is at most x, from bit k − 1 down. -/
def rootBits (d x : Nat) : Nat → Nat → Nat
  | 0, acc => acc
  | k + 1, acc => rootBits d x k (if (acc + 2 ^ k) ^ d ≤ x then acc + 2 ^ k else acc)

/-- 10^(n/d), exact where it is rational, otherwise to p binary places, rounded down. -/
def tenTo (p : Nat) (n : Int) (d : Nat) : Rat :=
  let m := n.natAbs
  if m % d = 0 then (if n < 0 then 1 / ((10 ^ (m / d) : Nat) : Rat) else ((10 ^ (m / d) : Nat) : Rat))
  else
    let one := 2 ^ (p * d)
    mkRat (rootBits d (if n < 0 then one / 10 ^ m else one * 10 ^ m) (p + 4 * (m / d + 1)) 0) (2 ^ p)

/-- Binary places to which an irrational factor is carried (log 6). -/
def places : Nat := 40 + Config.extraBits

/-- The amplitude factor of a gain in units of 0.1 dB (R199, R208). -/
def gainOf (x : Int) : Rat := tenTo places x 200

/-- The limiter's threshold t as a sample value, for a threshold in units of 0.1 dBFS: 64 places settle every rounding (R207). -/
def limiterT (x : Int) : Nat := (roundRat (8388608 * tenTo 64 x 200)).toNat

/-- exp(−1/n) by its series, with a number of terms left: the term of index i is a. -/
def expTerms (n : Nat) : Nat → Nat → Rat → Rat → Rat
  | 0, _, _, acc => acc
  | k + 1, i, a, acc => expTerms n k (i + 1) (-a / (((i + 1) * n : Nat) : Rat)) (acc + a)

/-- The limiter's recovery r = 1 − exp(−1 ÷ (release × rate)) for a release in ms and a rate in kHz (R207; log 6). -/
def limiterR (release rate : Nat) : Rat := 1 - expTerms (release * rate) (24 + Config.extraTerms) 0 1 0

/-- Whether a rational is at least 10^(n/d), exactly. -/
def atLeastTen (q : Rat) (n : Int) (d : Nat) : Bool :=
  if n < 0 then decide (1 ≤ q ^ d * ((10 ^ n.natAbs : Nat) : Rat)) else decide (((10 ^ n.natAbs : Nat) : Rat) ≤ q ^ d)

/-- Whether a mean square is at least a level in 0.01 dBov; 0 dBov is 2⁴⁶ (R202). -/
def atLeastDbov (q : Rat) (centi : Int) : Bool := atLeastTen (q / ((2 ^ 46 : Nat) : Rat)) centi 1000

/-- A level in dBm0 as 0.01 dBov: 0 dBm0 is −3.14 dBov (R164). -/
def centiDbov (dbm0 : Int) : Int := 100 * dbm0 - 314

/-- A mean square as −dBov, 0 to 127: the loudest whole level that it reaches (log 174). -/
def levelOf (q : Rat) : Nat := ((List.range 127).takeWhile fun (v : Nat) => !atLeastDbov q (-100 * (v : Int))).length

/-- A gain's reduction in whole 0.1 dB (R227; log 174). -/
def reduction (g : Rat) : Nat :=
  let x := g ^ 200
  ((List.range 1500).takeWhile fun (k : Nat) => decide (x * ((10 ^ (k + 1) : Nat) : Rat) ≤ 1)).length

/-- CONF.LIMITING at most once per second for a limiter, for a reduction above 6 dB (R227): least gain, last event. -/
def limitingDue (low : Rat) (last : Option Time) (up : Time) : Bool :=
  !atLeastTen low (-6) 20 && (match last with
    | some t => decide (t + tS ≤ up)
    | none => true)

/-- The peak sample of a sine at a level in dBm0: its mean square is half the square of it (R164). -/
def peakOf (dbm0 : Int) : Rat :=
  8388608 * tenTo places (centiDbov dbm0) 2000 * mkRat (rootBits 2 (2 ^ (2 * places + 1)) (places + 1) 0) (2 ^ places)

end Sys2Proof.Machine
end

