-- ==== Sys2Proof/Machine/AudioBase.lean ====
section
/-! DEFINITION. Samples, ramps, the limiter, RTP reception and packet durations that legs, conferences and streams share
(R162, R166, R167, R174, R206 to R208). -/

namespace Sys2Proof.Machine

/-! Codecs (R162). -/

/-- A codec's sampling rate in kHz, which is the samples of one tick. -/
def codecRate (c : Nat) : Nat := if c = 2 ∨ c = 6 ∨ c = 9 then 16 else if c = 7 ∨ c = 10 then 48 else 8

/-- A codec's RTP clock in kHz (R179). -/
def codecClock (c : Nat) : Nat := if c = 2 then 8 else if 5 ≤ c ∧ c ≤ 7 then 48 else codecRate c

/-- Whether a codec is Opus. -/
def isOpus (c : Nat) : Bool := 5 ≤ c && c ≤ 7

/-- Send frames in ms that a codec allows on packet transports. -/
def framesOf (c : Nat) : List Nat :=
  if c ≤ 2 then [10, 20, 30, 40]
  else if c ≤ 4 then [10, 20, 30, 40, 50, 60]
  else if c ≤ 7 then [10, 20, 40, 60]
  else span 1 20

/-- Duration of an Opus packet in 48 kHz samples, by its TOC octet (RFC 6716). -/
def opusTicks (p : Bytes) : Nat :=
  let toc := u8 p 0
  let c := toc / 8
  let frame := if c < 12 then [480, 960, 1920, 2880].getD (c % 4) 0
    else if c < 16 then [480, 960].getD (c % 2) 0 else [120, 240, 480, 960].getD (c % 4) 0
  let n := match toc % 4 with
    | 0 => 1
    | 1 => 2
    | 2 => 2
    | _ => u8 p 1 % 64
  frame * n

/-- Duration of a payload in clock ticks of its codec; a G.729 Annex B SID frame of 2 octets lasts 10 ms as any other (R163). -/
def payloadTicks (c : Nat) (p : Bytes) : Nat :=
  if c ≤ 2 then p.length
  else if c ≤ 4 then p.length / 10 * 80 + (if p.length % 10 = 2 then 80 else 0)
  else if isOpus c then opusTicks p
  else p.length / 2

/-- The clock of a leg's timestamps in kHz: the codec's RTP clock, or on a host stream leg its sampling rate (R177, R179). -/
def legClock (b : Bytes) : Nat := if u8 b 2 = 3 then codecRate (u8 b 3) else codecClock (u8 b 3)

/-- Duration of a leg's payload in ticks of that clock. -/
def legTicks (b p : Bytes) : Nat := payloadTicks (u8 b 3) p * legClock b / codecClock (u8 b 3)

/-- What a leg's encoder is set to: codec, bit rate, Opus options (R164). -/
def codecSet (b : Bytes) : Nat × Nat × Nat := (u8 b 3, u16 b 6, u8 b 5 / 32 % 4)

/-- The payload of a frame from an encoder's state (R178). -/
def encodeFrame (b : Bytes) (st : Nat) (y : List Int) : Bytes :=
  let c := codecSet b
  Config.encodeAudio c.1 c.2.1 c.2.2 st y

/-- The encoder's state after a frame. -/
def encodeAfter (b : Bytes) (st : Nat) (y : List Int) : Nat :=
  let c := codecSet b
  Config.encodeNext c.1 c.2.1 c.2.2 st y

/-! Samples. -/

/-- A sample within 24 bits. -/
def clip24 (x : Int) : Int := if x < -8388608 then -8388608 else if 8388607 < x then 8388607 else x

/-- A block of exactly n samples within 24 bits. -/
def fit (n : Nat) (l : List Int) : List Int := (l.take n).map clip24 ++ List.replicate (n - l.length) 0

/-- The sample at a place; 0 past the end. -/
def smp (l : List Int) (i : Nat) : Int := l.getD i 0

/-- A block of exactly n samples. -/
def fit_ (n : Nat) (l : List Int) : List Int := l.take n ++ List.replicate (n - l.length) 0

/-- The concealment attenuation after m ms of continuous loss: full for 10 ms, then 20 % of full level less per 10 ms (R174). -/
def attenuation (m : Nat) : Rat := if m < 10 then 1 else if 60 ≤ m then 0 else ((60 - m : Nat) : Rat) / 50

/-- A block attenuated, rounded half away from zero. -/
def scaleBlock (g : Rat) (l : List Int) : List Int := l.map fun (x : Int) => roundRat (g * (x : Rat))

/-! Ramps (R208). -/

/-- A gain at sample i of the present tick, with n samples in a tick. -/
def Ramp.at_ (r : Ramp) (n i : Nat) : Rat :=
  let total := r.ms * n
  let j := r.done * n + i
  if total ≤ j then r.g1 else r.g0 + (r.g1 - r.g0) * ((j + 1 : Nat) : Rat) / (total : Rat)

/-- The gain in force at a boundary. -/
def Ramp.now (r : Ramp) : Rat := if r.ms ≤ r.done then r.g1 else r.g0 + (r.g1 - r.g0) * (r.done : Rat) / (r.ms : Rat)

/-- A ramp after one tick. -/
def Ramp.tick (r : Ramp) : Ramp := { r with done := Nat.min r.ms (r.done + 1) }

/-- A ramp from the gain in force to a new gain over its full time; a gain already aimed at keeps its ramp. -/
def Ramp.to (r : Ramp) (g : Rat) (ms : Nat) : Ramp := if r.g1 = g then r else { g0 := r.now, g1 := g, ms := ms, done := 0 }

/-- Whether a ramp is in progress. -/
def Ramp.running (r : Ramp) : Bool := decide (r.done < r.ms)

/-- A block with a ramp applied, exact. -/
def rampBlock (r : Ramp) (n : Nat) (l : List Rat) : List Rat := l.zipIdx.map fun x => x.1 * r.at_ n x.2

/-! The limiter (R207). -/

/-- The gain that a sample needs. -/
def limNeed (t : Nat) (x : Rat) : Rat :=
  if x = 0 then 1 else let q := (t : Rat) / (if x < 0 then -x else x); if q < 1 then q else 1

/-- One sample of the limiter: the gain after it, from the window of l + 1 samples it heads. -/
def limGain (t l : Nat) (r g : Rat) (w : List Rat) : Rat :=
  let rel := g + (1 - g) * r
  let att := w.zipIdx.foldl (fun a x =>
    let need := limNeed t x.1
    let v := need + (1 - need) * (x.2 : Rat) / (l : Rat)
    if v < a then v else a) 1
  if rel < att then rel else att

/-- A tick of the limiter over the held block, looking into the new one: outputs, final gain, least gain, samples limited. -/
def limiter (t l : Nat) (r : Rat) (g : Rat) (held new : List Rat) : List Int × Rat × Rat × List Nat :=
  let all := held ++ new
  (List.range l).foldl (fun (acc : List Int × Rat × Rat × List Nat) i =>
    let g' := limGain t l r acc.2.1 ((all.drop i).take (l + 1))
    (acc.1 ++ [roundRat (all.getD i 0 * g')], g', if g' < acc.2.2.1 then g' else acc.2.2.1,
      if g' < 1 then acc.2.2.2 ++ [i] else acc.2.2.2)) ([], g, 1, [])

/-! RTP (R166, R167). -/

/-- An RTP packet's fields. -/
structure RtpIn where
  version : Nat
  pt : Nat
  marker : Bool
  seq : Nat
  ts : Nat
  ssrc : Nat
  payload : Bytes
  deriving DecidableEq, Repr

/-- The fields of an RTP packet; padding, CSRC lists and header extensions are skipped (R166). -/
def parseRtp (d : Bytes) : RtpIn :=
  let b0 := u8 d 0
  let o := 12 + 4 * (b0 % 16)
  let o := if bit b0 4 then o + 4 + 4 * beNat (slice d (o + 2) 2) else o
  let p := d.drop o
  let p := if bit b0 5 then p.take (p.length - u8 p (p.length - 1)) else p
  { version := b0 / 64, pt := u8 d 1 % 128, marker := bit (u8 d 1) 7, seq := beNat (slice d 2 2), ts := beNat (slice d 4 4)
    ssrc := beNat (slice d 8 4), payload := p }

/-- Whether an SSRC is accepted under R167, whether it replaces the fixed one, and the reception after it. -/
def RtpRx.accept (cfg ssrc : Nat) (r : RtpRx) : Bool × Bool × RtpRx :=
  if cfg ≠ 0 then (ssrc == cfg, false, { r with ssrc := some cfg })
  else match r.ssrc with
    | none => (true, false, { r with ssrc := some ssrc })
    | some x =>
      if x = ssrc then (true, false, { r with candRun := 0 })
      else
        let n := if r.cand = ssrc ∧ r.candRun ≠ 0 then r.candRun + 1 else 1
        if 4 ≤ n then (true, true, { r with ssrc := some ssrc, candRun := 0, baseSeq := none, received := 0, transit := none, lastSr := none, lostSeen := 0 })
        else (false, false, { r with cand := ssrc, candRun := n })

/-- Sequence counts of RFC 3550 after a packet. -/
def RtpRx.countSeq (seq : Nat) (r : RtpRx) : RtpRx :=
  let r := match r.baseSeq with
    | none => { r with baseSeq := some seq, maxSeq := seq, cycles := 0, received := 0 }
    | some _ =>
      let d := (seq + 65536 - r.maxSeq) % 65536
      if d < 32768 then { r with maxSeq := seq, cycles := if seq < r.maxSeq then r.cycles + 65536 else r.cycles } else r
  { r with received := r.received + 1 }

/-- Loss and jitter counts of RFC 3550 after a packet of media: sequence number, and its transit in 1/65,536 ns (log 25). -/
def RtpRx.count (seq : Nat) (transit : Int) (r : RtpRx) : RtpRx :=
  let j := match r.transit with
    | none => r.j16
    | some o => r.j16 + (transit - o).natAbs - (r.j16 + 8) / 16
  { r.countSeq seq with j16 := j, transit := some transit }

/-- RFC 3550 cumulative loss, floor 0. -/
def RtpRx.lost (r : RtpRx) : Nat :=
  match r.baseSeq with
  | none => 0
  | some b => (r.cycles + r.maxSeq + 1) - b - r.received

/-- Interarrival jitter as time. -/
def RtpRx.jitter (r : RtpRx) : Time := r.j16 / 16

/-- The UDP payload of a received frame as an RTP packet. -/
def frameRtp (f : Frame) : RtpIn := parseRtp f.data

/-- The time to the next RTCP packet, from a draw, for an interval in units of 100 ms (R187). -/
def rtcpDelay (units d : Nat) : Time := units * 50 * tMs + d % Nat.max 1 (units * 100 * tMs)

/-- Whether a packet is RTCP on a multiplexed port (RFC 5761). -/
def isRtcp (d : Bytes) : Bool := 192 ≤ u8 d 1 && u8 d 1 ≤ 223

/-! Legs and conferences. -/

/-- Duration of the last packet of speech. -/
def Leg.frameTime (b : Bytes) (l : Leg) : Time := l.frameTicks * tMs / legClock b

/-- The target delay in ms (R170). -/
def Leg.target (b : Bytes) (l : Leg) : Nat :=
  Nat.min (u16 b 0xA) (Nat.max (u16 b 8) (Nat.max (ceilDiv (l.frameTime b + 4 * l.rtp.jitter) tMs) l.held))

def modLeg (n : Nat) (f : Leg → Leg) (s : State) : State := s.modAudio fun a => { a with legs := mmod a.legs n {} f }
def State.leg (s : State) (n : Nat) : Leg := mgetD s.rt.audio.legs n {}
def modConf (n : Nat) (f : ConfRun → ConfRun) (s : State) : State := s.modAudio fun a => { a with confs := mmod a.confs n {} f }
def State.conf (s : State) (n : Nat) : ConfRun := mgetD s.rt.audio.confs n {}

/-- A LEG.STATS counter by response offset. -/
def bumpLeg (n off : Nat) (k : Nat) (s : State) : State := modLeg n (fun l => { l with stats := bump l.stats off k }) s

/-- A conference's mixing rate in kHz. -/
def confRate (b : Bytes) : Nat := [8, 16, 48].getD (u8 b 2) 8

/-- The block of a tick, where it is held. -/
def blockAt (tick : Nat) (l : List Block) : Option (List Int) := (l.find? fun b => b.1 == tick).map (·.2)

/-- A block between two rates, from the block before it and the block (R206). -/
def reRate (from_ to_ : Nat) (prev y : List Int) : List Int := if from_ = to_ then y else fit_ to_ (Config.resample from_ to_ prev y)

/-- The block of a tick at another rate, where it is held. -/
def blockAs (tick from_ to_ : Nat) (l : List Block) : Option (List Int) :=
  (blockAt tick l).map (reRate from_ to_ ((blockAt (tick - 1) l).getD []))

/-- The first instant of the tick in progress. -/
def State.tickTime (s : State) : Time := s.rt.clover.tick * tMs

/-- The sum of the squares of a block. -/
def energy (l : List Int) : Nat := l.foldl (fun a x => a + (x * x).natAbs) 0

end Sys2Proof.Machine
end

