-- ==== Sys2Proof/Machine/TdmBase.lean ====
section
/-! DEFINITION. Lines, timeslots, defects, counters and protection of the TDM block (R467, R468, R476, R477, R481 to R485, R489, R490). -/

namespace Sys2Proof.Machine

/-- Line objects (R501). -/
def sdhLine (port : Nat) : Nat := 0x10000 + port
def pairLine (w : Nat) : Nat := 0x20000 + w

/-! Settings (R490, R492, R493). -/

/-- Defaults of TDM.SDH_SET and of TDM.PDH_SET and TDM.TRIB_SET. -/
def sdhDefault : Bytes := [0, 0, 15, 1] ++ List.replicate 15 0x20 ++ zeros 5
def lineDefault : Bytes := [0, 0, 0, 9, 0xD5, 13, 0, 0]

/-- The settings last given for a port or a line, which may wait for their boundary. -/
def sdhSet (s : State) (port : Nat) : Bytes :=
  (mget s.rt.tdm.waiting (sdhLine port)).getD (match mget s.rt.tdm.ports port with
    | some p => p.block
    | none => sdhDefault)
def lineSet (s : State) (e : Nat) : Bytes :=
  (mget s.rt.tdm.waiting e).getD (match mget s.rt.tdm.lines e with
    | some l => l.block
    | none => lineDefault)

/-- Whether a TRIB exists under a rate of its port (R467, R493). -/
def tribExists (rate e : Nat) : Bool := rate == 2 || (rate == 1 && e % 252 < 63)

/-- The kind of a line by its mode: 0 carries no timeslots, 1 framed E1, 2 T1, 3 transparent. -/
def lineKind (e : Nat) (b : Bytes) : Nat :=
  if e < 1008 then (match u8 b 2 with
    | 1 => 1
    | 2 => 3
    | _ => 0)
  else u8 b 2

/-- The kind of a line under given settings; a TRIB that does not exist carries nothing. -/
def kindUnder (ports lines : Nat → Bytes) (e : Nat) : Nat :=
  if e < 1008 && !tribExists (u8 (ports (e / 252)) 1) e then 0 else lineKind e (lines e)

/-- Whether a TRIB is the protecting one of a pair of a generation (R481). -/
def protects (g : Generation) (e : Nat) : Bool := g.prots.any fun p => u16 p.2 2 == e

/-- Whether a TSLOT is switchable under given settings in a generation (R468). -/
def switchableUnder (ports lines : Nat → Bytes) (g : Generation) (ts : Nat) : Bool :=
  let e := ts / 32
  let t := ts % 32
  match kindUnder ports lines e with
  | 1 => !protects g e && t != 0 && !(t == 16 && bit (u8 (lines e) 3) 1)
  | 2 => 1 ≤ t && t ≤ 24
  | _ => false

/-- Whether a TSLOT is switchable as the settings last given have it. -/
def switchable (s : State) (g : Generation) (ts : Nat) : Bool := switchableUnder (sdhSet s) (lineSet s) g ts

/-- TSLOTs that a generation names. -/
def namedSlots (g : Generation) : List Nat :=
  (tdmLegs g).map (fun e => legTslot e.2) ++ g.xcs.flatMap (fun e => xcNames e.2) ++ g.bypasses.flatMap (fun e => groupSlots e.2)

/-- TRIBs and PDH ports, as E1 numbers, that a generation names, with the kind that each must be (R480, R481). -/
def namedLines (g : Generation) : List (Nat × List Nat) :=
  (g.xcs.filter fun e => u8 e.2 0 == 2).flatMap (fun e => [(u16 e.2 4, [3]), (1008 + u16 e.2 6, [3])]) ++
    g.prots.flatMap fun e => [(u16 e.2 0, [1, 3]), (u16 e.2 2, [1, 3])]

/-- What of a generation settings would take away: a TSLOT, TRIB or PDH port that it names (R490). -/
def brokenBy (ports lines : Nat → Bytes) (g : Generation) : Option Nat :=
  match (namedSlots g).find? fun ts => !switchableUnder ports lines g ts with
  | some ts => some ts
  | none =>
    match (namedLines g).find? fun x => !x.2.contains (kindUnder ports lines x.1) with
    | some x => some (if x.1 < 1008 then x.1 else x.1 - 1008)
    | none => (g.prots.find? fun p => kindUnder ports lines (u16 p.2 0) != kindUnder ports lines (u16 p.2 2)).map fun p => u16 p.2 0

/-! The lines in force. -/

def State.sdhPort (s : State) (p : Nat) : SdhPort := mgetD s.rt.tdm.ports p {}
def State.line (s : State) (e : Nat) : Line := mgetD s.rt.tdm.lines e {}
def modSdh (p : Nat) (f : SdhPort → SdhPort) (s : State) : State := s.modTdm fun t => { t with ports := mmod t.ports p {} f }
def modE1 (e : Nat) (f : Line → Line) (s : State) : State := s.modTdm fun t => { t with lines := mmod t.lines e {} f }

/-- Settings in force. -/
def sdhOn (s : State) (p : Nat) : Bytes := if (s.sdhPort p).block.isEmpty then sdhDefault else (s.sdhPort p).block
def lineOn (s : State) (e : Nat) : Bytes := if (s.line e).block.isEmpty then lineDefault else (s.line e).block

/-- The kind of a line in force: 0 none, 1 framed E1, 2 T1, 3 transparent. -/
def kindOf (s : State) (e : Nat) : Nat := kindUnder (sdhOn s) (lineOn s) e

/-- A bit of a line's framing options. -/
def framing (s : State) (e i : Nat) : Bool := bit (u8 (lineOn s e) 3) i

/-- A count of a line (R489, R499). -/
def countLine (line off n : Nat) (s : State) : State :=
  if n = 0 then s else s.modTdm fun t => { t with counts := mmod t.counts line [] fun c => bump c off n }

/-! Defects (R476, R477). -/

def defects (s : State) (line : Nat) : Nat := mgetD s.rt.tdm.defects line 0
def defect (s : State) (line code : Nat) : Bool := bit (defects s line) code

/-- Whether the VC-12 of a TRIB arrives failed: its port is in LOS, LOF, MS-AIS or LOM, its AU-4 in AU-AIS or AU-LOP, or it in TU-AIS or
TU-LOP (R476, R484). -/
def tribFails (s : State) (e : Nat) : List Nat :=
  let p := sdhLine (e / 252)
  let a := e % 252 / 63
  ([0, 1, 2, 4 + a, 8 + a, 21].filter fun c => defect s p c) ++ ([16, 17].filter fun c => defect s e c)

/-- The TRIB whose VC-12 an E1 number carries (R481). -/
def pathOf (s : State) (e : Nat) : Nat :=
  match mget s.gens.active.prots e with
  | some b => if (mgetD s.rt.tdm.pairs e {}).protecting then u16 b 2 else e
  | none => e

/-- Whether the timeslots of a line are failed (R477, R591). -/
def lineFailed (s : State) (e : Nat) : Bool :=
  mhas s.rt.power.unlocked 6 || [0, 1, 2, 19].any (fun c => defect s e c) || (decide (e < 1008) && !(tribFails s (pathOf s e)).isEmpty)

/-! Protection (R484). -/

/-- How long after its first errored multiframe a defect is declared, in µs: those that a guard of 2 ms covers within 2 ms, TU-LOP
within 4 ms (R471, R476, R483). -/
def declaredAfter (code : Nat) : Nat :=
  if code = 0 then 20 else if code = 1 then 2000 else if code = 17 then 4000 else if code = 16 then 1500
  else if 8 ≤ code then 1000 else 375

/-- The selection that stands and its precedence (R484). -/
def selection (b : Bytes) (request : Nat) (x : Pair) : Bool × Nat :=
  let act := fun i => x.acts.getD i false
  if request = 1 then (false, 1)
  else if act 1 then (false, 2)
  else if request = 2 then (true, 3)
  else if request = 3 then (false, 3)
  else if act 0 then (true, 4)
  else if act 3 then (false, 5)
  else if act 2 then (true, 6)
  else if request = 4 then (true, 7)
  else if request = 5 then (false, 7)
  else if x.restore.isSome then (true, 8)
  else (x.protecting && u8 b 4 == 0, 9)

/-- A defect bit of a line appears or goes, with its event (R476, R501). -/
def markDefect (line code : Nat) (on : Bool) (s : State) : State :=
  if defect s line code = on then s
  else
    let m := defects s line
    let s := s.modTdm fun t => { t with
      defects := mset t.defects line (if on then m + 2 ^ code else m - 2 ^ code)
      present := if on then mmod t.present line 0 fun v => v ||| 2 ^ code else t.present }
    if on then s.post 0x0D80 3 line code else s.post 0x0D81 1 line code

/-- The selector acts on its requests: a switch is counted and reported, hitless on an aligned pair but for a signal fail that was
declared later than the guard covers (R483, R484). -/
def reselect (w : Nat) (s : State) : State :=
  match mget s.gens.active.prots w with
  | none => s
  | some b =>
    let x := mgetD s.rt.tdm.pairs w {}
    let r := selection b (mgetD s.rt.tdm.requests w 0) x
    if r.1 = x.protecting then s
    else
      let late := fun e => (tribFails s e).any fun c => decide (1000 * u8 b 5 < declaredAfter c)
      let loses := x.aligned.isNone || (r.2 == 2 && late (u16 b 2)) || (r.2 == 4 && late w)
      let s := s.modTdm fun t => { t with pairs := mmod t.pairs w {} fun x =>
        { x with protecting := r.1, restore := if r.1 then x.restore else none } }
      let s := countLine (pairLine w) 8 1 (if loses then countLine (pairLine w) 0xC 1 s else s)
      s.post 0x0D82 2 w ((if r.1 then 2 ^ 24 else 0) + r.2 * 65536 + b2n (!loses))

/-- The conditions of a pair's paths are judged: one acts once it has persisted for the hold-off time; wait-to-restore starts when
those of the working path clear while protecting is selected, and a new one stops it (R484). -/
def judgePair (w : Nat) (s : State) : State :=
  match mget s.gens.active.prots w with
  | none => s
  | some b =>
    let x := mgetD s.rt.tdm.pairs w {}
    let raw := [!(tribFails s w).isEmpty, !(tribFails s (u16 b 2)).isEmpty, x.degraded.getD 0 false, x.degraded.getD 1 false]
    let up := s.up
    let since := (raw.zip x.since).map fun r => if r.1 then some (r.2.getD up) else none
    let acts := since.map fun t => match t with
      | some t => decide (t + u16 b 8 * 100 * tMs ≤ up)
      | none => false
    let was := x.acts.getD 0 false || x.acts.getD 2 false
    let now := acts.getD 0 false || acts.getD 2 false
    let restore := if now then none
      else if was && x.protecting && u8 b 4 == 1 && u16 b 6 != 0 then some (up + u16 b 6 * tS) else x.restore
    let s := s.modTdm fun t => { t with
      pairs := mmod t.pairs w {} fun x => { x with since := since, acts := acts, restore := restore } }
    let s := acts.zipIdx.foldl (fun s a => markDefect (pairLine w) (24 + a.2) a.1 s) s
    reselect w s

/-- Every pair is judged whose path lies on a port, or whose path is a TRIB. -/
def judgePairs (s : State) : State := (mkeys s.gens.active.prots).foldl (fun s w => judgePair w s) s

/-- A defect of a line appears or goes, and the pairs that it concerns are judged. -/
def setDefect (line code : Nat) (on : Bool) (s : State) : State :=
  if defect s line code = on then s else judgePairs (markDefect line code on s)

end Sys2Proof.Machine
end

