-- ==== Sys2Proof/Machine/Leg.lean ====
section
/-! DEFINITION. The LEG commands and the rows of tones (R186 to R195). -/

namespace Sys2Proof.Machine

/-! LEG.SET (R161 to R163, R172, R183, R189, R190). -/

/-- The setting of a serial audio port (R226). -/
def sapBlock (s : State) (p : Nat) : Bytes :=
  let a := mgetD s.rt.audio.saps p {}
  putAt (a.next.getD a.block) 0 [BitVec.ofNat 8 p]

/-- Fields of every transport. -/
def legFlds (b : Bytes) : List Fld :=
  let c := u8 b 3
  [rng 0 2 0 8191, rng 2 1 0 3, rng 3 1 0 10, rng 4 1 1 60, rng 6 2 (if isOpus c then 6 else 0) (if isOpus c then 510 else 0),
    rng 8 2 5 500, rng 0xA 2 5 500, rng 0xC 2 5 500, rng 0xE 1 0 1, rsv 0xF 1, srng 0x10 2 (-600) 200, srng 0x12 2 (-600) 200,
    rng 0x14 2 0 1000, rng 0x16 1 1 4, rng 0x17 1 3 30, (0x18, 1, fun v => 8 ≤ v && v ≤ 128 && v % 8 == 0), msk 0x1A 1 0xF,
    rng 0x1B 1 0 1, msk 0x1C 1 0x3F, (0x1E, 2, fun v => v == 0 || (100 ≤ v && v ≤ 60000)), rsv 0x5C 4]

/-- Fields that depend on the transport. -/
def legPathFlds (b : Bytes) : List Fld :=
  match u8 b 2 with
  | 0 => [rng 0x20 1 0 3, oneOf 0x21 1 [4, 6], rng 0x22 1 0 63, rng 0x23 1 0 127, rng 0x44 2 1024 65535, rng 0x46 2 1 65535,
      slotFld 0x50, slotFld 0x54, (0x58, 1, fun v => v == 0 || (96 ≤ v && v ≤ 127)), rng 0x59 1 5 255, rng 0x5A 2 0 4094]
  | 1 => [rng 0x21 1 0 127, rsv 0x22 58]
  | 2 => [rng 0x20 1 0 3, rng 0x21 1 0 31, rsv 0x22 58]
  | _ => [rng 0x20 1 0 63, rng 0x21 1 0 63, rsv 0x22 58]

/-- Combinations of transport, codec, frame and options (R162, R163, R183, R189). -/
def legCombos (s : State) (b : Bytes) : List Fail :=
  let t := u8 b 2; let c := u8 b 3; let f := u8 b 4; let o := u8 b 5
  let codecOk : Bool := match t with
    | 1 => decide (c ≤ 1)
    | 2 => decide (8 ≤ c) && codecRate c == [8, 16, 48].getD (u8 (sapBlock s (u8 b 0x20)) 3) 0
    | _ => true
  let frameOk : Bool := if t = 1 ∨ t = 2 then f == 1 else (framesOf c).contains f
  badIf (!codecOk) 3 ++ badIf (!frameOk) 4 ++
  badIf ((t != 0 && (bit o 3 || bit o 4 || bit o 7)) || (!isOpus c && (bit o 5 || bit o 6))) 5 ++
  badIf (bit o 0 && codecRate c == 48) 5 ++ badIf (bit o 0 && codecRate c == 16 && decide (64 < u8 b 0x18)) 0x18 ++
  badIf (decide (u16 b 0xA < u16 b 8)) 0xA ++ badIf (decide (u16 b 0xC < u16 b 8) || decide (u16 b 0xA < u16 b 0xC)) 0xC ++
  badIf (t == 2 && decide (u8 (sapBlock s (u8 b 0x20)) 4 ≤ u8 b 0x21)) 0x21 ++
  (if t = 0 then addrBad b 0x21 0x24 ++ addrBad b 0x21 0x34 else [])

/-- Another leg that holds the same binding (R190). -/
def legClash (g : Generation) (n : Nat) (b : Bytes) : List Fail :=
  let t := u8 b 2
  inUse (match t with
    | 0 => sameLocal (rtpLegs g) legLocal (some n) (legLocal b)
    | 3 => (g.legs.find? fun e => e.1 != n && u8 e.2 2 == 3 && (u8 e.2 0x20 == u8 b 0x20 || u8 e.2 0x21 == u8 b 0x21)).map (·.1)
    | _ => (g.legs.find? fun e => e.1 != n && u8 e.2 2 == t && u16 e.2 0x20 == u16 b 0x20).map (·.1)) ++
  (if t = 0 then slotClash g 0 n true (u32 b 0x50) ++ slotClash g 0 n false (u32 b 0x54) else []) ++
  (if t = 1 ∧ (g.xcs.any (fun x => (xcNames x.2).contains (legTslot b)) ||
      g.bypasses.any (fun x => (groupSlots x.2).contains (legTslot b))) then [(.objectInUse, legTslot b)] else [])

/-- Legs of a generation with the echo canceller, but one. -/
def cancellers (g : Generation) (n : Nat) : Nat := (g.legs.filter fun e => e.1 != n && bit (u8 e.2 5) 0).length

/-- LEG.SET (R189, R190). -/
def cmdLegSet : Cmd where
  code := 0x0500
  len := len1 96
  gmode := .modify
  fails := fun r g s =>
    let b := r.params
    fldFails b (legFlds b ++ legPathFlds b) ++ legCombos s b ++ legClash g (u16 b 0) b ++
    badIf (u8 b 2 == 1 && !switchable s g (legTslot b)) 0x21 ++
    failIf (bit (u8 b 5) 0 && decide (2048 ≤ cancellers g (u16 b 0))) .capacityExceeded 1
  run := fun r _ s => okWith (s.stage fun g => { g with legs := mset g.legs (u16 r.params 0) (slice r.params 0 96) })

/-- What still names a leg, in the order of R190. -/
def legUser (g : Generation) (n : Nat) : Option Nat :=
  let first := fun (l : List (Option Nat)) => l.findSome? id
  first [
    lowest ((g.members.filter fun e => e.1 % 8192 == n).map fun e => e.1 / 8192),
    lowest ((g.routes.filter fun e => e.1 / 65536 == n).map fun e => e.1 % 16384),
    lowest ((g.routes.filter fun e => e.1 / 16384 % 4 != 1 && e.1 % 16384 == n).map fun e => e.1 / 65536),
    lowest ((g.subs.filter fun e => u16 e.2 2 == n).map (·.1)),
    if mhas g.lines n || mhas g.selections n then some n else none]

/-- LEG.DELETE (R190). -/
def cmdLegDelete : Cmd where
  code := 0x0501
  len := len1 4
  gmode := .modify
  fails := fun r g _ =>
    fldFails r.params [rng 0 2 0 8191, rsv 2 2] ++ absentBad (mhas g.legs (u16 r.params 0)) 0 ++ inUse (legUser g (u16 r.params 0))
  run := fun r _ s => okWith (s.stage fun g => { g with legs := mdel g.legs (u16 r.params 0) })

/-- LEG.QUERY (R191). -/
def cmdLegQuery : Cmd where
  code := 0x0502
  len := len1 4
  gmode := .read
  fails := fun r g _ => fldFails r.params [rng 0 2 0 8191, rsv 2 2] ++ absentState (mhas g.legs (u16 r.params 0))
  run := fun r g s => okWith s (slice (mgetD g.legs (u16 r.params 0) []) 0 96)

/-- The canceller state of LEG.STATS (R194). -/
def cancellerState (b : Bytes) (l : Leg) : Nat :=
  if !bit (u8 b 5) 0 then 0
  else if l.ecDisabled then 3
  else if bit (u8 b 0x1A) 3 then 4
  else if l.converged then 2 else 1

/-- The LEG.STATS block (R194). -/
def legStats (b : Bytes) (l : Leg) : Bytes :=
  let m := fun o => mgetD l.stats o 0
  block 96 ([0, 4, 0x1C, 0x20, 0x24, 0x28, 0x2C, 0x30, 0x40, 0x44, 0x54].map (fun o => (o, 4, m o)) ++
    [(8, 8, m 8), (0x10, 8, m 0x10), (0x18, 4, l.rtp.lost - l.rtp.lostSeen), (0x34, 4, l.rtp.jitter / tUs), (0x38, 2, l.d),
      (0x3A, 2, if u8 b 0xE = 1 then l.d else l.target b), (0x3C, 4, l.roundTrip), (0x48, 2, l.erle), (0x4A, 2, l.erl),
      (0x4C, 1, cancellerState b l), (0x4D, 1, b2n l.stopped), (0x50, 4, l.rtp.ssrc.getD 0)])

/-- LEG.STATS (R194). -/
def cmdLegStats : Cmd where
  code := 0x0503
  len := len1 4
  fails := fun r _ s =>
    fldFails r.params [rng 0 2 0 8191, rng 2 1 0 1, rsv 3 1] ++ absentState (mhas s.gens.active.legs (u16 r.params 0))
  run := fun r _ s =>
    let n := u16 r.params 0
    let l := mgetD s.seen.audio.legs n {}
    let d := legStats (mgetD s.gens.active.legs n []) l
    okWith (if u8 r.params 2 = 1 then
      s.clearSeen (fun b rt => { rt with audio := { rt.audio with legs := mupd rt.audio.legs n fun x =>
        let y := mgetD b.audio.legs n {}
        { x with stats := lessSeen x.stats y.stats, rtp := { x.rtp with lostSeen := x.rtp.lostSeen + (y.rtp.lost - y.rtp.lostSeen) } } } })
      else s) d

/-- LEG.DETECTOR (R192). -/
def cmdLegDetector : Cmd where
  code := 0x0504
  len := len1 16
  gmode := .modify
  fails := fun r _ _ =>
    let f : Nat → Bool := fun v => v == 0 || (100 ≤ v && v ≤ 3900)
    fldFails r.params [rng 0 1 0 7, rsv 1 1, (2, 2, f), (4, 2, f), rng 6 1 5 50, rng 7 1 0 50, rng 8 2 10 5000, rng 0xA 2 10 5000,
      rng 0xC 1 0 12, rsv 0xD 3]
  run := fun r _ s => okWith (s.stage fun g => { g with detectors := mset g.detectors (u8 r.params 0) (slice r.params 0 16) })

/-! Tones (R186, R193). -/

/-- DTMF characters. -/
def isDigit (v : Nat) : Bool := (0x30 ≤ v && v ≤ 0x39) || v == 0x2A || v == 0x23 || (0x41 ≤ v && v ≤ 0x44)

/-- The digits of a LEG.TONE_PLAY block, up to their terminator. -/
def digitsOf (b : Bytes) : List Nat := ((slice b 0x1C 16).map (·.toNat)).takeWhile (· != 0)

/-- The on and off times of a cadence pair. -/
def cadence (b : Bytes) (i : Nat) : Nat × Nat := (u16 b (0xC + 4 * i), u16 b (0xE + 4 * i))

/-- The length of one repeat in ms (R186). -/
def repeatMs (b : Bytes) : Nat :=
  if u8 b 3 = 1 then (digitsOf b).length * ((cadence b 0).1 + (cadence b 0).2)
  else sum ((List.range (u8 b 0xB)).map fun i => (cadence b i).1 + (cadence b i).2)

/-- LEG.TONE_PLAY (R186, R193). -/
def cmdLegTonePlay : Cmd where
  code := 0x0505
  len := len1 48
  fails := fun r _ s =>
    let b := r.params
    let leg := mgetD s.gens.active.legs (u16 b 0) []
    let half := codecRate (u8 leg 3) * 500
    let tone := u8 b 3 == 0
    let pairs := if tone then u8 b 0xB else 1
    fldFails b ([rng 0 2 0 8191, rng 2 1 0 1, rng 3 1 0 1, srng 8 1 (-50) 3, srng 9 1 (-50) 3, rng 0xB 1 1 4, rsv 0x2C 4] ++
      (List.range (Nat.min 4 pairs)).flatMap (fun i => [rng (0xC + 4 * i) 2 2 30000, rng (0xE + 4 * i) 2 0 30000])) ++
    badIf (tone && decide (half ≤ u16 b 4) && !leg.isEmpty) 4 ++ badIf (tone && decide (half ≤ u16 b 6) && !leg.isEmpty) 6 ++
    badIf (tone && decide (23999 < u16 b 4)) 4 ++ badIf (tone && decide (23999 < u16 b 6)) 6 ++
    badIf (!tone && ((digitsOf b).isEmpty || !(digitsOf b).all isDigit)) 0x1C ++
    absentState (mhas s.gens.active.legs (u16 b 0))
  run := fun r _ s => okWith (modLeg (u16 r.params 0) (fun l => { l with toneNext := some (some (slice r.params 0 48)) }) s)

/-- LEG.TONE_STOP (R186, R191). -/
def cmdLegToneStop : Cmd where
  code := 0x0506
  len := len1 4
  fails := fun r _ s => fldFails r.params [rng 0 2 0 8191, rsv 2 2] ++ absentState (mhas s.gens.active.legs (u16 r.params 0))
  run := fun r _ s =>
    let l := s.leg (u16 r.params 0)
    okWith (if l.tone.isSome ∨ l.toneNext.isSome then modLeg (u16 r.params 0) (fun l => { l with toneNext := some none }) s else s)

/-! The samples of a tone (R164, R186, R193). -/

/-- The pair of frequencies of a DTMF character, low group first. -/
def digitTones (v : Nat) : Nat × Nat :=
  let place := ([0x31, 0x32, 0x33, 0x41, 0x34, 0x35, 0x36, 0x42, 0x37, 0x38, 0x39, 0x43, 0x2A, 0x30, 0x23, 0x44] : List Nat).findIdx (· == v)
  ([697, 770, 852, 941].getD (place / 4) 0, [1209, 1336, 1477, 1633].getD (place % 4) 0)

/-- The on-segment of a tone in which a ms of a repeat lies: place of the pair, ms since it began; none in an off time. -/
def segmentAt (tone : Bytes) (j : Nat) : Option (Nat × Nat) :=
  let per := (cadence tone 0).1 + (cadence tone 0).2
  if u8 tone 3 = 1 then
    if j % per < (cadence tone 0).1 then some (j / per, j % per) else none
  else
    ((List.range (u8 tone 0xB)).foldl (fun (acc : Nat × Option (Nat × Nat)) i =>
      let c := cadence tone i
      (acc.1 + c.1 + c.2, if acc.1 ≤ j && decide (j < acc.1 + c.1) then some (i, j - acc.1) else acc.2)) (0, none)).2

/-- The samples that a tone adds in its k-th tick, at a rate of n per ms: sines whose phase runs on from the tone's start, each on-segment
with a linear ramp of 1 ms at both ends (R186, R193; log 175). -/
def toneBlock (tone : Bytes) (k n : Nat) : List Int :=
  match segmentAt tone (k % repeatMs tone) with
  | none => List.replicate n 0
  | some (i, j) =>
    let digit := u8 tone 3 == 1
    let f := if digit then digitTones ((digitsOf tone).getD i 0) else (u16 tone 4, u16 tone 6)
    let on := (cadence tone (if digit then 0 else i)).1 * n
    (List.range n).map fun x =>
      let m := j * n + x
      let ramp := Nat.min n (Nat.min (m + 1) (on - 1 - m))
      let wave := fun f o => if f = 0 then 0 else peakOf (sN tone o 1) * Config.sine f n (k * n + x)
      roundRat ((wave f.1 8 + wave f.2 9) * (ramp : Rat) / (n : Rat))

def execLegSet (r : Request) (s : State) : Host.Outcome State Fault Refusal := execCmd cmdLegSet r s
def execLegDelete (r : Request) (s : State) : Host.Outcome State Fault Refusal := execCmd cmdLegDelete r s
def execLegQuery (r : Request) (s : State) : Host.Outcome State Fault Refusal := execCmd cmdLegQuery r s
def execLegStats (r : Request) (s : State) : Host.Outcome State Fault Refusal := execCmd cmdLegStats r s
def execLegDetector (r : Request) (s : State) : Host.Outcome State Fault Refusal := execCmd cmdLegDetector r s
def execLegTonePlay (r : Request) (s : State) : Host.Outcome State Fault Refusal := execCmd cmdLegTonePlay r s
def execLegToneStop (r : Request) (s : State) : Host.Outcome State Fault Refusal := execCmd cmdLegToneStop r s

/-- A tone play or stop takes effect at its boundary (R186). -/
def execToneCommandTakeEffect (t : Time) (leg : Fin 8192) (s : State) : Host.Outcome State Fault Refusal :=
  let s := s.advance t
  match (s.leg leg.val).toneNext with
  | some x => done (if s.atBoundary then modLeg leg.val (fun l => { l with tone := x.map fun b => (b, 0), toneNext := none }) s else s)
  | none => done s

/-- The repeats of a tone are exhausted: the tone ends and LEG.TONE_DONE is raised (R186). -/
def execLegToneDone (t : Time) (leg : Fin 8192) (s : State) : Host.Outcome State Fault Refusal :=
  let s := s.advance t
  match (s.leg leg.val).tone with
  | some (b, k) =>
    if u8 b 0xA ≠ 0 ∧ repeatMs b * u8 b 0xA ≤ k then
      done ((modLeg leg.val (fun l => { l with tone := none }) s).post 0x0588 0 leg.val 0)
    else done s
  | none => done s

end Sys2Proof.Machine
end

