-- ==== Sys2Proof/Machine/LegRx.lean ====
section
/-! DEFINITION. A leg's jitter buffer, its receive chain and tone detection, and its timers (R165 to R176, R182, R184, R185). -/

namespace Sys2Proof.Machine

/-! The jitter buffer (R168 to R173). -/

/-- The playout time of an extended timestamp: the first boundary at or after a₀ + D + (ts − ts₀) ÷ rate. -/
def Leg.playout (l : Leg) (clock : Nat) (ts : Int) : Option Time :=
  l.anchor.map fun a => boundaryAt (shiftTime (a.1 + l.d * tMs) ((ts - a.2) * (tMs : Nat) / (clock : Nat)))

/-- The buffer restarts: it empties and anchors at the next accepted packet with D at the initial delay (R171). -/
def Leg.restart (b : Bytes) (l : Leg) : Leg :=
  { l with anchor := none, lastTs := none, d := u16 b 0xC, frames := [], lastEnd := none, beyond := 0, dropIn := none, insert := false }

/-- A raw timestamp extended past 2³² from the last one. -/
def Leg.extend (ts : Nat) (l : Leg) : Int :=
  match l.lastTs with
  | none => (ts : Nat)
  | some (r, e) => e + signed 32 (ts + 4294967296 - r)

/-- An accepted packet anchors the buffer. -/
def Leg.anchorAt (now : Time) (ts : Int) (l : Leg) : Leg := { l with anchor := some (now, ts) }

/-- A packet without an anchor before it anchors the buffer (R171, R173). -/
def Leg.anchorFirst (now : Time) (ts : Nat) (l : Leg) : Leg :=
  match l.anchor with
  | some _ => l
  | none => { l.anchorAt now (l.extend ts) with lastTs := some (ts, l.extend ts) }

/-- What becomes of a packet of media: stored, or a counter of LEG.STATS to raise and whether LEG.JB_LIMIT is raised. The fourth packet in
a row beyond the maximum anchors the buffer anew and is discarded as the three before it (R168, R169). -/
def Leg.store (b : Bytes) (now up : Time) (f : Heard) (l : Leg) : Leg × Option Nat × Bool :=
  match l.playout (legClock b) f.ts with
  | none => ({ l.anchorAt now f.ts with frames := [f], beyond := 0 }, none, false)
  | some p =>
    if p ≤ now then
      ({ l with held := Nat.max l.held (l.d + ceilDiv (now - p) tMs + 1), lateAt := up, beyond := 0 }, some 0x1C, false)
    else if l.frames.any fun g => g.seq == f.seq || (g.ts ≤ f.ts && f.ts < g.ts + (g.ticks : Int)) then
      ({ l with beyond := 0 }, some 0x20, false)
    else if now + u16 b 0xA * tMs < p then
      if 4 ≤ l.beyond + 1 then ({ (l.restart b).anchorAt now f.ts with lastTs := l.lastTs }, some 0x20, true)
      else ({ l with beyond := l.beyond + 1 }, some 0x20, true)
    else ({ l with frames := l.frames ++ [f], beyond := 0 }, none, false)

/-- Whether a packet comes after a gap of at least 3 frames that the sender marked: by SID before it, or by DTX, which leaves out time but
no sequence number (R170; log 176). -/
def Leg.afterGap (seq : Nat) (ts : Int) (l : Leg) : Bool :=
  match l.lastEnd with
  | some (q, e, sid) => (sid || seq == (q + 1) % 65536) && decide (e + 3 * (l.frameTicks : Int) ≤ ts) && decide (0 < l.frameTicks)
  | none => false

/-- At the start of a talk spurt D takes the target at once (R170). -/
def Leg.spurt (b : Bytes) (marker : Bool) (seq : Nat) (ts : Int) (l : Leg) : Leg :=
  if u8 b 0xE = 0 ∧ (marker ∨ l.afterGap seq ts) ∧ l.anchor.isSome then { l with d := l.target b } else l

/-- The newest packet's end, for the next gap. -/
def Leg.noteEnd (seq : Nat) (end_ : Int) (sid : Bool) (l : Leg) : Leg :=
  match l.lastEnd with
  | some (q, _, _) => if (seq + 65536 - q) % 65536 < 32768 then { l with lastEnd := some (seq, end_, sid) } else l
  | none => { l with lastEnd := some (seq, end_, sid) }

/-- A valid packet: the state leaves WAITING or TIMED_OUT, where it restarts the buffer (R173). -/
def validPacket (n : Nat) (b : Bytes) (s : State) : State :=
  let l := s.leg n
  let up := s.up
  let s' := modLeg n (fun l => { l with rxState := .playing, rtp := { l.rtp with lastValid := up } }) s
  match l.rxState with
  | .timedOut => (modLeg n (Leg.restart b) s').post 0x0584 1 n ((up - l.rtp.lastValid) / tMs)
  | .waiting => modLeg n (Leg.restart b) s'
  | .playing => s'

/-- A telephone event of RFC 4733: events 0 to 15 are reported as tones, others are discarded (R185). -/
def telephoneEvent (n : Nat) (p : RtpIn) (clock : Nat) (s : State) : State :=
  let e := u8 p.payload 0
  let l := s.leg n
  let ended := l.event == some (p.ts, true)
  let first := !ended && l.event != some (p.ts, false)
  let fin := bit (u8 p.payload 1) 7 && !ended
  if 15 < e then bumpLeg n 0x24 1 s
  else
    let s := if first then
        (modLeg n (fun l => { l with event := some (p.ts, false), stats := bump l.stats 0x54 }) s).post 0x0580 0 n (16 * 2 ^ 24 + e)
      else s
    if fin then
      (modLeg n (fun l => { l with event := some (p.ts, true) }) s).post 0x0581 0 n
        (16 * 2 ^ 24 + beNat (slice p.payload 2 2) / clock)
    else s

/-- Whether a payload is a SID or comfort-noise payload of a codec. -/
def isSid (codec pt : Nat) (p : Bytes) : Bool := pt == 13 || ((codec == 3 || codec == 4) && p.length % 10 == 2)

/-- A media packet that has passed R166 and R167 enters the buffer (R168 to R171). Comfort noise holds no audio, only a level (R174). -/
def bufferPacket (n : Nat) (b : Bytes) (arrived : Time) (seq ts pt : Nat) (marker sid : Bool) (payload : Bytes) (s : State) : State :=
  let c := u8 b 3
  let l := s.leg n
  let ext := l.extend ts
  let noise := pt == 13 || (sid && decide (c ≤ 2))
  let ticks := if noise then 0 else legTicks b payload
  let transit : Int := (arrived : Int) - ext * (tMs : Nat) / (legClock b : Nat)
  let l := { l with
    lastTs := some (ts, ext), rtp := l.rtp.count seq transit
    cnLevel := if noise then some (u8 payload 0 % 128)
      else if sid then some (Config.sidLevel (payload.drop (payload.length / 10 * 10))) else l.cnLevel }
  let l := l.spurt b marker seq ext
  let l := if sid ∨ ticks = 0 then l else { l with frameTicks := ticks }
  let r := l.store b arrived s.up
    { ts := ext, seq := seq, payload := payload, ticks := ticks, sid := sid, marker := marker, pt := pt, at_ := arrived }
  let l := r.1.noteEnd seq (ext + (ticks : Int)) sid
  let s := modLeg n (fun _ => l) s
  let s := match r.2.1 with
    | some o => bumpLeg n o 1 s
    | none => s
  s.postIf r.2.2 0x0585 2 n 1

/-- An RTP packet classified to a leg is checked in the order of R166. -/
def legRtp (n : Nat) (b : Bytes) (arrived : Time) (f : Frame) (s : State) : State :=
  let p := frameRtp f
  let c := u8 b 3
  let te := u8 b 0x58
  let srcOk := f.src == slice b 0x34 16 && f.sport.toNat == u16 b 0x46
  if bit (u8 b 5) 7 ∧ !srcOk then bumpLeg n 0x24 1 s
  else if p.version ≠ 2 then bumpLeg n 0x24 1 s
  else if p.pt ≠ u8 b 0x23 ∧ ¬ (te ≠ 0 ∧ p.pt = te) ∧ ¬ (p.pt = 13 ∧ c ≤ 2) then bumpLeg n 0x24 1 s
  else
    let a := (s.leg n).rtp.accept (u32 b 0x4C) p.ssrc
    let s := modLeg n (fun l => { l with rtp := a.2.2 }) s
    if !a.1 then bumpLeg n 0x24 1 s
    else
      let s := if a.2.1 then (modLeg n (Leg.restart b) s).post 0x0582 1 n p.ssrc else s
      let s := validPacket n b s
      let s := bumpLeg n 8 p.payload.length (bumpLeg n 0 1 s)
      if te ≠ 0 ∧ p.pt = te then
        telephoneEvent n p (codecClock c) (modLeg n (fun l => { l.anchorFirst arrived p.ts with rtp := l.rtp.countSeq p.seq }) s)
      else bufferPacket n b arrived p.seq p.ts p.pt p.marker (isSid c p.pt p.payload) p.payload s

/-- A stream-FIFO packet of an HSP leg: an 8-byte header and one codec frame (R177). -/
def legHsp (n : Nat) (b : Bytes) (arrived : Time) (d : Bytes) (s : State) : State :=
  if d.length < 8 ∨ u8 d 7 ≠ 0 then bumpLeg n 0x24 1 s
  else
    let s := validPacket n b s
    let p := d.drop 8
    let s := bumpLeg n 8 p.length (bumpLeg n 0 1 s)
    bufferPacket n b arrived (u16 d 4) (u32 d 0) 0 (bit (u8 d 6) 0) (bit (u8 d 6) 1) p s

/-- A packet classified to a leg, from its inbox (R166). -/
def execLegRxPacket (t : Time) (leg : Fin 8192) (s : State) : Host.Outcome State Fault Refusal :=
  let s := s.advance t
  match if s.stalls 30 then none else mget s.gens.active.legs leg.val with
  | none => done s
  | some b =>
    match popInbox leg.val s with
    | (some (a, f), s) => done (if u8 b 2 = 3 then legHsp leg.val b a f.data s else legRtp leg.val b a f s)
    | (none, s) => done s

/-- No valid packet for the media timeout (R173). -/
def execLegMediaTimeout (t : Time) (leg : Fin 8192) (s : State) : Host.Outcome State Fault Refusal :=
  let s := s.advance t
  let n := leg.val
  let b := mgetD s.gens.active.legs n []
  let l := s.leg n
  let m := u16 b 0x1E
  if l.rxState = .playing ∧ m ≠ 0 ∧ l.rtp.lastValid + m * tMs ≤ s.up then
    done ((modLeg n (fun l => { l with rxState := .timedOut }) s).post 0x0583 2 n 0)
  else done s

/-- Each 10 s without a late packet lowers the held value by 1 ms (R170). -/
def execJbHeldDecay (t : Time) (leg : Fin 8192) (s : State) : Host.Outcome State Fault Refusal :=
  let s := s.advance t
  let l := s.leg leg.val
  if mhas s.gens.active.legs leg.val ∧ l.lateAt + 10 * tS ≤ s.up then
    done (modLeg leg.val (fun l => { l with held := l.held - 1, lateAt := l.lateAt + 10 * tS }) s)
  else done s

/-- The receive level has stayed below −36 dBm0 for 250 ms: cancellation resumes (R182). -/
def execEcReenableExpiry (t : Time) (leg : Fin 8192) (s : State) : Host.Outcome State Fault Refusal :=
  let s := s.advance t
  let l := s.leg leg.val
  done (if l.ecDisabled ∧ 250 ≤ l.quietMs then
    (modLeg leg.val (fun l => { l with ecDisabled := false }) s).post 0x0587 1 leg.val 0 else s)

/-! Decoding and concealment of one tick (R165, R174, R176). -/

/-- The concealment block of a leg (R174). -/
def concealBlock (codec n tick : Nat) (l : Leg) : List Int :=
  if 60 ≤ l.lossMs then
    match l.cnLevel with
    | some v => fit n (Config.comfortNoise v n tick)
    | none => List.replicate n 0
  else scaleBlock (attenuation l.lossMs) (fit n (Config.concealAudio codec l.dec l.lossMs))

/-- A tick is concealed: its block and the leg after it. -/
def Leg.conceal (codec n tick : Nat) (l : Leg) : List Int × Leg :=
  (concealBlock codec n tick l,
    { l with lossMs := l.lossMs + 1, dec := Config.concealNext codec l.dec l.lossMs, stats := bump l.stats 0x2C })

/-- The frame that holds the tick that starts at a time, and the tick within it. -/
def Leg.frameAt (clock : Nat) (at_ : Time) (l : Leg) : Option (Heard × Nat) :=
  l.frames.findSome? fun f => match l.playout clock f.ts with
    | some p => if p ≤ at_ && decide (at_ < p + f.ticks * tMs / clock) then some (f, (at_ - p) / tMs) else none
    | none => none

/-- The Opus packet that follows the missing frame of that tick, where it arrived before that frame's P, and the tick within the frame
(R174). -/
def Leg.fecAt (clock : Nat) (at_ : Time) (l : Leg) : Option (Heard × Nat) :=
  l.frames.findSome? fun f => match l.playout clock f.ts, l.playout clock (f.ts - (l.frameTicks : Int)) with
    | some p, some m => if m ≤ at_ && decide (at_ < p) && decide (f.at_ < m) then some (f, (at_ - m) / tMs) else none
    | _, _ => none

/-- The decoded block of the tick that starts at a time, or its in-band FEC, with the decoder's state after it; none where there is no
data (R174). -/
def playTick (b : Bytes) (at_ : Time) (l : Leg) : Option (List Int × Nat) :=
  let c := u8 b 3
  let n := codecRate c
  match l.frameAt (legClock b) at_ with
  | some (f, j) => some (fit n (Config.decodeAudio c l.dec f.payload j), Config.decodeNext c l.dec f.payload j)
  | none =>
    if isOpus c then
      match l.fecAt (legClock b) at_ with
      | some (f, j) => (Config.fecAudio l.dec f.payload j).map fun y => (fit n y, Config.decodeNext c l.dec f.payload j)
      | none => none
    else none

/-- Frames played out are freed. -/
def freeFrames (clock : Nat) (at_ : Time) (l : Leg) : Leg :=
  { l with frames := l.frames.filter fun f => match l.playout clock f.ts with
    | some p => decide (at_ + tMs < p + f.ticks * tMs / clock) || at_ < p
    | none => true }

/-- Two blocks cross-faded over the tick (R176). -/
def crossFade (a b : List Int) : List Int :=
  let n := b.length
  b.zipIdx.map fun x => roundRat ((smp a x.2 : Rat) * (1 - ((x.2 + 1 : Nat) : Rat) / (n : Rat)) + (x.1 : Rat) * ((x.2 + 1 : Nat) : Rat) / (n : Rat))

/-- A tick with or without decoded data: whether it is concealed, its block, and the leg after it. On packet transports the first decoded
tick after concealment is cross-faded with it (R176). -/
def Leg.give (codec n tick : Nat) (fade : Bool) (r : Option (List Int × Nat)) (l : Leg) : Bool × List Int × Leg :=
  match r with
  | some d => (false, if l.lossMs = 0 || !fade then d.1 else crossFade (concealBlock codec n tick l) d.1, { l with lossMs := 0, dec := d.2 })
  | none => (true, l.conceal codec n tick)

/-- A tick of the jitter buffer. -/
def bufferTick (b : Bytes) (at_ : Time) (l : Leg) : Bool × List Int × Leg :=
  let r := l.give (u8 b 3) (codecRate (u8 b 3)) (at_ / tMs) true (playTick b at_ l)
  (r.1, r.2.1, freeFrames (legClock b) at_ r.2.2)

/-- The energies of the next ticks, as the buffer stands (R170). -/
def nextEnergies (b : Bytes) : Nat → Time → Leg → List Nat
  | 0, _, _ => []
  | k + 1, at_, l =>
    let r := bufferTick b at_ l
    energy r.2.1 :: nextEnergies b k (at_ + tMs) r.2.2

/-- The place of the least of a list, the first among equals. -/
def leastPlace (l : List Nat) : Nat := l.findIdx (· == l.foldl Nat.min (l.headD 0))

/-- D moves 1 ms toward the target at each boundary whose tick number is a multiple of 200, at behaviour level 2 of 500: it grows by a
tick of concealment and shrinks by the tick of least energy among the next 20 (R170, R663; log 31). -/
def execJbDelayStep (t : Time) (leg : Fin 8192) (s : State) : Host.Outcome State Fault Refusal :=
  let s := s.advance t
  let n := leg.val
  match mget s.gens.active.legs n with
  | none => done s
  | some b =>
    let l := s.leg n
    if s.atBoundary ∧ s.now / tMs % (if s.level = 2 then 500 else 200) = 0 ∧ u8 b 0xE = 0 ∧ l.rxState = .playing ∧ l.anchor.isSome then
      if l.d < l.target b then
        done (modLeg n (fun l => { l with d := l.d + 1, insert := true, stats := bump l.stats 0x40 }) s)
      else if l.target b < l.d ∧ l.dropIn.isNone then
        done (modLeg n (fun l => { l with dropIn := some (leastPlace (nextEnergies b 20 s.now l)) }) s)
      else done s
    else done s

/-- A word of a serial audio slot as a 24-bit sample: the leading bits of its width, 16 of them with 8 zero bits appended (R216). -/
def sapSample (block : Bytes) (w : Nat) : Int :=
  let n := u8 block 6
  signed n (w / 2 ^ (u8 block 5 - n) % 2 ^ n) * ((2 ^ (24 - n) : Nat) : Int)

/-- The stage-4 block of a tick before echo cancellation: whether it is concealed, the block, and the leg after it. -/
def legReceive (s : State) (b : Bytes) (x : LegTick) (l : Leg) : Bool × List Int × Leg :=
  let c := u8 b 3
  let n := codecRate c
  let tick := s.rt.clover.tick
  let silent := List.replicate n (0 : Int)
  match u8 b 2 with
  | 1 => { l with tdmIn := [] }.give c n tick false (if l.tdmIn.isEmpty then none
      else some (fit n (Config.decodeAudio c l.dec l.tdmIn 0), Config.decodeNext c l.dec l.tdmIn 0))
  | 2 =>
    let p := mgetD s.rt.audio.saps (u8 b 0x20) {}
    if p.stopped then l.give c n tick false none
    else if u8 p.block 1 = 0 then (false, silent, l)
    else l.give c n tick false (some (fit n (x.line.map (sapSample p.block)), l.dec))
  | _ =>
    if l.rxState ≠ .playing ∨ l.anchor.isNone then (false, silent, l)
    else if l.insert then { l with insert := false }.give c n tick true none
    else bufferTick b s.tickTime (match l.dropIn with
      | some 0 => { l with d := l.d - 1, dropIn := none, stats := bump l.stats 0x44 }
      | some (k + 1) => { l with dropIn := some k }
      | none => l)

/-! The echo canceller (R182). -/

/-- The ticks of the send signal whose echo the canceller covers: from the bulk delay to the tail past it. -/
def echoReference (b : Bytes) (l : Leg) : List (List Int) := (l.sentTicks.drop (u8 b 0x19)).take (u8 b 0x18)

/-- Whether a tone in replace mode is the only send signal. -/
def toneReplaces (l : Leg) : Bool :=
  match l.tone with
  | some (t, _) => u8 t 2 == 1
  | none => false

/-- The canceller on one tick: the block with the estimate subtracted and its residual suppressed, and the leg after it. Coefficients are
held by the freeze option, in double talk, and while a tone in replace mode is the only send signal. -/
def cancelEcho (b : Bytes) (y : List Int) (l : Leg) : List Int × Leg :=
  let opts := u8 b 0x1A
  let ref := echoReference b l
  let est := Config.echoEstimate l.coef ref
  let two := Config.doubleTalk l.coef ref y
  let e := y.zipIdx.map fun v => clip24 (v.1 - smp est v.2)
  let z := if bit opts 0 && !two then fit y.length (Config.suppressEcho (bit opts 1) l.coef ref e) else e
  let coef := if bit opts 3 || two || toneReplaces l then l.coef else Config.echoAdapt l.coef ref y
  (z, { l with coef := coef, erle := Config.erle coef y, erl := Config.erl coef y, converged := Config.converged coef })

/-! Tone detection (R184, R185). -/

/-- Whether a component lies within w Hz of a frequency. -/
def Component.near (f w : Nat) (c : Component) : Bool := decide (((c.f : Int) - (10 * f : Nat)).natAbs ≤ 10 * w)

/-- Whether a component lies within a tolerance in 0.1 % of a frequency. -/
def Component.within (f tol : Nat) (c : Component) : Bool := decide (((c.f : Int) - (10 * f : Nat)).natAbs * 1000 ≤ 10 * f * tol)

/-- The level of the strongest component that meets a condition. -/
def levelIn (x : LegTick) (p : Component → Bool) : Option Int :=
  (x.tones.filter p).foldl (fun a c => match a with
    | some v => some (if v < c.level then c.level else v)
    | none => some c.level) none

/-- RFC 4733 codes of the DTMF digits by their place in the keypad of 4 rows. -/
def keypad : List Nat := [1, 2, 3, 12, 4, 5, 6, 13, 7, 8, 9, 14, 10, 0, 11, 15]

/-- The DTMF digit that a tick holds: both tones in tolerance, each at least −30 dBm0, twist at most 8 dB forward, the low group being the
stronger, and 4 dB reverse (R184; log 177). -/
def dtmfOf (x : LegTick) : Option Nat :=
  let tol := if x.lean then 35 else 15
  (List.range 16).findSome? fun i =>
    match levelIn x (Component.within ([697, 770, 852, 941].getD (i / 4) 0) tol),
      levelIn x (Component.within ([1209, 1336, 1477, 1633].getD (i % 4) 0) tol) with
    | some lo, some hi =>
      if -300 ≤ lo ∧ -300 ≤ hi ∧ lo - hi ≤ 80 ∧ hi - lo ≤ 40 then some (keypad.getD i 0) else none
    | _, _ => none

/-- Whether a tick meets a programmable detector (R192). -/
def meetsDetector (d : Bytes) (x : LegTick) : Bool :=
  let floor : Int := -10 * (u8 d 7 : Int)
  let at_ := fun f => match levelIn x (Component.within f (u8 d 6)) with
    | some v => if floor ≤ v then some v else none
    | none => none
  u16 d 2 != 0 && (match at_ (u16 d 2) with
    | none => false
    | some a => u16 d 4 == 0 || (match at_ (u16 d 4) with
      | some c => decide ((a - c).natAbs ≤ 10 * u8 d 0xC)
      | none => false))

/-- The value with which a tick meets a detector; none where it does not (R184, R192). The value of detector 3 has bit 0 for amplitude
modulation and bit 1 for a phase reversal (log 178). -/
def detected (g : Generation) (k : Nat) (x : LegTick) : Option Nat :=
  let ans := (levelIn x (Component.near 2100 15)).isSome
  let give := fun (c : Bool) v => if c then some v else none
  match k with
  | 0 => dtmfOf x
  | 1 => give (decide (-350 ≤ x.band)) 0
  | 2 => give (decide (3 ≤ x.flags)) 0
  | 3 => give ans (b2n x.am + 2 * b2n x.reversal)
  | 4 => give (levelIn x (Component.near 1100 38)).isSome 0
  | 5 => give (ans && !x.reversal) 0
  | _ => give (meetsDetector (mgetD g.detectors (k - 8) []) x) 0

/-- The ms for which a detector must be met before it accepts, and not be met before the tone has ended (R184, R192). -/
def detectorTimes (g : Generation) (k : Nat) : Nat × Nat :=
  if k < 6 then ([40, 1, 1, 400, 400, 2600].getD k 0, 1)
  else
    let d := mgetD g.detectors (k - 8) []
    (u16 d 8, u16 d 0xA)

/-- Whether a leg uses a detector. -/
def usesDetector (b : Bytes) (k : Nat) : Bool :=
  if k < 6 then bit (u8 b 0x1C) k else decide (8 ≤ k) && bit (u8 b 0x1D) (k - 8)

/-- A tone ends after a number of ms: LEG.TONE_OFF has the time of its end (R184). A digit's end starts the last 20 ms of its mute (R185). -/
def toneEnds (n k : Nat) (f : Heeded) (ms : Nat) (s : State) : State :=
  let tick := s.rt.clover.tick
  let s := modLeg n (fun l => { l with
    found := mdel l.found k
    digitEnd := if k = 0 ∧ f.accepted then some tick else l.digitEnd
    muteTo := if k = 0 ∧ f.accepted then tick + 20 else l.muteTo }) s
  if f.accepted then
    s.raiseAt (f.start + ms * tMs) { code := 0x0581, sev := 0, obj := n, detail := k * 2 ^ 24 + ms % 2 ^ 24 }
  else s

/-- A tone that has lasted long enough is accepted: LEG.TONE_ON has the time of its start (R184). -/
def toneAccepts (n k on : Nat) (s : State) : State :=
  match mget (s.leg n).found k with
  | some f =>
    if !f.accepted && decide (on ≤ f.ms) then
      (modLeg n (fun l => { l with found := mset l.found k { f with accepted := true }, stats := bump l.stats 0x54 }) s).raiseAt f.start
        { code := 0x0580, sev := 0, obj := n, detail := k * 2 ^ 24 + f.value }
    else s
  | none => s

/-- A detector on one tick (R184). None starts or accepts in a concealed tick; a tone in progress is held through 20 ms of concealment.
A digit follows another's end by at least 40 ms. A phase reversal of a tone that detector 3 has accepted is reported anew (log 178). -/
def toneStep (n : Nat) (g : Generation) (concealed : Bool) (x : LegTick) (s : State) (k : Nat) : State :=
  let l := s.leg n
  let tick := s.rt.clover.tick
  let times := detectorTimes g k
  let put := fun (f : Heeded) s => modLeg n (fun l => { l with found := mset l.found k f }) s
  match mget l.found k with
  | none =>
    let close := match l.digitEnd with
      | some e => k == 0 && decide (tick < e + 40)
      | none => false
    match (if concealed || close then none else detected g k x) with
    | some v => toneAccepts n k times.1 (put { start := s.tickTime, ms := 1, value := v } s)
    | none => s
  | some f =>
    let f' := { f with ms := f.ms + 1 }
    if concealed then
      if 20 ≤ f.concealed then toneEnds n k f (f.ms - f.concealed) s else put { f' with concealed := f.concealed + 1 } s
    else
      match detected g k x with
      | some v =>
        if k = 0 ∧ v ≠ f.value then toneEnds n k f f.ms s
        else
          let s := put { f' with gone := 0, concealed := 0, value := if f.accepted then f.value else f.value ||| v } s
          let s := s.postIf (k == 3 && f.accepted && bit v 1) 0x0580 0 n (k * 2 ^ 24 + v)
          toneAccepts n k times.1 s
      | none =>
        if times.2 ≤ f.gone + 1 ∨ !f.accepted then toneEnds n k f (f.ms - f.gone) s
        else put { f' with gone := f.gone + 1, concealed := 0 } s

/-- The detectors of a leg on one tick (R184). -/
def legTones (n : Nat) (b : Bytes) (concealed : Bool) (x : LegTick) (s : State) : State :=
  ((List.range 16).filter (usesDetector b)).foldl (toneStep n s.gens.active concealed x) s

/-- Whether the receive output is muted in a tick: a digit has been accepted and has not ended, or ended less than 20 ms ago (R185). -/
def isMuted (b : Bytes) (tick : Nat) (l : Leg) : Bool :=
  u8 b 0x1B == 1 && ((match mget l.found 0 with
    | some f => f.accepted
    | none => false) || decide (tick < l.muteTo))

/-! What the recorder takes from a leg (R376, R377). -/

/-- Frames that have begun to play are marked, and those that had not been are listed with their playout times. -/
def begin_ (clock : Nat) (at_ : Time) (old : List Heard) (l : Leg) : List (Heard × Time) × Leg :=
  let due := fun (f : Heard) => match l.playout clock f.ts with
    | some p => decide (p ≤ at_)
    | none => false
  let new := old.filter fun f => !f.begun && due f
  (new.map fun f => (f, (l.playout clock f.ts).getD 0),
    { l with frames := l.frames.map fun f => if due f then { f with begun := true } else f })

/-- The receive side of a selected leg in one tick: frames that begin to play, octets of the line, or the stage-4 block. -/
def recReceive (n : Nat) (b : Bytes) (flags : Nat) (frames : List (Heard × Time)) (line : Bytes) (prev y : List Int) (s : State) :
    State :=
  let c := u8 b 3
  let at_ := s.tickTime
  let s := if recorded s n 0 2 then gather n 0 3 c flags at_ (linear16 (codecRate c) prev y) s else s
  if recorded s n 0 1 then
    let s := frames.foldl (fun s f => pushRecord
      { type := 1, codec := c, object := n, time := f.2, ms := f.1.ticks / legClock b, flags := b2n f.1.marker + 2 * b2n f.1.sid
        pt := f.1.pt, ts := (f.1.ts % 4294967296).toNat, data := f.1.payload } s) s
    if flags &&& 12 ≠ 0 then addRun n c (flags &&& 12) at_ (flushAcc n 0 1 c s)
    else
      let s := flushRun n c s
      if line.isEmpty then s else gather n 0 1 c flags at_ line s
  else s

/-- The receive side of a leg's tick item (R165). -/
def legRxTick (n : Nat) (b : Bytes) (x : LegTick) (s : State) : State :=
  let tick := s.rt.clover.tick
  let c := u8 b 3
  let sp := codecRate c
  let l0 := s.leg n
  let r := legReceive s b x l0
  let begun := begin_ (legClock b) s.tickTime l0.frames r.2.2
  let ec := bit (u8 b 5) 0 && !begun.2.ecDisabled
  let e := if ec then cancelEcho b r.2.1 begun.2 else (r.2.1, { begun.2 with erle := 0, erl := 0, converged := false })
  let y := e.1
  let opts := u8 b 5 / 2 % 4
  let cond := if opts = 0 then (y, e.2.cond) else
    (fit sp (Config.conditionAudio opts (u8 b 0x16) (u8 b 0x17) sp e.2.cond y), Config.conditionNext opts (u8 b 0x16) (u8 b 0x17) sp e.2.cond y)
  let muted := isMuted b tick l0
  let z := if muted then List.replicate sp 0 else cond.1
  let quiet := !atLeastDbov ((energy r.2.1 : Rat) / (sp : Rat)) (centiDbov (-36))
  let l := { e.2 with
    cond := cond.2, lastRx := y, rx := ((tick, z), e.2.recvRamp) :: e.2.rx.take 2, recvRamp := e.2.recvRamp.tick
    quietMs := if quiet then e.2.quietMs + 1 else 0 }
  let s := legTones n b r.1 x (modLeg n (fun _ => l) s)
  let line := if u8 b 2 = 1 then l0.tdmIn else if u8 b 2 = 2 then encodeFrame b 0 r.2.1 else []
  let s := recReceive n b ((if r.1 then 4 else 0) + if muted then 32 else 0) begun.1 line l0.lastRx y s
  if ec ∧ x.reversal ∧ (levelIn x (Component.near 2100 15)).isSome ∧ bit (u8 b 0x1A) 2 then
    (modLeg n (fun l => { l with ecDisabled := true }) s).post 0x0586 1 n 0
  else s

end Sys2Proof.Machine
end

