-- ==== Sys2Proof/Machine/LegRun.lean ====
section
/-! DEFINITION. A leg's send chain and its tick item (R175, R177 to R180, R186, R204 to R207). -/

namespace Sys2Proof.Machine

/-! What the recorder takes from a leg's send side (R376, R377). -/

/-- The send side of a selected leg in one tick: the stage-3 block, or the line's octets. -/
def recSend (n : Nat) (b : Bytes) (flags : Nat) (y : List Int) (s : State) : State :=
  let c := u8 b 3
  let l := s.leg n
  let at_ := s.tickTime
  let s := if recorded s n 1 2 then gather n 1 4 c flags at_ (linear16 (codecRate c) (l.sentTicks.headD []) y) s else s
  if recorded s n 1 1 ∧ (u8 b 2 = 1 ∨ u8 b 2 = 2) then gather n 1 2 c flags at_ (encodeFrame b l.enc y) s else s

/-- A packet of a selected leg, as packetised. -/
def recPacket (n : Nat) (b : Bytes) (pt : Nat) (marker : Bool) (ts : Nat) (payload : Bytes) (s : State) : State :=
  if recorded s n 1 1 then
    pushRecord { type := 2, codec := u8 b 3, object := n, time := s.tickTime - (u8 b 4 - 1) * tMs, ms := u8 b 4, flags := b2n marker
                 pt := pt, ts := ts, data := payload } s
  else s

/-! Send stage 1 (R206, R211). -/

/-- The amplitude of a leg's receive gain times a factor at each sample of a tick at a rate of n per ms, from the block before it and the
block at their rate (R199). -/
def contribution (prev z : List Int) (recv : Ramp) (from_ n : Nat) (f : Nat → Rat) : List Int :=
  let c := reRate from_ n prev z
  (List.range n).map fun i => roundRat ((smp c i : Rat) * recv.at_ n i * f i)

/-- A leg's receive block of a tick, its gain, and the block before it; none where its item was missed (R198). -/
def Leg.rxOf (tick : Nat) (missedToo : Bool) (l : Leg) : Option (List Int × List Int × Ramp) :=
  if !missedToo && l.missed.contains tick then none
  else (l.rx.find? fun e => e.1.1 == tick).map fun e => ((blockAt (tick - 1) (l.rx.map (·.1))).getD [], e.1.2, e.2)

/-- What a conference gives a listening leg from the previous tick, at the leg's rate: its minus-one where it has one,
otherwise the shared output (R197, R206). -/
def fromConf (s : State) (leg conf tick n : Nat) : List Rat :=
  let c := s.conf conf
  let k := confRate (mgetD s.gens.active.confs conf [])
  let own := blockAs tick k n (mgetD c.outs leg [])
  match if own.isSome then own else blockAs tick k n (mgetD c.outs 65535 []) with
  | none => []
  | some y => rampBlock (mgetD c.outRamp leg {}) n ((List.range n).map fun i => (smp y i : Rat))

/-- What a route gives its destination from source data of a tick, at the destination's rate (R211, R213). -/
def fromRoute (s : State) (key tick n : Nat) (ramp : Ramp) : List Rat :=
  let src := key % 16384
  let y : List Int := match key / 16384 % 4 with
    | 1 => (blockAs tick (confRate (mgetD s.gens.active.confs src [])) n (mgetD (s.conf src).outs 65535 [])).getD []
    | kind =>
      let l := s.leg src
      let k := codecRate (u8 (mgetD s.gens.active.legs src []) 3)
      let a := match l.rxOf tick true with
        | some e => contribution e.1 e.2.1 e.2.2 k n fun _ => 1
        | none => []
      let t := if kind = 2 then (blockAs tick k n l.tx).getD [] else []
      (List.range n).map fun i => smp a i + smp t i
  rampBlock ramp n ((List.range n).map fun i => (smp y i : Rat))

/-- The sum of the sources of a leg's send stage 1, exact (R206). -/
def stageOne (s : State) (leg tick n : Nat) : List Rat :=
  let confs := (s.rt.audio.confs.filter fun c => mhas c.2.outRamp leg).map fun c => fromConf s leg c.1 tick n
  let routes := (s.rt.audio.routes.filter fun r => r.1 / 65536 == leg).map fun r => fromRoute s r.1 tick n r.2.1
  (List.range n).map fun i => (confs ++ routes).foldl (fun a l => a + l.getD i 0) 0

/-- The ramps of a leg's listening and of its routes move on by a tick; what has ramped out is gone (R208, R213). -/
def tickRamps (leg : Nat) (s : State) : State :=
  let gone := fun (r : Ramp) => r.g1 == 0 && !r.running
  s.modAudio fun a =>
    { a with
      routes := (mall a.routes fun k r => if k / 65536 = leg then (r.1.tick, r.2) else r).filter fun e =>
        !(e.1 / 65536 == leg && e.2.2.2 && gone e.2.1)
      confs := mall a.confs fun _ c => { c with outRamp := mupd c.outRamp leg Ramp.tick } }

/-- Threshold and release of a leg's limiter (R207). -/
def limiterSet (g : Generation) (leg : Nat) : Int × Nat :=
  let cs := (confsOf g leg).filter fun c => !bit (u8 (mgetD g.members (c * 8192 + leg) []) 5) 1
  match cs.filterMap fun c => mget g.confs c with
  | [] => (-10, 50)
  | l => (l.foldl (fun m b => if sN b 0xA 2 < m then sN b 0xA 2 else m) 0, l.foldl (fun m b => Nat.min m (u16 b 0xC)) 1000)

/-- Limited samples of an output tick are counted once in a conference (R224). -/
def countLimitedIn (conf tick n : Nat) (hit : List Nat) (s : State) : State :=
  let k := confRate (mgetD s.gens.active.confs conf [])
  modConf conf (fun x =>
    let old := mgetD x.limMask tick []
    let new := ((List.range k).filter fun j => hit.contains (j * n / k) && !old.contains j)
    { x with limMask := mkeep (mset x.limMask tick (old ++ new)) fun t _ => decide (tick ≤ t + 1), limited := x.limited + new.length }) s

/-- Limited samples of a leg are counted in each conference that it listens to (R224). -/
def countLimited (leg tick n : Nat) (hit : List Nat) (s : State) : State :=
  ((confsOf s.gens.active leg).filter fun c => !bit (u8 (mgetD s.gens.active.members (c * 8192 + leg) []) 5) 1).foldl
    (fun s c => countLimitedIn c tick n hit s) s

/-! Shared groups (R204 to R206). -/

/-- What members of a shared group have in common, as a number: codec, frame, bit rate and Opus options. -/
def groupKey (l : Bytes) : Nat := u8 l 3 * 2 ^ 32 + u8 l 4 * 2 ^ 24 + u16 l 6 * 2 ^ 8 + u8 l 5 / 32 % 4

/-- Whether the configuration lets a leg share a conference's encode: it listens there alone and hears no route, at 0 dB, without canceller,
and the conference covers its codec (R204). -/
def mayShare (g : Generation) (conf leg : Nat) : Bool :=
  let l := mgetD g.legs leg []
  let b := mgetD g.confs conf []
  let c := u8 l 3
  (match mget g.members (conf * 8192 + leg) with
    | some m => !bit (u8 m 5) 1
    | none => false) &&
  (u8 l 2 == 0 || u8 l 2 == 3) && (confsOf g leg).length == 1 && (routesTo g leg).isEmpty && u16 l 0x12 == 0 && !bit (u8 l 5) 0 &&
    (u8 b 7 == 2 || (u8 b 7 == 1 && (c ≤ 1 || 8 ≤ c)))

/-- A tone that plays. -/
def toneOn (l : Leg) : Bool :=
  match l.tone with
  | some (t, k) => u8 t 0xA == 0 || decide (k < repeatMs t * u8 t 0xA)
  | none => false

/-- The limiter tick of its shared group that a leg takes in place of its own, for the conference tick before: while it may share, no ramp
and no tone are in progress on its send side, and it is not a talker (R204, R206; log 179). -/
def sharedTick (s : State) (leg tick : Nat) : Option GroupTick :=
  let g := s.gens.active
  match confsOf g leg with
  | [c] =>
    let l := s.leg leg
    let x := s.conf c
    if mayShare g c leg && !l.sendRamp.running && !(mgetD x.outRamp leg {}).running && !toneOn l &&
        (blockAt tick (mgetD x.outs leg [])).isNone && (s.rt.audio.routes.filter fun r => r.1 / 65536 == leg).isEmpty then
      ((mget x.groups (groupKey (mgetD g.legs leg []))).bind fun y => y.ticks.find? fun t => t.tick == tick)
    else none
  | _ => none

/-- The frame that a leg's shared group encoded in a conference tick, and its encoder's state after it. -/
def sharedFrame (s : State) (leg tick : Nat) : Option (Bytes × Nat) :=
  match confsOf s.gens.active leg with
  | [c] => ((mget (s.conf c).groups (groupKey (mgetD s.gens.active.legs leg []))).bind (·.frame)).bind fun f =>
      if f.1 = tick then some f.2 else none
  | _ => none

/-! Packets (R177, R179, R180). -/

/-- Whether a leg's send slot holds a usable key, or it names none (R180). -/
def sendUsable (s : State) (slot : Nat) : Bool :=
  slot == noSlot || (match s.rt.sec.usable slot 1 with
    | some k => decide (k.index < 2 ^ 48)
    | none => false)

/-- The send side stops (R180). -/
def stopSend (n detail : Nat) (s : State) : State :=
  if (s.leg n).stopped then s else (modLeg n (fun l => { l with stopped := true }) s).post 0x0589 3 n detail

/-- Why a leg's send side cannot send now: 1 index exhausted, 2 slot empty. -/
def sendBar (s : State) (slot : Nat) : Nat :=
  match s.rt.sec.usable slot 1 with
  | some _ => 1
  | none => 2

/-- A leg's packet as it leaves (R179): by its transport binding, at the next boundary (log 29). -/
def legOut (s : State) (n : Nat) (b : Bytes) (p : Packet) : Outbound :=
  { flow := n, port := u8 b 0x20, launch := some (boundaryAfter s.now), dscp := u8 b 0x22, vlan := u16 b 0x5A, ip := u8 b 0x21
    src := slice b 0x24 16, dst := slice b 0x34 16, sport := u16 b 0x44, dport := u16 b 0x46, packet := p }

/-- A payload leaves an RTP or HSP leg; an HSP header has the marker and marks SID (R177, R179). -/
def legPacket (n : Nat) (b : Bytes) (pt : Nat) (marker : Bool) (ts : Nat) (payload : Bytes) (s : State) : State :=
  let l := s.leg n
  let slot := if u8 b 2 = 0 then u32 b 0x50 else noSlot
  let s := recPacket n b pt marker ts payload (bumpLeg n 0x10 payload.length (bumpLeg n 4 1 s))
  let s := modLeg n (fun l => { l with
    seq := (l.seq + 1) % 65536, firstSent := true, sendGap := false, sentSince := true, sent := (l.sent.1 + 1, l.sent.2 + payload.length) }) s
  if u8 b 2 = 0 then
    sendMedia slot false false false (legOut s n b (rtpPacket n pt marker l.seq ts (u32 b 0x48) payload)) s
  else
    let sid := u8 b 3 == 4 && payload.length % 10 == 2
    hspSend (u8 b 0x21) (le 4 ts ++ le 2 l.seq ++ le 1 (b2n marker + 2 * b2n sid) ++ [0] ++ payload) s

/-! Tones (R178, R186). -/

/-- The digit of a tone that plays at a ms, with ms since its start, and whether it is in its on time. -/
def digitAt (b : Bytes) (k : Nat) : Option (Nat × Nat × Bool) :=
  let per := (cadence b 0).1 + (cadence b 0).2
  let j := k % repeatMs b
  ((digitsOf b)[j / per]?).map fun d => (d, j % per, j % per < (cadence b 0).1)

/-- The event code of a DTMF character (RFC 4733). -/
def digitCode (v : Nat) : Nat := if v = 0x2A then 10 else if v = 0x23 then 11 else if 0x41 ≤ v then v - 0x41 + 12 else v - 0x30

/-- Whether a leg's digits are sent as RFC 4733 events (R186). -/
def digitsOutOfBand (b tone : Bytes) : Bool := u8 tone 3 == 1 && u8 b 2 == 0 && u8 b 0x58 != 0

/-- Stage 3: a tone adds to or replaces the signal (R178, R186). -/
def withTone (b : Bytes) (n : Nat) (l : Leg) (y : List Int) : List Int :=
  match l.tone with
  | none => y
  | some (t, k) =>
    if !toneOn l then y
    else
      let x := if digitsOutOfBand b t then [] else toneBlock t k n
      (List.range n).map fun i => clip24 (if u8 t 2 = 1 then smp x i else smp y i + smp x i)

/-- The digit that the tick plays out of band: code, volume, and whether it starts and whether it ends in the tick. -/
def digitNow (b : Bytes) (l : Leg) : Option (Nat × Nat × Bool × Bool) :=
  match l.tone with
  | some (t, k) =>
    if toneOn l && digitsOutOfBand b t then
      match digitAt t k with
      | some (d, j, true) => some (digitCode d, (-(signed 8 (u8 t 8))).toNat % 64, j == 0, j + 1 == (cadence t 0).1)
      | _ => none
    else none
  | none => none

/-- The digits on their way after a tick: one that starts has the timestamp of the tick, one that goes on lasts a tick longer, and one
that the tick no longer plays has ended (R186). -/
def digitsTick (b : Bytes) (l : Leg) : List DigitEvent :=
  let ms := legClock b
  match digitNow b l with
  | none => l.digits.map fun e => { e with ended := true }
  | some (code, v, starts, ends) =>
    if starts || l.digits.all (·.ended) then
      l.digits.map (fun e => { e with ended := true }) ++
        [{ code := code, volume := v, ts := (l.ts + l.pos * ms) % 4294967296, dur := ms, ended := ends }]
    else l.digits.map fun e => if e.ended then e else { e with dur := e.dur + ms, ended := ends }

/-- The packets of a digit at a frame's end: one while it lasts, three with the end bit once it has ended; the first has the marker, and
all have the timestamp of its start (R186; log 180). -/
def digitPackets (n : Nat) (b : Bytes) (e : DigitEvent) (s : State) : State :=
  (List.range (if e.ended then 3 else 1)).foldl (fun s i =>
    legPacket n b (u8 b 0x58) (e.fresh && i == 0) e.ts
      (le 1 e.code ++ le 1 (e.volume + if e.ended then 128 else 0) ++ be 2 (Nat.min 65535 e.dur)) s) s

/-! Frames (R178, R179, R180, R204, R205). -/

/-- A full frame leaves: DTMF digits as events in place of audio, the shared group's encode where the leg shared in the whole frame, or its
own. Its own encoder starts from the state that the shared one had at the start of the frame (R205). -/
def sendFrame (n : Nat) (b : Bytes) (ts : Nat) (buf : List Int) (s : State) : State :=
  let l := s.leg n
  let c := u8 b 3
  if !l.digits.isEmpty then
    let s := l.digits.foldl (fun s e => digitPackets n b e s) s
    modLeg n (fun l => { l with digits := (l.digits.filter fun e => !e.ended).map fun e => { e with fresh := false } }) s
  else
    let p := match (if l.sharing then sharedFrame s n (s.rt.clover.tick - 1) else none) with
      | some f => f
      | none => (encodeFrame b l.enc buf, encodeAfter b l.enc buf)
    let s := modLeg n (fun l => { l with enc := p.2 }) s
    if p.1.isEmpty ∧ (c = 4 ∨ (isOpus c ∧ bit (u8 b 5) 6)) then modLeg n (fun l => { l with sendGap := true }) s
    else legPacket n b (u8 b 0x23) (l.sendGap || !l.firstSent) ts p.1 s

/-- Stages 4 and 5: a frame is encoded in the tick that completes it, and packetised (R178, R179). A stopped send side resumes with the
first tick after its slot is usable (R180). A frame that lacks ticks, after a start or a resume, is not sent; its time passes (log 181). -/
def sendSamples (n : Nat) (b : Bytes) (y : List Int) (s : State) : State :=
  let k := codecRate (u8 b 3)
  let f := u8 b 4
  let tick := s.rt.clover.tick
  let shares := (sharedTick s n (tick - 1)).isSome
  let keep := u8 b 0x18 + u8 b 0x19
  let s := modLeg n (fun l => { l with
    sentTicks := (y :: l.sentTicks).take (keep + 1), digits := digitsTick b l, tone := l.tone.map fun t => (t.1, t.2 + 1)
    sharing := l.sharing && shares }) s
  match u8 b 2 with
  | 1 => modLeg n (fun l => { l with tdmOut := slice (encodeFrame b l.enc y) 0 8, enc := encodeAfter b l.enc y }) s
  | 2 => modLeg n (fun l => { l with sapOut := y }) s
  | _ =>
    let slot := if u8 b 2 = 0 then u32 b 0x50 else noSlot
    let ok := sendUsable s slot
    let s := if ok then modLeg n (fun l => { l with stopped := false }) s else stopSend n (sendBar s slot) s
    let l := s.leg n
    let buf := if ok then l.frameBuf ++ y else []
    let pos := l.pos + 1
    let clock := legClock b
    if tick % f = l.phase % f then
      let full := buf.drop (buf.length - f * k)
      let s := modLeg n (fun l => { l with frameBuf := [], pos := 0, ts := (l.ts + pos * clock) % 4294967296 }) s
      let s := if ok ∧ full.length = f * k then sendFrame n b ((l.ts + (pos - f) * clock) % 4294967296) full s else s
      modLeg n (fun l => { l with sharing := true }) s
    else modLeg n (fun l => { l with frameBuf := buf, pos := pos }) s

/-- The send signal of a tick as it leaves stage 1, with the limiter after it: the shared group's, or the leg's own (R206, R207). -/
def stageOut (s : State) (n : Nat) (b : Bytes) : List Int × Rat × List Rat × Rat × List Nat :=
  let tick := s.rt.clover.tick
  let k := codecRate (u8 b 3)
  let l := s.leg n
  match sharedTick s n (tick - 1) with
  | some t => (t.out, t.gain, t.look, 1, [])
  | none =>
    let x := rampBlock l.sendRamp k (stageOne s n (tick - 1) k)
    let set := limiterSet s.gens.active n
    let y := limiter (limiterT set.1) k (limiterR set.2 k) l.limiterG ((l.look ++ List.replicate (k - l.look.length) 0).take k) x
    (y.1, y.2.1, x, y.2.2.1, y.2.2.2)

/-- The send side of a leg's tick item (R178, R206). -/
def legTxTick (n : Nat) (b : Bytes) (s : State) : State :=
  let tick := s.rt.clover.tick
  let k := codecRate (u8 b 3)
  let l := s.leg n
  let y := stageOut s n b
  let low := if y.2.2.2.1 < l.limitLow then y.2.2.2.1 else l.limitLow
  let due := limitingDue low l.limitAt s.up
  let up := s.up
  let s := modLeg n (fun l => { l with
    tx := (tick, y.1) :: l.tx.take 2, look := y.2.2.1, limiterG := y.2.1, sendRamp := l.sendRamp.tick, sendLossMs := 0
    limitLow := if due then 1 else low, limitAt := if due then some up else l.limitAt }) s
  let s := tickRamps n (s.postIf due 0x0682 1 n (reduction low))
  let s := countLimited n (tick - 1) k y.2.2.2.2 s
  let out := withTone b k (s.leg n) (y.1.map clip24)
  let s := modLeg n (fun l => { l with lastSend := out }) s
  sendSamples n b out (recSend n b 0 out s)

/-- A leg's tick item: its receive and its send chain (R165, R178). -/
def legItem (n : Nat) (x : LegTick) (s : State) : State :=
  match mget s.gens.active.legs n with
  | none => s
  | some b => legTxTick n b (legRxTick n b x s)

/-- The replay of a leg's item after a missed deadline keeps its state; its media output, and where its send side stands, are those that
the missed tick left (R142). -/
def legReplayed (n : Nat) (x : LegTick) (s : State) : State :=
  let r := legItem n x s
  modLeg n (fun l =>
    let o := s.leg n
    { l with seq := o.seq, ts := o.ts, pos := o.pos, frameBuf := o.frameBuf, firstSent := o.firstSent, sendGap := o.sendGap
             sentSince := o.sentSince, sent := o.sent, tdmOut := o.tdmOut, sapOut := o.sapOut, enc := o.enc, sharing := o.sharing
             digits := o.digits, sentTicks := o.sentTicks })
    { r with wire := s.wire, rt := { r.rt with
        fwd := s.rt.fwd, net := s.rt.net, sec := s.rt.sec, hsp := s.rt.hsp, recorder := s.rt.recorder } }

/-- A leg's item runs. In service on a core it takes effect with its completion (R138); with no item in service it does so at once.
A leg outside the active generation has none (R99, R165). -/
def execLegItem (t : Time) (x : LegTick) (s : State) : Host.Outcome State Fault Refusal :=
  let s := s.advance t
  done (match serviceOf s x.leg.val with
    | some (o, _) => deferWork o (.leg x) s
    | none => legItem x.leg.val x s)

/-- A tick whose item expired or was shed: the receive side conceals and the send side repeats its last samples (R175). -/
def legMissed (n : Nat) (s : State) : State :=
  match mget s.gens.active.legs n with
  | none => s
  | some b =>
    let k := codecRate (u8 b 3)
    let tick := s.rt.clover.tick
    let l := s.leg n
    let r := l.conceal (u8 b 3) k tick
    let s := modLeg n (fun _ => { r.2 with
      sendLossMs := l.sendLossMs + 1, stats := bump r.2.stats 0x30, lastRx := r.1, missed := tick :: l.missed.take 1
      rx := ((tick, r.1), l.recvRamp) :: l.rx.take 2, recvRamp := l.recvRamp.tick, sendRamp := l.sendRamp.tick }) (tickRamps n s)
    let s := legTones n b true { leg := BitVec.toFin (BitVec.ofNat 13 n) } s
    let s := recReceive n b 8 [] [] l.lastRx r.1 s
    let out := scaleBlock (attenuation l.sendLossMs) (fit k l.lastSend)
    sendSamples n b out (recSend n b 8 out s)

end Sys2Proof.Machine
end

