-- ==== Sys2Proof/Machine/Conf.lean ====
section
/-! DEFINITION. Conferences, routes and serial audio ports (R196 to R227). -/

namespace Sys2Proof.Machine

/-! Commands. -/

/-- Forced members of a conference. -/
def forcedOf (g : Generation) (c : Nat) : List Nat := ((membersOf g c).filter fun m => u8 m.2 4 == 1).map (·.1)

/-- CONF.SET (R219, R222). -/
def cmdConfSet : Cmd where
  code := 0x0600
  len := len1 96
  gmode := .modify
  fails := fun r g _ =>
    let b := r.params
    fldFails b [rng 0 2 0 2047, rng 2 1 0 2, rng 3 1 0 16, rng 4 2 0 5000, rng 6 1 20 70, rng 7 1 0 2, rng 8 2 0 240,
      srng 0xA 2 (-200) 0, rng 0xC 2 10 1000, rng 0xE 1 0 4, msk 0xF 1 1] ++
    failIf (u8 b 3 != 0 && decide (u8 b 3 < (forcedOf g (u16 b 0)).length)) .capacityExceeded 3
  run := fun r _ s => okWith (s.stage fun g => { g with confs := mset g.confs (u16 r.params 0) (slice r.params 0 96) })

/-- The lowest leg that names a conference by membership or as a monitor (R220). -/
def confUser (g : Generation) (c : Nat) : Option Nat :=
  lowest ((membersOf g c).map (·.1) ++ (g.routes.filter fun e => e.1 / 16384 % 4 == 1 && e.1 % 16384 == c).map fun e => e.1 / 65536)

/-- CONF.DELETE (R220). -/
def cmdConfDelete : Cmd where
  code := 0x0601
  len := len1 4
  gmode := .modify
  fails := fun r g _ =>
    fldFails r.params [rng 0 2 0 2047, rsv 2 2] ++ absentBad (mhas g.confs (u16 r.params 0)) 0 ++ inUse (confUser g (u16 r.params 0))
  run := fun r _ s => okWith (s.stage fun g => { g with confs := mdel g.confs (u16 r.params 0) })

/-- CONF.QUERY (R219). -/
def cmdConfQuery : Cmd where
  code := 0x0602
  len := len1 4
  gmode := .read
  fails := fun r g _ => fldFails r.params [rng 0 2 0 2047, rsv 2 2] ++ absentState (mhas g.confs (u16 r.params 0))
  run := fun r g s => okWith s (slice (mgetD g.confs (u16 r.params 0) []) 0 96)

/-- Key of a route (R211). -/
def routeKey (kind dest src : Nat) : Nat := dest * 65536 + kind * 16384 + src

/-- CONF.MEMBER (R212, R221, R222). -/
def cmdConfMember : Cmd where
  code := 0x0603
  len := len1 8
  gmode := .modify
  fails := fun r g _ =>
    let b := r.params
    let c := u16 b 0
    let l := u16 b 2
    let new := !mhas g.members (c * 8192 + l)
    let t := u8 (mgetD g.confs c []) 3
    fldFails b [rng 0 2 0 2047, rng 2 2 0 8191, rng 4 1 0 2, msk 5 1 3, rsv 6 2] ++
    badIf (!mhas g.confs c) 0 ++ badIf (!mhas g.legs l || mhas g.routes (routeKey 1 l c)) 2 ++
    failIf (new && decide (1024 ≤ (membersOf g c).length)) .capacityExceeded 1 ++
    failIf (new && decide (4 ≤ (confsOf g l).length)) .capacityExceeded 2 ++
    failIf (u8 b 4 == 1 && t != 0 && decide (t < ((forcedOf g c).erase l).length + 1)) .capacityExceeded 3
  run := fun r _ s =>
    okWith (s.stage fun g => { g with members := mset g.members (u16 r.params 0 * 8192 + u16 r.params 2) (slice r.params 0 8) })

/-- CONF.REMOVE (R221). -/
def cmdConfRemove : Cmd where
  code := 0x0604
  len := len1 4
  gmode := .modify
  fails := fun r g _ =>
    let c := u16 r.params 0
    let l := u16 r.params 2
    fldFails r.params [rng 0 2 0 2047, rng 2 2 0 8191] ++ badIf (!mhas g.confs c) 0 ++
    badIf (!mhas g.legs l || !mhas g.members (c * 8192 + l)) 2
  run := fun r _ s => okWith (s.stage fun g => { g with members := mdel g.members (u16 r.params 0 * 8192 + u16 r.params 2) })

/-- CONF.MEMBERS (R223). -/
def cmdConfMembers : Cmd where
  code := 0x0605
  len := len1 4
  gmode := .read
  fails := fun r g _ => fldFails r.params [rng 0 2 0 2047] ++ absentState (mhas g.confs (u16 r.params 0))
  run := fun r g s =>
    let m := membersOf g (u16 r.params 0)
    let e := (m.drop (u16 r.params 2)).take 240
    okWith s (slice (le 2 e.length ++ le 2 m.length ++ e.flatMap fun x => le 2 x.1 ++ le 1 (u8 x.2 4) ++ le 1 (u8 x.2 5)) 0 964)

/-- The mean square of a member's contributions over the last 10 ms (R202). -/
def meanSquare (c : ConfRun) (n m : Nat) : Rat := (sum (mgetD c.squares m []) : Rat) / ((10 * n : Nat) : Rat)

/-- CONF.STATUS (R224). -/
def cmdConfStatus : Cmd where
  code := 0x0606
  len := len1 4
  fails := fun r _ s =>
    fldFails r.params [rng 0 2 0 2047, rng 2 1 0 1, rsv 3 1] ++ absentState (mhas s.gens.active.confs (u16 r.params 0))
  run := fun r _ s =>
    let n := u16 r.params 0
    let b := mgetD s.gens.active.confs n []
    let c := mgetD s.seen.audio.confs n {}
    let sel := if u8 b 3 = 0 then [] else c.selected.take 16
    let legs := sel.flatMap (le 2) ++ List.replicate (32 - 2 * sel.length) 0xFF
    let lv := sel.flatMap fun m => le 1 (levelOf (meanSquare c (confRate b) m))
    let d := block 64 [(0, 1, sel.length), (0x34, 2, c.sharedGroups), (0x36, 2, c.sharing), (0x38, 4, c.limited), (0x3C, 4, c.expired)]
    okWith (if u8 r.params 2 = 1 then
      s.clearSeen (fun b rt => { rt with audio := { rt.audio with confs := mupd rt.audio.confs n fun x =>
        let y := mgetD b.audio.confs n {}
        { x with limited := x.limited - y.limited, expired := x.expired - y.expired } } })
      else s) (putAt (putAt d 4 legs) 0x24 lv)

/-- ROUTE.SET (R212, R222, R225). -/
def cmdRouteSet : Cmd where
  code := 0x0640
  len := len1 12
  gmode := .modify
  fails := fun r g _ =>
    let b := r.params
    let kind := u8 b 0; let dest := u16 b 2; let src := u16 b 4
    let new := !mhas g.routes (routeKey kind dest src)
    fldFails b [rng 0 1 0 2, rsv 1 1, rng 2 2 0 8191, rng 4 2 0 (if kind = 1 then 2047 else 8191), srng 6 2 (-600) 200, rng 8 2 0 1000,
      rsv 0xA 2] ++
    badIf (!mhas g.legs dest) 2 ++
    badIf (if kind = 1 then !mhas g.confs src || mhas g.members (src * 8192 + dest) else !mhas g.legs src || src == dest) 4 ++
    failIf (new && decide (8 ≤ (routesTo g dest).length)) .capacityExceeded 4 ++
    failIf (new && decide (16384 ≤ g.routes.length)) .capacityExceeded 5
  run := fun r _ s =>
    let b := slice r.params 0 12
    okWith (s.stage fun g => { g with routes := mset g.routes (routeKey (u8 b 0) (u16 b 2) (u16 b 4)) b })

/-- ROUTE.DELETE (R225). -/
def cmdRouteDelete : Cmd where
  code := 0x0641
  len := len1 8
  gmode := .modify
  fails := fun r g _ =>
    let b := r.params
    fldFails b [rng 0 1 0 2, rsv 1 1, rng 2 2 0 8191, rng 4 2 0 (if u8 b 0 = 1 then 2047 else 8191), rsv 6 2] ++
    badIf (!mhas g.routes (routeKey (u8 b 0) (u16 b 2) (u16 b 4))) 4
  run := fun r _ s =>
    let b := r.params
    okWith (s.stage fun g => { g with routes := mdel g.routes (routeKey (u8 b 0) (u16 b 2) (u16 b 4)) })

/-- ROUTE.LIST (R225). -/
def cmdRouteList : Cmd where
  code := 0x0642
  len := len1 4
  gmode := .read
  fails := fun r g _ => fldFails r.params [rng 0 2 0 8191, rsv 2 2] ++ absentState (mhas g.legs (u16 r.params 0))
  run := fun r g s =>
    let l := routesTo g (u16 r.params 0)
    okWith s (le 2 l.length ++ zeros 2 ++ l.flatMap (fun e => slice e.2 0 12) ++ List.replicate (96 - 12 * l.length) 0xFF)

/-- The rate of a serial audio port in Hz. -/
def sapHz (b : Bytes) : Nat := [8000, 16000, 48000].getD (u8 b 3) 0

/-- The lowest leg of a generation bound to a port for which a change is not allowed (R217). -/
def sapHolder (g : Generation) (b old : Bytes) : Option Nat :=
  (g.legs.find? fun e => u8 e.2 2 == 2 && u8 e.2 0x20 == u8 b 0 && (u8 b 3 != u8 old 3 || u8 b 4 ≤ u8 e.2 0x21)).map (·.1)

/-- ROUTE.SAP_SET (R216, R217, R226). -/
def cmdRouteSapSet : Cmd where
  code := 0x0643
  len := len1 8
  fails := fun r _ s =>
    let b := r.params
    let old := sapBlock s (u8 b 0)
    fldFails b [rng 0 1 0 3, rng 1 1 0 1, rng 2 1 0 1, rng 3 1 0 2, rng 4 1 1 32, oneOf 5 1 [16, 24, 32], oneOf 6 1 [16, 24], msk 7 1 7] ++
    badIf (u8 b 2 == 0 && u8 b 4 != 2) 4 ++ badIf (decide (24576000 < sapHz b * u8 b 4 * u8 b 5)) 5 ++
    badIf (decide (u8 b 5 < u8 b 6)) 6 ++
    inUse (lowest ((sapHolder s.gens.active b old).toList ++ (sapHolder s.gens.staged b old).toList))
  run := fun r _ s =>
    let b := slice r.params 0 8
    okWith (s.modAudio fun a => { a with saps := mmod a.saps (u8 b 0) {} fun p => { p with next := some b } })

/-- ROUTE.SAP_QUERY (R226). -/
def cmdRouteSapQuery : Cmd where
  code := 0x0644
  len := len1 4
  fails := fun r _ _ => fldFails r.params [rng 0 1 0 3, rsv 1 3]
  run := fun r _ s => okWith s (sapBlock s (u8 r.params 0))

def execConfSet (r : Request) (s : State) : Host.Outcome State Fault Refusal := execCmd cmdConfSet r s
def execConfDelete (r : Request) (s : State) : Host.Outcome State Fault Refusal := execCmd cmdConfDelete r s
def execConfQuery (r : Request) (s : State) : Host.Outcome State Fault Refusal := execCmd cmdConfQuery r s
def execConfMember (r : Request) (s : State) : Host.Outcome State Fault Refusal := execCmd cmdConfMember r s
def execConfRemove (r : Request) (s : State) : Host.Outcome State Fault Refusal := execCmd cmdConfRemove r s
def execConfMembers (r : Request) (s : State) : Host.Outcome State Fault Refusal := execCmd cmdConfMembers r s
def execConfStatus (r : Request) (s : State) : Host.Outcome State Fault Refusal := execCmd cmdConfStatus r s
def execRouteSet (r : Request) (s : State) : Host.Outcome State Fault Refusal := execCmd cmdRouteSet r s
def execRouteDelete (r : Request) (s : State) : Host.Outcome State Fault Refusal := execCmd cmdRouteDelete r s
def execRouteList (r : Request) (s : State) : Host.Outcome State Fault Refusal := execCmd cmdRouteList r s
def execRouteSapSet (r : Request) (s : State) : Host.Outcome State Fault Refusal := execCmd cmdRouteSapSet r s
def execRouteSapQuery (r : Request) (s : State) : Host.Outcome State Fault Refusal := execCmd cmdRouteSapQuery r s

/-! Serial audio ports (R216, R217). -/

/-- A reconfigured port stops at the first boundary after the command (R217). -/
def execSapStop (t : Time) (p : Fin 4) (s : State) : Host.Outcome State Fault Refusal :=
  let s := s.advance t
  let x := mgetD s.rt.audio.saps p.val {}
  let up := s.up
  done (if s.atBoundary ∧ x.next.isSome then
    s.modAudio fun a => { a with saps := mset a.saps p.val { x with stopped := true, since := up } } else s)

/-- It restarts with its settings at a later boundary, or at the first one after READY (R217). -/
def execSapRestart (t : Time) (p : Fin 4) (s : State) : Host.Outcome State Fault Refusal :=
  let s := s.advance t
  let x := mgetD s.rt.audio.saps p.val {}
  done (if s.atBoundary ∧ x.stopped ∧ s.booted ∧ x.since < s.up then
    s.modAudio fun a => { a with saps := mset a.saps p.val { x with block := x.next.getD x.block, next := none, stopped := false } } else s)

/-- A 24-bit sample in the sample width of a port; what narrowing to 16 bits rounds is open (R216; log 182). -/
def sapWord (b : Bytes) (v : Int) : Nat :=
  let n := u8 b 6
  let q := v / (2 ^ (24 - n) : Nat) + (if v % (2 ^ (24 - n) : Nat) = 0 then 0 else ((Config.narrowing v % 2 : Nat) : Int))
  let top : Int := (2 ^ (n - 1) : Nat)
  ((if top ≤ q then top - 1 else q) % (2 ^ n : Nat)).toNat

/-- The data bits of one frame, slot by slot: each sample most significant bit first and left-justified, unused bits 0 (R216). -/
def sapData (b : Bytes) (word : Nat → Nat) : List Bool :=
  (List.range (u8 b 4)).flatMap fun slot => (List.range (u8 b 5)).map fun j => j < u8 b 6 && bit (word slot) (u8 b 6 - 1 - j)

/-- FSYNC in one frame: in I²S format low in slot 0 and high in slot 1, in TDM format one bit clock wide, of the polarity set (R226). -/
def sapSync (b : Bytes) : List Bool :=
  (List.range (u8 b 4 * u8 b 5)).map fun p => if u8 b 2 = 0 then p / Nat.max 1 (u8 b 5) == 1 else (p == 0) != bit (u8 b 7) 0

/-- The bits by which data lags FSYNC (R226). -/
def sapLag (b : Bytes) : Nat := if u8 b 2 = 0 ∨ bit (u8 b 7) 1 then 1 else 0

/-- The slots of a port that legs of the active generation bind, with the samples that they send. -/
def sapBound (s : State) (p : Nat) : Map (List Int) :=
  s.gens.active.legs.foldl (fun m e => if u8 e.2 2 = 2 ∧ u8 e.2 0x20 = p then mset m (u8 e.2 0x21) (s.leg e.1).sapOut else m) []

/-- A tick of a port: the frames that it sends, and the levels at which its pins stand after it. A disabled port drives all low, and one
that stands still holds its levels (R216, R217). -/
def sapTick (s : State) (p : Nat) : State :=
  let x := mgetD s.rt.audio.saps p {}
  let b := x.block
  let put := fun (y : Sap) s => s.modAudio fun a => { a with saps := mset a.saps p y }
  if x.stopped then s
  else if u8 b 1 = 0 then (if mhas s.rt.audio.saps p then put { x with pins := (false, false, false), carry := false } s else s)
  else
    let bound := sapBound s p
    let n := sapHz b / 1000
    let word := fun i slot => match mget bound slot with
      | some y => sapWord b (smp y i)
      | none => 0
    let data := (List.range n).flatMap fun i => sapData b (word i)
    let out := if sapLag b = 1 then x.carry :: data.take (data.length - 1) else data
    let sync := (List.range n).flatMap fun _ => sapSync b
    let falling := bit (u8 b 7) 2
    (put { x with pins := (falling, (sync.getLastD false), (out.getLastD false)), carry := data.getLastD false } s).emit
      (.serial p falling (sync.zip out))

/-! The conference item (R196 to R205). -/

/-- A list sorted by a measure, stable. -/
def insertBy {α : Type} (f : α → α → Bool) (x : α) : List α → List α
  | [] => [x]
  | y :: l => if f x y then x :: y :: l else y :: insertBy f x l

def sortBy {α : Type} (f : α → α → Bool) (l : List α) : List α := l.foldr (insertBy f) []

/-- A member may be selected: neither listen-only nor muted (R202). -/
def mayTalk (b : Bytes) : Bool := u8 b 4 != 2 && !bit (u8 b 5) 0

/-- The unselected members of the ranking that fill the free places. -/
def fillPlaces (n : Nat) (ranked sel : List Nat) : List Nat :=
  (ranked.filter fun m => !sel.contains m).take (n - sel.length)

/-- The selection of a tick (R202), from which a member that has become listen-only or has left is gone: selected members, and the tick of each one's last place among the first N. -/
def selectTalkers (b : Bytes) (members : List (Nat × Bytes)) (tick : Nat) (rank : Nat → Rat) (c : ConfRun) : List Nat × Map Nat :=
  let n := u8 b 3
  if n = 0 then ((members.filter fun m => mayTalk m.2).map (·.1), c.last)
  else
    let active := (members.filter fun m => mayTalk m.2 && atLeastDbov (rank m.1) (-100 * (u8 b 6 : Int))).map (·.1)
    let ranked := sortBy (fun a d => decide (rank d < rank a) || (decide (rank a = rank d) && decide (a < d))) active
    let here := c.selected.filter fun m => members.any fun x => x.1 == m && u8 x.2 4 != 2
    let last := (here.filter fun m => (ranked.take n).contains m).foldl (fun l m => mset l m tick) c.last
    let mode := fun m => ((members.find? fun x => x.1 == m).map fun x => u8 x.2 4).getD 0
    let kept := here.filter fun m => !(mode m == 0 && decide (u16 b 4 ≤ tick - mgetD last m 0))
    let kept := kept ++ ((members.filter fun m => u8 m.2 4 == 1 && !kept.contains m.1).map (·.1))
    let add := fillPlaces n ranked kept
    let sel := kept ++ add
    (sortBy (fun a d => decide (rank d < rank a) || (decide (rank a = rank d) && decide (a < d))) sel,
      add.foldl (fun l m => mset l m tick) last)

/-- An equaliser sum in units of 2⁻²⁸ as a sample: exact where it is one, and rounded up or down where it is not (R201; log 6). -/
def eqNarrow (v : Int) : Int := v / 268435456 + (if v % 268435456 = 0 then 0 else ((Config.narrowing v % 2 : Nat) : Int))

/-- One equaliser section on a block (R201). -/
def biquad (k : Bytes) (o : Nat) (x : List Int) (q : Biquad) : List Int × Biquad :=
  let c := fun i => sN k (o + 4 * i) 4
  x.foldl (fun acc v =>
    let q := acc.2
    let y := eqNarrow (c 0 * v + c 1 * q.x1 + c 2 * q.x2 - c 3 * q.y1 - c 4 * q.y2)
    (acc.1 ++ [y], { x1 := v, x2 := q.x1, y1 := y, y2 := q.y1 })) ([], q)

/-- The equaliser sections in use on a block; sections out of use keep their state (R201, R209). -/
def equalise (b : Bytes) (x : List Int) (st : List Biquad) : List Int × List Biquad :=
  let r := (List.range (u8 b 0xE)).foldl (fun acc i =>
    let r := biquad b (0x10 + 20 * i) acc.1 (st.getD i {})
    (r.1, acc.2 ++ [r.2])) (x, [])
  (r.1, r.2 ++ st.drop (u8 b 0xE))

/-- A member's block of a tick at the mixing rate, its receive gain, and ms of its absence: where its item was missed, its last one
(R198). -/
def memberBlock (s : State) (c : ConfRun) (tick k m : Nat) : List Int × Ramp × Nat :=
  match (s.leg m).rxOf tick false with
  | some e => (reRate (codecRate (u8 (mgetD s.gens.active.legs m []) 3)) k e.1 e.2.1, e.2.2, 0)
  | none =>
    let p := mgetD c.lastIn m ([], {}, 0)
    (p.1, p.2.1.tick, p.2.2 + 1)

/-- A member's contribution: its block by its receive gain, the pre-sum attenuation, its ramp and a factor, attenuated as in R174 where it
is absent, rounded half away from zero (R198, R199, R203). -/
def memberPart (pre : Rat) (k : Nat) (ramp : Ramp) (x : List Int × Ramp × Nat) (f : Nat → Rat) : List Int :=
  let fall := if x.2.2 = 0 then 1 else attenuation (x.2.2 - 1)
  (List.range k).map fun i => roundRat ((smp x.1 i : Rat) * fall * x.2.1.at_ k i * pre * ramp.at_ k i * f i)

/-- What a conference's tick item makes of its members' blocks: the conference after it, and the talkers that enter and leave (R197 to
R203). A talker that has left the conference, or may talk no more, fades over its own ramp and not over the selection's (R208). -/
def confTick (n : Nat) (b : Bytes) (s : State) : (ConfRun → ConfRun) × List Nat × List Nat :=
  let g := s.gens.active
  let now := s.rt.clover.tick
  let k := confRate b
  let c := s.conf n
  let ms := membersOf g n
  let legs := mkeys c.inRamp
  let pre := gainOf (-((u16 b 8 : Nat) : Int))
  let ins := legs.map fun m => (m, memberBlock s c (now - 1) k m)
  let part := fun m f => memberPart pre k (mgetD c.inRamp m {}) (mgetD ins m ([], {}, 0)) f
  let raw := legs.map fun m => (m, part m fun _ => 1)
  let squares := raw.foldl (fun q r => mmod q r.1 [] fun l => (energy r.2 :: l).take 10) c.squares
  let sel := selectTalkers b ms (now - 1) (meanSquare { c with squares := squares } k) c
  let entering := sel.1.filter fun m => !c.selected.contains m
  let left := c.selected.filter fun m => !sel.1.contains m
  let fades := fun m => match mget c.inRamp m with
    | some r => r.g1 == 0 && r.running
    | none => false
  let fading := (c.fading ++ left).eraseDups.filter fun m => fades m && !sel.1.contains m
  let leaving := left.filter fun m => legs.contains m && !fading.contains m
  let factor := fun m =>
    if entering.contains m && !c.hard && !c.fading.contains m then ({ g0 := 0, g1 := 1, ms := 1 } : Ramp)
    else if leaving.contains m then { g0 := 1, g1 := 0, ms := 1 } else {}
  let talk := (sel.1 ++ leaving ++ fading).map fun m => (m, part m fun i => (factor m).at_ k i)
  let total := (List.range k).map fun i => talk.foldl (fun a t => a + smp t.2 i) 0
  let outs : List (Nat × List Int) := (65535, total) :: talk.map fun t => (t.1, total.zipIdx.map fun v => v.1 - smp t.2 v.2)
  let eq := outs.map fun o => (o.1, equalise b o.2 (mgetD c.eq o.1 []))
  (fun c =>
    { c with
      selected := sel.1, last := sel.2, squares := squares, fading := fading, hard := false, lastIn := ins
      eq := eq.foldl (fun q e => mset q e.1 e.2.2) c.eq
      outs := eq.foldl (fun q e => mmod q e.1 [] fun l => (now, e.2.1) :: l.take 2) c.outs
      heldOuts := eq.foldl (fun q e => mset q e.1 e.2.1) []
      inRamp := (mall c.inRamp fun _ r => r.tick).filter fun e => ms.any (fun m => m.1 == e.1) || e.2.tick.running
      lossMs := 0 }, entering, left)

/-! Shared groups (R204 to R206). -/

/-- A shared group's limiter and frame in one tick of its conference: the group after it, with its samples limited (R204, R206). -/
def Group.tick (b : Bytes) (key now : Nat) (prev y : List Int) (x : Group) : Group × List Nat :=
  let codec := key / 2 ^ 32
  let f := key / 2 ^ 24 % 256
  let k := codecRate codec
  let was := x.ticks.headD { tick := 0, out := [], gain := 1, look := List.replicate k 0 }
  let new := (reRate (confRate b) k prev y).map fun (v : Int) => (v : Rat)
  let r := limiter (limiterT (sN b 0xA 2)) k (limiterR (u16 b 0xC) k) was.gain was.look new
  let buf := x.buf ++ r.1.map clip24
  let x := { x with
    ticks := { tick := now, out := r.1, gain := r.2.1, look := new } :: x.ticks.take 1
    low := if r.2.2.1 < x.low then r.2.2.1 else x.low }
  if now % f = x.phase % f then
    let full := buf.drop (buf.length - f * k)
    let enc := Config.encodeNext codec (key / 2 ^ 8 % 65536) (key % 256) x.enc full
    (if full.length = f * k then
      { x with buf := [], enc := enc, frame := some (now, Config.encodeAudio codec (key / 2 ^ 8 % 65536) (key % 256) x.enc full, enc) }
    else { x with buf := [] }, r.2.2.2)
  else ({ x with buf := buf }, r.2.2.2)

/-- A shared group runs a tick, with its count of limited samples and its CONF.LIMITING; it starts with the frame phase of its lowest
member, and its members take its phase (R204, R206, R224, R227; log 179). -/
def groupTick (n : Nat) (b : Bytes) (members : List Nat) (s : State) (key : Nat) : State :=
  let now := s.rt.clover.tick
  let c := s.conf n
  let f := key / 2 ^ 24 % 256
  let mine := members.filter fun m => groupKey (mgetD s.gens.active.legs m []) == key
  let old := (mget c.groups key).getD { phase := ((s.leg (mine.headD 0)).phase + f - 1) % Nat.max 1 f }
  let outs := mgetD c.outs 65535 []
  let r := old.tick b key now ((blockAt (now - 1) outs).getD []) ((blockAt now outs).getD [])
  let due := limitingDue r.1.low r.1.lowAt s.up
  let up := s.up
  let y := if due then { r.1 with low := 1, lowAt := some up } else r.1
  let s := modConf n (fun c => { c with groups := mset c.groups key y }) (s.postIf due 0x0682 1 (0x10000 + n) (reduction r.1.low))
  let s := countLimitedIn n now (codecRate (key / 2 ^ 32)) r.2 s
  mine.foldl (fun s m => modLeg m (fun l => { l with phase := (y.phase + 1) % Nat.max 1 f }) s) s

/-- The shared groups of a conference in one tick (R204), with the counts of CONF.STATUS. -/
def confGroups (n : Nat) (b : Bytes) (s : State) : State :=
  let g := s.gens.active
  let members := ((membersOf g n).map (·.1)).filter (mayShare g n)
  let key := fun m => groupKey (mgetD g.legs m [])
  let keys := (members.map key).eraseDups
  let s := keys.foldl (groupTick n b members) (modConf n (fun c => { c with groups := mkeep c.groups fun k _ => keys.contains k }) s)
  let share := members.filter fun m => (s.leg m).sharing && (sharedTick s m s.rt.clover.tick).isSome
  modConf n (fun c => { c with sharedGroups := ((share.map key).eraseDups).length, sharing := share.length }) s

/-- Whether every section in use has its poles inside the unit circle, by the triangle of a₁ and a₂ in units of 2⁻²⁸ (R201). -/
def eqStable (b : Bytes) : Bool :=
  (List.range (u8 b 0xE)).all fun i =>
    let a1 := sN b (0x1C + 20 * i) 4
    let a2 := sN b (0x20 + 20 * i) 4
    decide (a2.natAbs < 268435456) && decide ((a1.natAbs : Int) < 268435456 + a2)

/-- A conference's outputs and filter states where its equaliser is not stable: free values (R201) (log 155). -/
def unstableOuts (d : Nat) (c : ConfRun) : ConfRun :=
  { c with
    eq := mall c.eq fun k l => l.zipIdx.map fun q =>
      { q.1 with y1 := Config.openSample d k (4096 + 2 * q.2), y2 := Config.openSample d k (4097 + 2 * q.2) }
    outs := mall c.outs fun k l => match l with
      | [] => []
      | x :: r => (x.1, x.2.zipIdx.map fun v => Config.openSample d k v.2) :: r
    heldOuts := mall c.heldOuts fun k l => l.zipIdx.map fun v => Config.openSample d k v.2 }

/-- The conference's outputs are free where its equaliser is not stable, and stand otherwise (R201). -/
def settleOuts (n : Nat) (b : Bytes) (s : State) : State :=
  if eqStable b then s else modConf n (unstableOuts s.draw.1) s.draw.2

/-- The conference item for the tick before the one in progress (R197 to R205). -/
def confItem (n : Nat) (s : State) : State :=
  match mget s.gens.active.confs n with
  | none => s
  | some b =>
    let x := confTick n b s
    let s := confGroups n b (settleOuts n b (modConf n x.1 s))
    if bit (u8 b 0xF) 0 ∧ u8 b 3 ≠ 0 then
      let s := x.2.1.foldl (fun s m => s.post 0x0680 0 n m) s
      x.2.2.foldl (fun s m => s.post 0x0681 0 n m) s
    else s

/-- The replay of a conference's item after a missed deadline keeps its state and discards its outputs (R142). -/
def confReplayed (n : Nat) (s : State) : State :=
  modConf n (fun c => { c with outs := (s.conf n).outs, groups := (s.conf n).groups }) (confItem n s)

/-- A conference's tick item (R196); it needs members. In service on a core it takes effect with its completion (R138). -/
def execConfItem (t : Time) (conf : Fin 2048) (s : State) : Host.Outcome State Fault Refusal :=
  let s := s.advance t
  done (match serviceOf s (0x2000 + conf.val) with
    | some (o, _) => deferWork o .conf s
    | none => confItem conf.val s)

/-- An expired conference item: every output repeats the last one that an item gave, attenuated for the time since (R174, R198). -/
def confMissed (n : Nat) (s : State) : State :=
  let tick := s.rt.clover.tick
  modConf n (fun c =>
    { c with
      expired := c.expired + 1, lossMs := c.lossMs + 1, inRamp := mall c.inRamp fun _ r => r.tick
      outs := c.heldOuts.foldl (fun q e => mmod q e.1 [] fun l => (tick, scaleBlock (attenuation c.lossMs) e.2) :: l.take 2) c.outs }) s

/-! Activation (R99, R190, R208 to R213). -/

/-- Legs of a cluster whose frames of f ticks complete in tick r of the frame period (R33). -/
def phaseLoad (s : State) (cluster : Option Nat) (f r : Nat) : Nat :=
  let g := s.gens.active
  (s.rt.audio.legs.filter fun e => mget g.legAt e.1 == cluster && u8 (mgetD g.legs e.1 []) 4 == f && e.2.phase % f == r).length

/-- The tick of the frame period at which a new leg's frame completes: one that the fewest such legs of its cluster have, a free one of
these (R33; log 26). -/
def spreadPhase (s : State) (leg f draw : Nat) : Nat :=
  let c := mget s.gens.active.legAt leg
  let loads := (List.range f).map (phaseLoad s c f)
  let least := loads.foldl Nat.min (loads.headD 0)
  let free := (List.range f).filter fun r => loads.getD r 0 == least
  free.getD (draw % Nat.max 1 free.length) 0

/-- A leg starts from its initial state: random RTP start, empty buffer, gains at their values (R33, R99, R179). -/
def startLeg (n : Nat) (b : Bytes) (s : State) : State :=
  let d1 := s.draw
  let d2 := d1.2.draw
  let d3 := d2.2.draw
  let d4 := d3.2.draw
  let still := fun o => let g := gainOf (sN b o 2); ({ g0 := g, g1 := g } : Ramp)
  let up := s.up
  modLeg n (fun _ => {
    d := u16 b 0xC, phase := spreadPhase s n (u8 b 4) d1.1, seq := d2.1 % 65536, ts := d3.1 % 4294967296
    recvRamp := still 0x10, sendRamp := still 0x12, lateAt := up, rtcpAt := up + rtcpDelay (u8 b 0x59) d4.1 }) d4.2

/-- Whether a replacement restarts a leg (R190). -/
def legRestarts (o n : Bytes) : Bool := u8 o 2 != u8 n 2 || u8 o 3 != u8 n 3 || u8 o 4 != u8 n 4

/-- Legs at an activation. -/
def activateLegs (old new : Generation) (s : State) : State :=
  let s := s.modAudio fun a => { a with legs := mkeep a.legs fun k _ => mhas new.legs k }
  new.legs.foldl (fun s e =>
    match mget old.legs e.1 with
    | some o =>
      if legRestarts o e.2 then startLeg e.1 e.2 s
      else modLeg e.1 (fun l => { l with
        recvRamp := l.recvRamp.to (gainOf (sN e.2 0x10 2)) (u16 e.2 0x14)
        sendRamp := l.sendRamp.to (gainOf (sN e.2 0x12 2)) (u16 e.2 0x14) }) s
    | none => startLeg e.1 e.2 s) s

/-- Whether a member contributes, and whether it listens. -/
def memberGains (m : Bytes) : Rat × Rat := (if mayTalk m then 1 else 0, if bit (u8 m 5) 1 then 0 else 1)

/-- Ramps of a conference's members at an activation: those of a restarted one start with a hard cut (R208, R210). -/
def memberRamps (g : Generation) (n : Nat) (hard : Bool) (pick : Bytes → Rat) (old : Map Ramp) : Map Ramp :=
  let ms := fun leg => if hard then 0 else u16 (mgetD g.legs leg []) 0x14
  let now := (membersOf g n).foldl (fun q m =>
    let r : Ramp := (mget old m.1).getD { g0 := 0, g1 := 0 }
    let gain := pick m.2
    mset q m.1 (if hard then { g0 := gain, g1 := gain } else r.to gain (ms m.1))) []
  (old.filter fun e => !hard && !mhas now e.1 && mhas g.legs e.1).foldl (fun q e => mset q e.1 (e.2.to 0 (ms e.1))) now

/-- Conferences at an activation; the talkers of one that restarts are selected no longer (R99, R209, R210, R227). -/
def activateConfs (old new : Generation) (s : State) : State :=
  let s := s.modAudio fun a => { a with confs := mkeep a.confs fun k _ => mhas new.confs k }
  new.confs.foldl (fun s e =>
    let was := mget old.confs e.1
    let hard := match was with
      | some o => u8 o 2 != u8 e.2 2
      | none => false
    let old := s.conf e.1
    let c : ConfRun := if hard || was.isNone then { hard := hard } else old
    let s := if hard ∧ bit (u8 (was.getD []) 0xF) 0 ∧ u8 (was.getD []) 3 ≠ 0 then
      old.selected.foldl (fun s m => s.post 0x0681 0 e.1 m) s else s
    modConf e.1 (fun _ =>
      { c with
        inRamp := memberRamps new e.1 hard (fun m => (memberGains m).1) c.inRamp
        outRamp := memberRamps new e.1 hard (fun m => (memberGains m).2) c.outRamp }) s) s

/-- Routes at an activation: a removed route ramps out, a new one in, and a changed gain ramps (R208, R213). -/
def activateRoutes (new : Generation) (s : State) : State :=
  let gain := fun (b : Bytes) => gainOf (sN b 6 2)
  let here := fun k => mhas new.legs (k / 65536) && (if k / 16384 % 4 = 1 then mhas new.confs (k % 16384) else mhas new.legs (k % 16384))
  s.modAudio fun a =>
    let kept : Map (Ramp × Bytes × Bool) := (a.routes.filter fun e => here e.1 && !mhas new.routes e.1).foldl
      (fun q e => mset q e.1 (e.2.1.to 0 (u16 e.2.2.1 8), e.2.2.1, true)) []
    { a with routes := new.routes.foldl (fun q e =>
        let r : Ramp := ((mget a.routes e.1).map (·.1)).getD { g0 := 0, g1 := 0 }
        mset q e.1 (r.to (gain e.2) (u16 e.2 8), e.2, false)) kept }

/-- Audio at an activation. -/
def activateAudio (old new : Generation) (s : State) : State := activateRoutes new (activateConfs old new (activateLegs old new s))

end Sys2Proof.Machine
end

