-- ==== Sys2Proof/Machine/Flags.lean ====
section
/-! DEFINITION. The flags and the arithmetic of a Yarrow core: conversions, sums, shifts and block exponents (R412 to R414, R457, R459, R462,
R463, R465). -/

namespace Sys2Proof.Machine

/-! Bits of SW (R412). -/

def swZ : Nat := 1
def swN : Nat := 2
def swV : Nat := 4
def swC : Nat := 8
def swSAT : Nat := 16
def swOVF : Nat := 32
def swAMODE : Nat := 64
def swIE : Nat := 2048
/-- The bits of SW that exist. -/
def swMask : Nat := 0xF7F

/-- Whether a bit of SW is set. -/
def swHas (sw : Word24) (m : Nat) : Bool := sw &&& BitVec.ofNat 24 m != 0

/-- Rounding mode. -/
def swRnd (sw : Word24) : Nat := sw.toNat / 256 % 4

/-- Whether conversions saturate. -/
def swSaten (sw : Word24) : Bool := swHas sw 1024

/-- The value of the flags Z and N of a result. -/
def flagsZN (v : Int) : Nat := if v = 0 then swZ else if v < 0 then swN else 0

/-- Bits where a condition holds. -/
def bitIf (c : Bool) (m : Nat) : Nat := if c then m else 0

/-! Conversions (R414). -/

/-- A value divided by 2^k and rounded: mode 1 half away from zero, 2 half to even, otherwise toward minus infinity. -/
def roundShift (mode k : Nat) (v : Int) : Int :=
  let d : Int := (2 ^ k : Nat)
  if k = 0 then v
  else if mode = 1 then if v < 0 then -((-v + d / 2) / d) else (v + d / 2) / d
  else if mode = 2 then
    let q := v / d
    let r := v % d
    if d < 2 * r ∨ (2 * r = d ∧ q % 2 = 1) then q + 1 else q
  else v / d

/-- A conversion to 24 bits: the word, and the bits of SW that it sets, SAT or V. -/
def convert (sw : Word24) (k : Nat) (v : Int) : Word24 × Nat :=
  let r := roundShift (swRnd sw) k v
  if swSaten sw then
    if 8388607 < r then (0x7FFFFF, swSAT) else if r < -8388608 then (0x800000, swSAT) else (BitVec.ofInt 24 r, 0)
  else (BitVec.ofInt 24 r, bitIf (decide (8388607 < r) || decide (r < -8388608)) swV)

/-! Accumulators (R413). -/

/-- A 24-bit value placed in an accumulator. -/
def place (v : Word24) : Acc := BitVec.ofInt 56 (v.toInt * 16777216)

/-- Whether a value lies outside 56 bits. -/
def wraps (v : Int) : Bool := decide (v < -(2 ^ 55 : Nat)) || decide ((2 ^ 55 : Nat) ≤ v)

/-- The exact product of two operands, doubled where F is 1 (R459). -/
def product (f : Bool) (a b : Word24) : Int := a.toInt * b.toInt * if f then 2 else 1

/-- A sum into an accumulator: its value, and whether it wrapped. -/
def accSum (v : Int) : Acc × Bool := (BitVec.ofInt 56 v, wraps v)

/-- The flags of an addition or subtraction on accumulators: carry out of bit 55, a subtraction adding the complement plus 1 (R457). -/
def accFlags (sub : Bool) (a b : Acc) : Acc × Nat :=
  let v := if sub then a.toInt - b.toInt else a.toInt + b.toInt
  let r := accSum v
  let c := if sub then decide (b.toNat ≤ a.toNat) else decide (2 ^ 56 ≤ a.toNat + b.toNat)
  (r.1, flagsZN r.1.toInt + bitIf r.2 (swV + swOVF) + bitIf c swC)

/-- An arithmetic shift of an accumulator, left for a positive count: its value, and its flags (R457, R465). -/
def accShift (a : Acc) (n : Int) : Acc × Nat :=
  if 0 ≤ n then
    let v := a.toInt * (2 ^ n.toNat : Nat)
    let r := accSum v
    let out := decide (0 < n) && a.getLsbD (56 - n.toNat)
    (r.1, flagsZN r.1.toInt + bitIf r.2 (swV + swOVF) + bitIf out swC)
  else
    let k := (-n).toNat
    let r := a.sshiftRight k
    (r, flagsZN r.toInt + bitIf (if k ≤ 56 then a.getLsbD (k - 1) else a.getLsbD 55) swC)

/-! Words. -/

/-- The flags of an addition or subtraction on words: carry out of bit 23 (R457). -/
def wordFlags (sub : Bool) (a b : Word24) : Word24 × Nat :=
  let v := if sub then a.toInt - b.toInt else a.toInt + b.toInt
  let r := BitVec.ofInt 24 v
  let c := if sub then decide (b.toNat ≤ a.toNat) else decide (2 ^ 24 ≤ a.toNat + b.toNat)
  (r, flagsZN r.toInt + bitIf (r.toInt != v) swV + bitIf c swC)

/-- A shift of a word by 0 to 23, with the last bit shifted out in C (R457, R465): kind 0 left, 1 arithmetic right, 2 logical right. -/
def wordShift (kind : Nat) (a : Word24) (k : Nat) : Word24 × Nat :=
  let r := if kind = 0 then a <<< k else if kind = 1 then a.sshiftRight k else a >>> k
  let out := decide (0 < k) && (if kind = 0 then a.getLsbD (24 - k) else a.getLsbD (k - 1))
  (r, flagsZN r.toInt + bitIf out swC)

/-! Block exponents (R462, R463). -/

/-- Bits below the top one of n bits that equal it, from a bit downward. -/
def signRun (v : Nat) (top : Bool) : Nat → Nat
  | 0 => 0
  | k + 1 => if (v / 2 ^ k % 2 == 1) == top then signRun v top k + 1 else 0

/-- The number r₂₄ of a word. -/
def r24 (v : Word24) : Nat := signRun v.toNat v.msb 23

/-- The headroom h of an accumulator without its limit of 31, −8 to 47. -/
def headroom (u : Acc) : Int := (signRun u.toNat u.msb 55 : Nat) - 8

/-- A value within the limit of 31 of h. -/
def limit31 (v : Int) : Int := if 31 < v then 31 else v

end Sys2Proof.Machine
end

