-- ==== Sys2Proof/Machine/Operands.lean ====
section
/-! DEFINITION. The operands of Yarrow instructions: registers, addressing modes, data memory and move fields (R411, R415, R421, R426,
R445 to R450). -/

namespace Sys2Proof.Machine

/-! Registers. -/

/-- A write lands (R445, R462). -/
def RegWrite.land (w : RegWrite) (r : Regs) : Regs :=
  let part := fun i hi lo (v : Nat) =>
    let a := (r.acc.getD i 0).toNat
    { r with acc := r.acc.set i (BitVec.ofNat 56 (a - bits a hi lo * 2 ^ lo + v * 2 ^ lo)) }
  match w with
  | .x i v => { r with x := r.x.set i v }
  | .acc i v => { r with acc := r.acc.set i v }
  | .accG i v => part i 55 48 (v.toNat % 256)
  | .accH i v => part i 47 24 v.toNat
  | .accL i v => part i 23 0 v.toNat
  | .p i v => { r with p := r.p.set i v }
  | .n i v => { r with n := r.n.set i v }
  | .m i v => { r with m := r.m.set i v }
  | .lc v => { r with lc := v }
  | .be v => { r with be := v }
  | .beMin v => { r with be := if v < r.be.toInt then BitVec.ofInt 6 v else r.be }
  | .sw v => { r with sw := v &&& BitVec.ofNat 24 swMask }
  | .flags mask v => { r with sw := (r.sw &&& ~~~mask) ||| (v &&& mask) }

/-- Whether a write is of a pointer, an offset or a descriptor (R421). -/
def RegWrite.ptr : RegWrite → Bool
  | .p _ _ => true
  | .n _ _ => true
  | .m _ _ => true
  | _ => false

/-- Writes land in order. -/
def landAll (l : List RegWrite) (r : Regs) : Regs := l.foldl (fun r w => w.land r) r

/-- What a list of writes leaves for interlocks. -/
def traceOf (l : List RegWrite) : Trace :=
  { flags := l.any fun w => match w with
      | .sw _ => true
      | .flags _ _ => true
      | _ => false
    lc := l.any fun w => match w with
      | .lc _ => true
      | _ => false
    ptrs := l.filterMap fun w => match w with
      | .p i _ => some i
      | _ => none }

/-- Flags set to the bits of a value, sticky bits only where they are set in it. -/
def setFlags (mask v : Nat) : RegWrite := .flags (BitVec.ofNat 24 (mask ||| (v &&& (swSAT + swOVF)))) (BitVec.ofNat 24 v)

/-- Bits of SW set where there are any. -/
def setBits (v : Nat) : List RegWrite := if v = 0 then [] else [.flags (BitVec.ofNat 24 v) (BitVec.ofNat 24 v)]

/-- The value of a 24-bit register, by its code (R445). -/
def Regs.word (r : Regs) (code : Nat) : Word24 :=
  let acc := (r.acc.getD (code % 4) 0).toNat
  if code < 8 then r.x.getD code 0
  else if code < 16 then BitVec.ofInt 24 (signed 8 (bits acc 55 48))
  else if code < 20 then BitVec.ofNat 24 (bits acc 47 24)
  else if code < 24 then BitVec.ofNat 24 acc
  else if code < 32 then r.p.getD (code - 24) 0
  else if code < 40 then r.n.getD (code - 32) 0
  else if code < 48 then r.m.getD (code - 40) 0
  else if code = 48 then r.lc.setWidth 24
  else if code = 49 then r.be.signExtend 24
  else r.sw

/-- Whether a code names a whole accumulator. -/
def wholeAcc (code : Nat) : Bool := 8 ≤ code && code < 12

/-- A register's value as 24 bits: a whole accumulator is converted with shift 24, which may set bits of SW (R446, R449). -/
def Regs.read24 (r : Regs) (code : Nat) : Word24 × Nat :=
  if wholeAcc code then convert r.sw 24 (r.acc.getD (code - 8) 0).toInt else (r.word code, 0)

/-- A 24-bit value written to a register, by its code (R445, R446). -/
def writeReg (code : Nat) (v : Word24) : RegWrite :=
  if code < 8 then .x code v
  else if code < 12 then .acc (code - 8) (place v)
  else if code < 16 then .accG (code - 12) v
  else if code < 20 then .accH (code - 16) v
  else if code < 24 then .accL (code - 20) v
  else if code < 32 then .p (code - 24) v
  else if code < 40 then .n (code - 32) v
  else if code < 48 then .m (code - 40) v
  else if code = 48 then .lc (v.setWidth 13)
  else if code = 49 then .be (v.setWidth 6)
  else .sw v

/-! Addressing (R426). -/

/-- The lowest w bits of a number in reverse order. -/
def reverseLow (v : Nat) : Nat → Nat
  | 0 => 0
  | w + 1 => v % 2 * 2 ^ w + reverseLow (v / 2) w

/-- What a descriptor says of a pointer: 0 linear, 1 circular, 2 bit-reversed, 3 reserved. -/
def descriptor (m : Word24) : Nat :=
  let v := m.toNat
  let base := bits v 21 14
  let len := bits v 13 0
  match v / 2 ^ 22 with
  | 0 => if v = 0 then 0 else 3
  | 1 => if 64 * base + (if len = 0 then 16384 else len) ≤ 16384 then 1 else 3
  | 2 => if base = 0 ∧ 1 ≤ len ∧ len ≤ 14 then 2 else 3
  | _ => 3

/-- The address that a pointer forms. -/
def formAddress (m p : Word24) : Nat :=
  if descriptor m = 2 then
    let w := m.toNat % 16
    p.toNat / 2 ^ w * 2 ^ w + reverseLow (p.toNat % 2 ^ w) w
  else p.toNat

/-- A pointer after a step. -/
def stepPointer (m p : Word24) (step : Int) : Word24 :=
  if descriptor m = 1 then
    let v := m.toNat
    let b : Int := (p.toNat / 16384 * 16384 + 64 * bits v 21 14 : Nat)
    let l : Int := ((if v % 16384 = 0 then 16384 else v % 16384) : Nat)
    BitVec.ofInt 24 (b + (p.toNat - b + step) % l)
  else BitVec.ofInt 24 (p.toNat + step)

/-- The step of a mode: 1 (Pn)+, 2 (Pn)−, 3 (Pn)+Nn; none for 0. -/
def modeStep (r : Regs) (n mode : Nat) (pair : Bool) : Option Int :=
  match mode with
  | 0 => none
  | 1 => some (if pair then 2 else 1)
  | 2 => some (if pair then -2 else -1)
  | _ => some (r.n.getD n 0).toInt

/-! Move fields (R447). -/

/-- A data move. -/
structure Move where
  /-- 1 single, 2 pair load, 3 pair store. -/
  kind : Nat
  y : Bool
  ptr : Nat
  mode : Nat
  store : Bool := false
  reg : Nat := 0
  second : Nat := 0
  deriving DecidableEq, Repr

/-- The move that a 14-bit field names; none where it is illegal (R444). -/
def moveOf (v : Nat) : Option (Option Move) :=
  let kind := bits v 13 12
  let y := bit v 11
  let n := bits v 10 8
  let mode := bits v 7 6
  match kind with
  | 0 => if v = 0 then some none else none
  | 1 => if bit v 0 || decide (11 < bits v 4 1) then none
    else some (some { kind := 1, y := y, ptr := n, mode := mode, store := bit v 5, reg := bits v 4 1 })
  | _ => some (some { kind := kind, y := y, ptr := n, mode := mode, store := kind == 3, reg := bits v 5 3, second := bits v 2 0 })

/-- Whether a move is a pair. -/
def Move.pair (m : Move) : Bool := 2 ≤ m.kind

/-- A move's address and the pointer after it, with whether its descriptor is reserved. -/
def Move.aim (m : Move) (r : Regs) : Nat × Option (Nat × Word24) × Bool :=
  let p := r.p.getD m.ptr 0
  let d := r.m.getD m.ptr 0
  (formAddress d p, (modeStep r m.ptr m.mode m.pair).map fun k => (m.ptr, stepPointer d p k), descriptor d == 3)

/-- Pointers after the moves of a word: both form their addresses first, and the later update of one pointer stands (R450). -/
def updatePointers (l : List (Option (Nat × Word24))) (r : Regs) : Regs :=
  l.foldl (fun r u => match u with
    | some (n, v) => { r with p := r.p.set n v }
    | none => r) r

/-! Data memory (R415, R417, R419). -/

/-- The space of an X address: 0 the bank, 1 the control registers, 2 cluster memory; none where nothing is. -/
def spaceOf (y : Bool) (a : Nat) : Option Nat :=
  if a < 0x4000 then some 0
  else if y then none
  else if 0x10000 ≤ a ∧ a < 0x100C0 then some 1
  else if 0x20000 ≤ a ∧ a < 0x40000 then some 2
  else none

/-- The device address of a word of a core's banks or of its cluster's memory. -/
def wordAddress (b : Nat) (y : Bool) (a : Nat) : Nat :=
  if a < 0x4000 then bankBase + (if y then 0x10000 else 0) + 4 * a else clusterBase + b * 0x100000 + 4 * (a - 0x20000)

/-- The byte that a transfer writes to a device address, where its destination covers it. -/
def DmaCh.writes (d : DmaCh) (a : Nat) : Option Byte :=
  ((List.range d.rows).reverse.findSome? fun (i : Nat) =>
    let row := (d.dst : Int) + i * d.dstride.toInt
    if row ≤ a ∧ (a : Int) < row + d.len then d.snap[i * d.len + ((a : Int) - row).toNat]? else none)

/-- The word that a transfer in progress writes to a word, where it covers it. -/
def Core.incoming (c : Core) (a : Nat) (old : Word24) : Option Word24 :=
  match c.dma.find? fun d => d.busy && ((List.range 3).any fun i => (d.writes (a + i)).isSome) with
  | none => none
  | some d => some (BitVec.ofNat 24 (uN ((List.range 3).map fun i => (d.writes (a + i)).getD (BitVec.ofNat 8 (old.toNat / 2 ^ (8 * i)))) 0 3))

/-- A field of the descriptor's 16-bit words. -/
def descWord (d : Bytes) (i : Nat) : Nat := u16 d (2 * i)

/-- A part of a 64-bit address in registers of 24 bits. -/
def addrPart (v i : Nat) : Nat := v / 2 ^ (24 * i) % 2 ^ 24

/-- The device address of a partition's area (R419). -/
def partBase (s : State) (b : Nat) : Nat :=
  match partitionOf s.gens.active b with
  | some q => regionBase s.rt.dram 0 + u64 (mgetD s.gens.active.partitions q []) 0x10
  | none => 0

/-- A core control register as it reads (R419). -/
def readCtrl (s : State) (b p : Nat) (c : Core) (off : Nat) : Nat :=
  if off < 0x10 then descWord c.desc off
  else if off = 0x10 then c.ctxCur
  else if off = 0x11 then c.ctxShd
  else if off = 0x12 then 2 * b2n (bit (u8 c.desc 0x1F) 0)
  else if off = 0x13 then p + 16 * b
  else if off = 0x14 then s.rt.clover.tick % 2 ^ 24
  else if off = 0x15 then s.now % tMs / tNs
  else if 0x18 ≤ off ∧ off ≤ 0x1A then addrPart (partBase s b) (off - 0x18)
  else if 0x20 ≤ off ∧ off < 0x30 then (c.enq.getD (off - 0x20) 0).toNat
  else if off = 0x31 then b2n c.refused + 2 * c.reason + 16 * reserveFree s b p
  else if off = 0x40 then c.pend.toNat
  else if off = 0x41 then c.en.toNat
  else if off = 0x43 then c.ipc.toNat
  else if off = 0x44 then c.isw.toNat
  else if 0x80 ≤ off ∧ off < 0xC0 then
    let d := c.dma.getD (off / 16 - 8) {}
    match off % 16 with
    | 0 => addrPart d.src 0
    | 1 => addrPart d.src 1
    | 2 => addrPart d.src 2
    | 3 => addrPart d.dst 0
    | 4 => addrPart d.dst 1
    | 5 => addrPart d.dst 2
    | 6 => d.len
    | 7 => d.rows
    | 8 => d.sstride.toNat
    | 9 => d.dstride.toNat
    | 10 => 2 * b2n d.irq
    | 11 => b2n d.busy + 2 * b2n d.done + 4 * b2n d.err
    | _ => 0
  else 0

/-- What an instruction works on: the core at a position, its registers as E1 reads them, and the free values it may draw. -/
structure Env where
  s : State
  b : Nat
  p : Nat
  c : Core
  r : Regs
  free : Nat

/-- A word of data memory; none for an address that nothing holds, or that a repetition may not address (R415, R424). A word that the
core's own DMA is writing is old or new (R427). -/
def Env.load (e : Env) (slot : Nat) (y : Bool) (a : Nat) : Option Word24 :=
  let mixed := fun (w : Word24) => match e.c.incoming (wordAddress e.b y a) w with
    | some v => if Config.freeNat (e.free + slot) % 2 = 0 then w else v
    | none => w
  match spaceOf y a with
  | none => none
  | some 0 => some (mixed (wordAt (if y then e.c.ymem else e.c.xmem) a))
  | some k =>
    if e.c.repeat_.isSome then none
    else if k = 1 then some (BitVec.ofNat 24 (readCtrl e.s e.b e.p e.c (a - 0x10000)))
    else some (mixed (wordAt (mgetD e.s.rt.dsp.shared e.b []) (a - 0x20000)))

/-- Whether a store may address a word (R415, R424). -/
def Env.storable (e : Env) (y : Bool) (a : Nat) : Bool :=
  match spaceOf y a with
  | none => false
  | some 0 => true
  | some _ => e.c.repeat_.isNone

end Sys2Proof.Machine
end

