-- ==== Sys2Proof/Machine/Nal.lean ====
section
/-! DEFINITION. NAL units in RTP payloads (RFC 6184, RFC 6190, RFC 7798) as R236 and R303 read them. -/

namespace Sys2Proof.Machine

/-- What the headers of a NAL unit, or of a fragment of one, say. -/
structure Nal where
  /-- NAL unit type of its standard. -/
  type : Nat
  /-- Spatial and temporal ids (R303). -/
  s : Nat := 0
  t : Nat := 0
  vcl : Bool := false
  /-- A parameter set. -/
  param : Bool := false
  /-- Random-access point of its layer (R306). -/
  rap : Bool := false
  /-- An H.265 TSA or STSA picture. -/
  tsa : Bool := false
  /-- nuh_layer_id of H.265. -/
  layer : Nat := 0
  /-- Fragment: 0 whole, 1 start, 2 middle, 3 end. -/
  frag : Nat := 0
  bytes : Bytes
  /-- What it adds to its NAL unit: all of a whole one, the header and first octets of a starting fragment, the octets of a later one. -/
  body : Bytes := []
  deriving DecidableEq, Repr

/-- An H.264 NAL unit by its header, with the SVC extension of types 14 and 20. -/
def nal264 (b : Bytes) : Nal :=
  let type := u8 b 0 % 32
  let ext := type == 14 || type == 20
  { type := type, bytes := b, body := b
    s := if ext then u8 b 2 / 16 % 8 else 0
    t := if ext then u8 b 3 / 32 else 0
    vcl := (1 ≤ type && type ≤ 5) || type == 20
    param := type == 7 || type == 8 || type == 15
    rap := type == 5 || (ext && bit (u8 b 1) 6) }

/-- An H.265 NAL unit by its header. -/
def nal265 (b : Bytes) : Nal :=
  let type := u8 b 0 / 2 % 64
  { type := type, bytes := b, body := b, t := u8 b 1 % 8 - 1, layer := u8 b 0 % 2 * 32 + u8 b 1 / 8
    vcl := type < 32, param := 32 ≤ type && type ≤ 34, rap := 16 ≤ type && type ≤ 23, tsa := 2 ≤ type && type ≤ 5 }

/-- The units of an aggregation packet; none where a size runs past the end. -/
def splitUnits : Nat → Bytes → Option (List Bytes)
  | 0, _ => none
  | k + 1, b =>
    if b.isEmpty then some []
    else
      let n := beNat (b.take 2)
      if b.length < 2 + n ∨ n = 0 then none
      else (splitUnits k (b.drop (2 + n))).map fun l => (b.drop 2).take n :: l

/-- The place of a fragment in its NAL unit by its header octet: 1 start, 2 middle, 3 end. -/
def fragPlace (f : Nat) : Nat := if bit f 7 then 1 else if bit f 6 then 3 else 2

/-- The NAL units of an H.264 payload, or of an SVC one, whose PACSI units are skipped; none for a format not accepted (R236). -/
def nals264 (svc : Bool) (p : Bytes) : Option (List Nal) :=
  let type := u8 p 0 % 32
  let pacsi := fun (n : Nal) => svc && n.type == 30
  if p.isEmpty then none
  else if 1 ≤ type ∧ type ≤ 23 then some [nal264 p]
  else if type = 24 then
    (splitUnits p.length (p.drop 1)).bind fun l =>
      let ns := (l.map nal264).filter fun n => !pacsi n
      if ns.all fun n => decide (1 ≤ n.type ∧ n.type ≤ 23) then some ns else none
  else if type = 28 ∧ 2 ≤ p.length then
    let f := u8 p 1
    let whole : Bytes := BitVec.ofNat 8 (u8 p 0 / 32 * 32 + f % 32) :: p.drop 2
    some [{ nal264 whole with bytes := p, frag := fragPlace f, body := if fragPlace f = 1 then whole else p.drop 2 }]
  else if svc ∧ type = 30 then some []
  else none

/-- The NAL units of an H.265 payload without DONL (R236). -/
def nals265 (p : Bytes) : Option (List Nal) :=
  let type := u8 p 0 / 2 % 64
  if p.length < 2 then none
  else if type = 48 then (splitUnits p.length (p.drop 2)).map fun l => l.map nal265
  else if type = 49 then
    let f := u8 p 2
    let whole : Bytes := BitVec.ofNat 8 (u8 p 0 / 128 * 128 + f % 64 * 2 + u8 p 0 % 2) :: BitVec.ofNat 8 (u8 p 1) :: p.drop 3
    if p.length < 3 then none
    else some [{ nal265 whole with bytes := p, frag := fragPlace f, body := if fragPlace f = 1 then whole else p.drop 3 }]
  else if type < 48 then some [nal265 p]
  else none

/-- The NAL units of a payload of H.265, SVC or H.264. -/
def nalsOf (h265 svc : Bool) (p : Bytes) : Option (List Nal) := if h265 then nals265 p else nals264 svc p

/-- The NAL units that a picture's packets carry whole, in order: a fragmented unit with a missing fragment is discarded (R238). The
argument run is the fragmented unit in progress, with the sequence number that it needs next. -/
def wholeUnits (h265 svc : Bool) : Option (Nat × Bytes) → List (Nat × Bool × Bytes) → List Bytes
  | _, [] => []
  | run, (q, _, p) :: l =>
    match nalsOf h265 svc p with
    | some [n] =>
      let going := match run with
        | some r => if r.1 = q then some r.2 else none
        | none => none
      let next := (q + 1) % 65536
      match n.frag with
      | 0 => n.bytes :: wholeUnits h265 svc none l
      | 1 => wholeUnits h265 svc (some (next, n.body)) l
      | 2 => wholeUnits h265 svc (going.map fun b => (next, b ++ n.body)) l
      | _ => (going.map fun b => b ++ n.body).toList ++ wholeUnits h265 svc none l
    | some ns => ns.map (·.bytes) ++ wholeUnits h265 svc none l
    | none => wholeUnits h265 svc none l

/-- An aggregation packet of several NAL units: the greatest importance and layer of its header follow RFC 6184 and RFC 7798. -/
def joinNals (h265 : Bool) (l : List Nal) : Bytes :=
  let units := l.flatMap fun n => be 2 n.bytes.length ++ n.bytes
  if h265 then
    let layer := l.foldl (fun m n => Nat.min m n.layer) 63
    let tid := l.foldl (fun m n => Nat.min m (n.t + 1)) 7
    [BitVec.ofNat 8 (48 * 2 + layer / 32), BitVec.ofNat 8 (layer % 32 * 8 + tid)] ++ units
  else
    let nri := l.foldl (fun m n => Nat.max m (u8 n.bytes 0 / 32 % 4)) 0
    let f := if l.any (fun n => 128 ≤ u8 n.bytes 0) then 128 else 0
    [BitVec.ofNat 8 (f + nri * 32 + 24)] ++ units

/-- The payload that carries the selected NAL units: a single NAL unit packet when one remains (R303). -/
def packNals (h265 : Bool) (l : List Nal) : Bytes :=
  match l with
  | [n] => n.bytes
  | _ => joinNals h265 l

end Sys2Proof.Machine
end

