-- ==== Sys2Proof/Machine/TimeRows.lean ====
section
/-! DEFINITION. The TIME commands and the time rows (R526 to R550). -/

namespace Sys2Proof.Machine

/-! Commands. -/

/-- TIME.STATUS (R548). -/
def cmdTimeStatus : Cmd where
  code := 0x0F00
  len := len1 0
  safe := true
  run := fun _ _ s =>
    let b := s.seen.time
    let el := fun t => (b.up - t) / tS
    let sl := match b.slew with
      | some w => if w.offset < 0 then -(w.rate : Int) else (w.rate : Int)
      | none => 0
    let gained := fun (w : Slew) => Nat.min w.offset.natAbs ((b.up - w.start) * w.rate / (tNs * 1000000000))
    let left := match b.slew with
      | some w => if w.offset < 0 then -((w.offset.natAbs - gained w : Nat) : Int) else ((w.offset.natAbs - gained w : Nat) : Int)
      | none => 0
    okWith s (timeBytes s.seenAt ++ block 48 [
      (0, 1, b.state.code), (1, 1, b.phaseSrc), (2, 1, b.freqSrc),
      (3, 1, b2n b.slew.isSome + 2 * b2n b.limitPassed + 4 * b2n b.phasePresent + 8 * b2n b.freqPresent),
      (4, 4, sat32 (b.y + 1000 * sl)), (8, 4, sat32 (roundDiv b.theta tNs)), (0xC, 4, sat32 left),
      (0x10, 8, b.grandmaster), (0x18, 2, b.utc), (0x1A, 1, b.leap), (0x1B, 1, b.slavePort.getD 0xFF),
      (0x1C, 4, el b.stateSince), (0x20, 4, if b.state = .holdover then el b.stateSince else 0),
      (0x24, 4, b.pathDelay), (0x28, 2, b.steps)])

/-- Whether a phase source owns the counter (R528). -/
def phaseOwns (s : State) : List Fail := failIf (s.rt.time.phaseSrc != 0) .wrongState 1

/-- The UTC fields of a TIME.SET with flag 0 (R542). -/
def setUtc (p : Bytes) (s : State) : State :=
  if bit (u8 p 1) 0 then s.modTime fun b => { b with utc := u16 p 2, leap := u8 p 4 } else s

/-- TIME.SET (R526, R542). -/
def cmdTimeSet : Cmd where
  code := 0x0F01
  len := len1 24
  safe := true
  fails := fun r _ s =>
    fldFails r.params ([rng 0 1 0 2, msk 1 1 3, rng 2 2 0 255, msk 4 1 3, rsv 5 3] ++ timeFlds 8) ++
    badIf (u8 r.params 0 == 2 && u32 r.params 0x10 != 0) 0x10 ++ phaseOwns s
  run := fun r _ s =>
    let p := r.params
    let v : Int := (timeAt p 8 : Nat)
    match u8 p 0 with
    | 0 => okWith (setUtc p (stepCounter (v - (s.now : Int)) true s))
    | 1 => okWith (setUtc p (stepCounter (if bit (u8 p 1) 1 then -v else v) true s))
    | _ => okWith (s.modTime fun b => { b with armed := some p })

/-- TIME.ADJUST (R527, R543). -/
def cmdTimeAdjust : Cmd where
  code := 0x0F02
  len := len1 16
  safe := true
  fails := fun r _ s =>
    fldFails r.params [srng 0 4 (-1000000000) 1000000000, rng 4 4 1000 500000, rsv 8 8] ++ phaseOwns s
  run := fun r _ s =>
    let d := sN r.params 0 4
    let b := s.rt.time
    let room := if d < 0 then b.clamp + b.y else b.clamp - b.y
    let rate := Nat.min (u32 r.params 4) (room / 1000).toNat
    okWith (s.modTime fun b => { b with slew := if d = 0 then none else some ⟨d, rate, b.up⟩ })

/-- A phase source set to none (R531). -/
def phaseNone (s : State) : State :=
  let s := s.modTime fun b => let b := b.fallback; { b with s := -(b.y : Rat) / (b.ki : Rat) }
  servoTo (if s.rt.time.freqIn then .frequency else .freeRun) s

/-- TIME.SERVO_SET (R544). -/
def cmdTimeServoSet : Cmd where
  code := 0x0F03
  len := len1 32
  safe := true
  fails := fun r _ _ =>
    let p := r.params
    fldFails p [rng 0 1 0 2, oneOf 1 1 ([0, 1, 2] ++ span 4 8 ++ span 16 16), rsv 2 2, rng 4 4 0 10000, rng 8 4 1 10000,
      (0xC, 4, fun v => v == 0 || (1000 ≤ v && v ≤ 1000000000)), rng 0x10 4 10 100000, rng 0x14 4 100 10000000,
      rng 0x18 2 10 3600, rng 0x1A 2 0 10080, rng 0x1C 2 1 500, rsv 0x1E 2] ++
    badIf (decide (u32 p 0x14 < u32 p 0x10)) 0x14
  run := fun r _ s =>
    let p := r.params
    let o := s.rt.time
    let s := if u8 p 1 != o.freqSrc && o.freqPresent then freqLost s else s
    let s := if u8 p 0 != o.phaseSrc && o.phasePresent then phaseLost s else s
    let s := s.modTime fun b =>
      { b with
        servo := p.take 32
        phasePresent := b.phasePresent && u8 p 0 == o.phaseSrc, freqPresent := b.freqPresent && u8 p 1 == o.freqSrc }
    let s := s.modTime fun b => if b.clamped b.y = b.y then b else b.setY (b.clamped b.y)
    okWith (if u8 p 0 = 0 ∧ o.phaseSrc ≠ 0 then phaseNone s else s)

/-- The checks of TIME.PTP_SET on its block, with whether its port is disabled (R545). -/
def ptpFails (p : Bytes) (portOff : Bool) : List Fail :=
  fldFails p [rng 0 1 0 3, rng 1 1 0 1, rng 2 1 0 2, rng 3 1 0 1, rng 5 1 0 2, srng 8 1 (-4) 1, rng 9 1 0 4,
    srng 0xA 1 (-4) 5, rng 0xB 1 2 10, rng 0x10 2 0 4094, rng 0x12 1 0 7, rng 0x14 1 0 63, rsv 0x15 3, rsv 0x28 8] ++
  badIf (u8 p 5 != 0 && decide (u8 p 2 < 2)) 5 ++ badIf portOff 0

/-- TIME.PINS_SET (R546). -/
def cmdTimePinsSet : Cmd where
  code := 0x0F05
  len := len1 16
  safe := true
  fails := fun r _ _ =>
    fldFails r.params [srng 0 4 (-100000) 100000, srng 4 4 (-100000) 100000, rng 8 2 1 500, rng 0xA 1 0 1, rng 0xB 1 0 2,
      rng 0xC 1 0 1, rsv 0xD 3]
  run := fun r _ s =>
    let s := bitsPin (s.modTime fun b => { b with pins := r.params.take 16 })
    okWith (if u8 r.params 0xA = 0 then (s.modTime fun b => { b with ppsOut := false }).setPin 0 false else s)

/-- TIME.LAUNCH_SET (R547). -/
def cmdTimeLaunchSet : Cmd where
  code := 0x0F06
  len := len1 8
  fails := fun r _ _ => fldFails r.params [rng 0 1 0 3, rng 1 1 0 1, rsv 2 2, rng 4 4 100 1000000]
  run := fun r _ s => okWith (s.modTime fun b => { b with launch := mset b.launch (u8 r.params 0) (r.params.take 8) })

/-- The index of a TIME.STATS counter in the state, for a port (R549). -/
def timeStat (port i : Nat) : Nat := if i ≤ 5 then i else 100 * (port + 1) + i

/-- TIME.STATS (R549). -/
def cmdTimeStats : Cmd where
  code := 0x0F07
  len := len1 4
  safe := true
  fails := fun r _ _ => fldFails r.params [rng 0 1 0 1, rng 1 1 0 3, rsv 2 2]
  run := fun r _ s =>
    let port := u8 r.params 1
    let seen := (span 1 16).map fun i => (timeStat port i, mgetD s.seen.time.stats (timeStat port i) 0)
    let d := seen.flatMap fun e => le 4 e.2
    okWith (if u8 r.params 0 = 1 then
      s.clearSeen (fun b rt => { rt with time := { rt.time with
        stats := clearMax (fun k => 100 ≤ k && k % 100 == 16) (b.time.stats.filter fun e => seen.any fun x => x.1 == e.1) rt.time.stats } })
      else s) d

def execTimeStatus (r : Request) (s : State) : Host.Outcome State Fault Refusal := execCmd cmdTimeStatus r s
def execTimeSet (r : Request) (s : State) : Host.Outcome State Fault Refusal := execCmd cmdTimeSet r s
def execTimeAdjust (r : Request) (s : State) : Host.Outcome State Fault Refusal := execCmd cmdTimeAdjust r s
def execTimeServoSet (r : Request) (s : State) : Host.Outcome State Fault Refusal := execCmd cmdTimeServoSet r s
def execTimePinsSet (r : Request) (s : State) : Host.Outcome State Fault Refusal := execCmd cmdTimePinsSet r s
def execTimeLaunchSet (r : Request) (s : State) : Host.Outcome State Fault Refusal := execCmd cmdTimeLaunchSet r s
def execTimeStats (r : Request) (s : State) : Host.Outcome State Fault Refusal := execCmd cmdTimeStats r s

/-! Rows. -/

/-- At the next second boundary reached by counting, an armed mode-2 TIME.SET gives the counter its seconds (R526). -/
def execTimeSetArmedApply (s : State) : Host.Outcome State Fault Refusal :=
  match s.rt.time.armed with
  | none => done s
  | some p =>
    let s := s.advance ((s.now / tS + 1) * tS)
    let s := s.modTime fun b => { b with armed := none }
    done (setUtc p (stepCounter ((u64 p 8 * tS : Nat) - (s.now : Int)) true s))

/-- A slew that has gained or lost its whole offset ends (R527). -/
def execSlewEnd (t : Time) (s : State) : Host.Outcome State Fault Refusal :=
  let s := s.advance t
  match s.rt.time.slew with
  | none => done s
  | some w =>
    if w.offset.natAbs * tNs * 1000000000 ≤ (s.up - w.start) * w.rate then
      done ((s.modTime fun b => { b with slew := none }).post 0x0F82 1 0 0)
    else done s

/-- Whether REFCLK and the time synthesiser hold (R592). -/
def State.timeClock (s : State) : Bool := s.rt.power.refclkOk && !mhas s.rt.power.unlocked 9

/-- A PPS_IN edge: stamped to 1/16 ns, and given to the servo as a phase measurement (R524, R529, R536). -/
def execPpsInEdge (t : Time) (rising : Bool) (s : State) : Host.Outcome State Fault Refusal :=
  let s := s.advance t
  let b := s.rt.time
  let stamp := s.now / 4096 * 4096
  let close : Bool := match b.lastPps with
    | some l => decide (stamp < l + tS / 2)
    | none => false
  if s.timeClock && rising == (u8 b.pins 0xC == 0) then
    if close then done (s.modTime fun b => { b with stats := bump b.stats 17 })
    else
      let s := s.modTime fun b => { b with lastPps := some stamp }
      if b.phaseSrc = 2 then
        let s := if b.phasePresent then s else phaseReturn s
        done (phaseMeasure (secondOffset ((stamp : Int) - sN b.pins 0 4 * (tNs : Nat))) s)
      else done s
  else done s

/-- The offset of a Sync exchange: its receive stamp less the time it carried, corrected by path delay and asymmetry (R529, R535; log 190).
None before a port's first exchange. -/
def ptpTheta (b : TimeBlk) (m : PtpOffset) : Option Int :=
  match mget b.ptpSync m.port.val, mget b.ptpOrigin m.port.val with
  | some t2, some t1 =>
    some ((t2 : Int) - t1 - (m.delay.toNat * tNs : Nat) - m.correction - sN (mgetD b.ptp m.port.val []) 0xC 4)
  | _, _ => none

/-- Firmware reports an offset from a Sync exchange; a source that has not returned is not yet measured (R529, R531). -/
def execPtpMeasurement (t : Time) (m : PtpOffset) (s : State) : Host.Outcome State Fault Refusal :=
  let s := s.advance t
  let s := s.modTime fun b => { b with pathDelay := m.delay.toNat }
  match if s.rt.time.phaseSrc = 1 ∧ s.rt.time.phasePresent then ptpTheta s.rt.time m else none with
  | some theta => done (phaseMeasure theta s)
  | none => done s

/-- The time that a received PTP message carries: the low 48 bits of its seconds and its nanoseconds, with the high 16 bits of the seconds
taken from the device's own counter (R14; log 190). -/
def ptpCarried (now : Time) (data : Bytes) : Time :=
  (now / tS / 2 ^ 48 * 2 ^ 48 + beNat (slice data 34 6)) * tS + beNat (slice data 40 4) * tNs

/-- The seconds and nanoseconds of an instant as a PTP message carries them: the low 48 bits of the seconds (R14). -/
def ptpStamp (t : Time) : Bytes := be 6 (t / tS) ++ be 4 (t % tS / tNs)

def execFreqMeasurement (t : Time) (f : Rat) (s : State) : Host.Outcome State Fault Refusal :=
  let s := s.advance t
  done (if s.timeClock then freqMeasure f s else s)

/-- 1.5 s of counter time without an accepted edge loses PPS_IN (R529). -/
def execPpsInLost (t : Time) (s : State) : Host.Outcome State Fault Refusal :=
  let s := s.advance t
  let b := s.rt.time
  let late : Bool := match b.lastPps with
    | some l => decide (l + 3 * tS / 2 ≤ b.now)
    | none => false
  done (if b.phaseSrc = 2 ∧ b.phasePresent ∧ late then phaseLost s else s)

/-- Firmware reports that the PTP source is lost (R529). -/
def ptpLost (s : State) : State :=
  let s := s.modTime fun b => { b with slavePort := none, grandmaster := 0 }
  if s.rt.time.phaseSrc = 1 ∧ s.rt.time.phasePresent then phaseLost s else s

def execPtpSourceLost (t : Time) (s : State) : Host.Outcome State Fault Refusal := done (ptpLost (s.advance t))

/-- The holdover limit passes while in HOLDOVER (R531). -/
def execHoldoverLimitExpiry (t : Time) (s : State) : Host.Outcome State Fault Refusal :=
  let s := s.advance t
  let b := s.rt.time
  let lim := u16 b.servo 0x1A
  if b.state = .holdover ∧ lim ≠ 0 ∧ b.limitPassed = false ∧ b.stateSince + lim * 60 * tS ≤ b.up then
    done (bitsPin ((s.modTime fun b => { b with limitPassed := true }).post 0x0F87 3 0 lim))
  else done s

/-- PPS_OUT rises at S + offset for a second that the counter has reached by counting (R536). -/
def execPpsOutPulse (t : Time) (s : State) : Host.Outcome State Fault Refusal :=
  let s := s.advance t
  let b := s.rt.time
  let sec := (b.now : Int) - sN b.pins 4 4 * (tNs : Nat)
  if sec % (tS : Nat) = 0 ∧ 0 < sec ∧ u8 b.pins 0xA = 1 ∧ (b.setAt : Int) + (tMs : Nat) ≤ sec then
    done ((s.modTime fun b => { b with ppsOut := true }).setPin 0 true)
  else done s

/-- PPS_OUT falls at the end of its width (R536). -/
def execPpsOutPulseEnd (t : Time) (s : State) : Host.Outcome State Fault Refusal :=
  done (((s.advance t).modTime fun b => { b with ppsOut := false }).setPin 0 false)

/-- A frame with a launch time enters its port's timed queue with its own or its port's tolerance (R537, R540). -/
def execTimedQueueEnqueue (t : Time) (port : Fin 4) (f : TimedFrame) (s : State) : Host.Outcome State Fault Refusal :=
  let s := s.advance t
  let d := f.own.getD (launchSetting s.rt.time port.val)
  done (enqueueTimed port.val
    { launch := f.launch, tolerance := d.1, drop := d.2, tsTag := f.tsTag.map (·.toNat)
      packet := { kind := 3, flow := f.flow.toNat, data := f.data, len := f.data.length } } s)

end Sys2Proof.Machine
end

