-- ==== Sys2Proof/Machine/Net.lean ====
section
/-! DEFINITION. The NET commands, the port rows, and TIME.PTP_SET (R502 to R521, R545). -/

namespace Sys2Proof.Machine

/-! Settings: the latest given, which a boundary brings into force (R503). -/

/-- The latest setting of a port. -/
def Net.latestPort (n : Net) (p : Nat) : Bytes := (mget n.portsNext p).getD (n.port p)

/-- The latest setting of a pair. -/
def Net.latestPair (n : Net) (i : Nat) : Bytes := (mget n.pairsNext i).getD (n.pair i)

/-- The default of a receive class (R518). -/
def classDefault (p k : Nat) : Bytes := block 32 [(0, 1, p), (1, 1, k), (0x18, 2, 64)]

/-- The receive class in force. -/
def Net.classAt (n : Net) (p k : Nat) : Bytes := (mget n.classes (p * 64 + k)).getD (classDefault p k)

/-- The latest setting of a receive class. -/
def Net.latestClass (n : Net) (p k : Nat) : Bytes := (mget n.classesNext (p * 64 + k)).getD (n.classAt p k)

/-- The address of a port: set, or programmed in OTP (R516). -/
def State.macBytes (s : State) (p : Nat) : Bytes :=
  match mget s.rt.net.ports p with
  | some b => slice b 4 6
  | none => slice s.rt.mgmt.macs (6 * p) 6

/-- The address a port uses: that of the even port in a PRP or HSR pair (R510). -/
def State.mac (s : State) (p : Nat) : Nat :=
  beNat (s.macBytes (s.rt.net.named p))

/-! Commands. -/

/-- NET.PORT_SET (R516): in force from the next tick boundary. -/
def cmdNetPortSet : Cmd where
  code := 0x0E00
  len := len1 32
  block := some 34
  fails := fun r _ _ =>
    fldFails r.params [rng 0 1 0 3, rng 1 1 0 3, rng 2 2 1518 9216, msk 0xA 1 3, rsv 0xB 1, rsv 0x14 12] ++
    badIf (bit (u8 r.params 4) 0) 4
  run := fun r _ s => okWith (s.modNet fun n => { n with portsNext := mset n.portsNext (u8 r.params 0) (r.params.take 32) })

/-- The objects of a generation that name a port (R510). -/
def portUsers (g : Generation) (p : Nat) : List Nat :=
  ((rtpLegs g).filter fun e => u8 e.2 0x20 == p).map (·.1) ++ (g.vids.filter fun e => u8 e.2 0x30 == p).map (·.1) ++
  (g.relays.filter fun e => u8 e.2 4 == p).map (·.1) ++ (g.subs.filter fun e => u8 e.2 0x0B == p).map (·.1) ++
  (g.policers.filter fun e => e.1 / 64 == p).map (·.1) ++ (g.queues.filter fun e => e.1 / 16 == p).map (·.1)

/-- NET.PAIR_SET (R510, R517). -/
def cmdNetPairSet : Cmd where
  code := 0x0E01
  len := len1 16
  block := some 34
  fails := fun r _ s =>
    let i := u8 r.params 0
    let n := s.rt.net
    let gens := [s.gens.active, s.gens.staged] ++ (s.gens.armed.map (·.gen)).toList
    fldFails r.params [rng 0 1 0 1, rng 1 1 0 2, rsv 2 2, rng 4 2 100 10000, rng 6 2 10 10000, rng 8 2 1 3600, rsv 0xA 6] ++
    badIf (u8 r.params 1 != 0 && u8 (n.latestPort (2 * i)) 1 != u8 (n.latestPort (2 * i + 1)) 1) 1 ++
    (if u8 (n.latestPair i) 1 = u8 r.params 1 then [] else inUse ((gens.flatMap fun g => portUsers g (2 * i + 1)).head?))
  run := fun r _ s => okWith (s.modNet fun n => { n with pairsNext := mset n.pairsNext (u8 r.params 0) (r.params.take 16) })

/-- KiB that the class limits of a port sum to: those of enabled classes, and of class 63 (R506; log 35). -/
def classSum (n : Net) (p : Nat) (k : Nat) (b : Bytes) : Nat :=
  sum ((span 2 62).map fun j =>
    let c := if j = k then b else n.latestClass p j
    if u8 c 2 = 1 ∨ j = 63 then u16 c 0x18 else 0)

/-- NET.CLASS_SET (R506, R518). -/
def cmdNetClassSet : Cmd where
  code := 0x0E02
  len := len1 32
  block := some 34
  fails := fun r _ s =>
    let p := r.params
    fldFails p [rng 0 1 0 3, rng 1 1 2 63, rng 2 1 0 1, rng 3 1 0 1, rng 4 1 0 63, msk 5 1 0x1F, rng 8 2 0 4094, rsv 0xB 1,
      rng 0x18 2 16 512, rsv 0x1A 6] ++
    badIf (u16 p 6 < 0x0600 && (u16 p 6 != 0 || bit (u8 p 5) 0)) 6 ++ badIf (decide (u16 p 0xE < u16 p 0xC)) 0xE ++
    failIf (decide (752 < classSum s.rt.net (u8 p 0) (u8 p 1) p)) .noResource
  run := fun r _ s => okWith (s.modNet fun n =>
    { n with classesNext := mset n.classesNext (u8 r.params 0 * 64 + u8 r.params 1) (r.params.take 32) })

/-- A port's block with the corrections in force and the link state (R516). -/
def portReport (s : State) (p : Nat) : Bytes :=
  let n := s.rt.net
  let b := n.latestPort p
  let m : Net := { n with ports := mset n.ports p b }
  let b := if mhas n.portsNext p || mhas n.ports p then b else putAt b 4 (s.macBytes p)
  let b := putAt b 0xB (le 1 (b2n (n.isUp p)))
  putAt (putAt b 0xC (leI 4 (m.correction p false))) 0x10 (leI 4 (m.correction p true))

/-- NET.QUERY (R516). -/
def cmdNetQuery : Cmd where
  code := 0x0E03
  len := len1 4
  block := some 34
  fails := fun r _ _ =>
    let p := r.params
    fldFails p [rng 0 1 0 2, rng 1 1 0 (if u8 p 0 = 1 then 1 else 3), rsv 3 1] ++
    badIf (u8 p 0 == 2 && (decide (u8 p 2 < 2) || decide (63 < u8 p 2))) 2
  run := fun r _ s =>
    let i := u8 r.params 1
    match u8 r.params 0 with
    | 0 => okWith s (portReport s i)
    | 1 => okWith s (slice (s.rt.net.latestPair i) 0 32)
    | _ => okWith s (slice (s.rt.net.latestClass i (u8 r.params 2)) 0 32)

/-- NET.TS_READ: time stamps leave the queue oldest first (R519). -/
def cmdNetTsRead : Cmd where
  code := 0x0E04
  len := len1 4
  block := some 34
  fails := fun r _ _ => fldFails r.params [rng 0 1 0 3, rng 1 1 1 32, rsv 2 2]
  run := fun r _ s =>
    let p := u8 r.params 0
    let q := mgetD s.rt.net.tsQueue p []
    let l := q.take (u8 r.params 1)
    let d := block 8 [(0, 1, l.length), (4, 4, Nat.min 4294967295 (mgetD s.rt.net.tsLost p 0))] ++
      l.flatMap fun e => le 2 e.1 ++ zeros 6 ++ timeBytes e.2
    okWith (s.modNet fun n => { n with tsQueue := mset n.tsQueue p (q.drop l.length), tsLost := mset n.tsLost p 0 }) d

/-- A SyncE output is held low while its source port is down, and carries the divided clock while it is up; the loss of the source raises
NET.SYNCE_SQUELCH (R514). -/
def syncePin (loss : Bool) (o : Nat) (s : State) : State :=
  match mget s.rt.net.synce o with
  | none => s
  | some (src, div, _) =>
    if src = 255 then (s.modNet fun n => { n with synce := mset n.synce o (src, div, false) }).setPin (4 + o) false
    else
      let low := !s.rt.net.isUp src
      let s := (s.modNet fun n => { n with synce := mset n.synce o (src, div, low) }).setPin (4 + o) (!low)
      s.postIf (loss && low) 0x0E86 2 o src

/-- NET.SYNCE_SET (R514, R519). -/
def cmdNetSynceSet : Cmd where
  code := 0x0E05
  len := len1 4
  block := some 34
  fails := fun r _ s =>
    let src := u8 r.params 1
    fldFails r.params [rng 0 1 0 1, (1, 1, fun v => v ≤ 3 || v == 255), rng 2 1 1 64, rsv 3 1] ++
    badIf (decide (src ≤ 3) && decide (2 ≤ s.rt.net.mode src) && u8 r.params 2 == 1) 2
  run := fun r _ s =>
    let o := u8 r.params 0
    okWith (syncePin false o (s.modNet fun n => { n with synce := mset n.synce o (u8 r.params 1, u8 r.params 2, false) }))

/-- NET.STATS (R520). -/
def cmdNetStats : Cmd where
  code := 0x0E06
  len := len1 4
  block := some 34
  fails := fun r _ _ => fldFails r.params [rng 0 1 0 3, rng 1 1 0 1, rsv 2 2]
  run := fun r _ s =>
    let m := (span 1 16).map fun i => (u8 r.params 0 * 100 + i, mgetD s.seen.net.stats (u8 r.params 0 * 100 + i) 0)
    let d := m.flatMap fun e => le 4 e.2
    okWith (if u8 r.params 1 = 1 then
      s.clearSeen (fun b rt => { rt with net := { rt.net with
        stats := lessSeen rt.net.stats (b.net.stats.filter fun e => e.1 / 100 == u8 r.params 0) } })
      else s) d

/-- TIME.PTP_SET (R545). -/
def cmdTimePtpSet : Cmd where
  code := 0x0F04
  len := len1 48
  fails := fun r _ s => ptpFails r.params (u8 (s.rt.net.latestPort (u8 r.params 0)) 1 == 0)
  run := fun r _ s => okWith (s.modTime fun b => { b with ptp := mset b.ptp (u8 r.params 0) (r.params.take 48) })

/-- A PTP or ESMC frame reaches firmware: a Sync leaves its receive stamp and a follow-up the time it carries; an Announce that the best
master algorithm selects makes its port the slave port and its grandmaster the parent, and the source returns (R14, R508, R529, R535,
R544, R550). -/
def execPtpMessageReceive (t : Time) (m : PtpMessage) (s : State) : Host.Outcome State Fault Refusal :=
  let s := s.advance t
  let p := m.port.val
  let x := popInbox (0x6001 + 64 * p) s
  let arrived := match x.1 with
    | some f => f.1
    | none => s.now
  let s := x.2
  if u8 (mgetD s.rt.time.ptp p []) 1 = 1 then
    let s := match m.type with
      | 0 =>
        let stamp := shiftTime (arrived / 4096 * 4096) (s.rt.net.correction p false)
        bumpPort p 6 (s.modTime fun b => { b with ptpSync := mset b.ptpSync p stamp })
      | 1 => bumpPort p 7 s
      | 3 =>
        let carried := ptpCarried s.now m.data
        s.modTime fun b => { b with ptpOrigin := mset b.ptpOrigin p carried }
      | _ => s
    if m.type = 1 ∧ m.selected then
      let changed := s.rt.time.grandmaster != m.grandmaster.toNat
      let s := s.modTime fun b =>
        { b with grandmaster := m.grandmaster.toNat, slavePort := some p, utc := m.utc.toNat, leap := m.leap.toNat }
      let s := s.postIf changed 0x0F86 1 p (m.grandmaster.toNat % 4294967296)
      if s.rt.time.phaseSrc = 1 ∧ s.rt.time.phasePresent = false then done (phaseReturn s) else done s
    else done s
  else done s

/-- The clock identity: the EUI-64 of port 0's address (R535). -/
def clockIdentity (s : State) : Bytes :=
  let mac := s.macBytes 0
  slice mac 0 3 ++ [0xFF, 0xFE] ++ slice mac 3 3

/-- The octets of a PTP message that a port sends, with the clock's identity, the port's number and the instant that it carries; an ESMC
message is as it is given (R14, R535; log 190). -/
def ptpOctets (m : PtpMessage) (s : State) : Bytes :=
  if m.type = 4 then m.data
  else slice m.data 0 20 ++ clockIdentity s ++ be 2 (m.port.val + 1) ++ slice m.data 30 4 ++ ptpStamp m.stamp ++ m.data.drop 44

/-- A due PTP or ESMC message goes through the timed queue with the late action send (R535, R540). -/
def execPtpMessageSend (t : Time) (m : PtpMessage) (s : State) : Host.Outcome State Fault Refusal :=
  let s := s.advance t
  let p := m.port.val
  if u8 (mgetD s.rt.time.ptp p []) 1 = 1 ∨ m.type = 4 then
    let data := ptpOctets m s
    done (enqueueTimed p
      { launch := s.now, tolerance := (launchSetting s.rt.time p).1, drop := false
        packet := { kind := 2, data := data, len := data.length } } (bumpPort p 8 s))
  else done s

def execNetPortSet (r : Request) (s : State) : Host.Outcome State Fault Refusal := execCmd cmdNetPortSet r s
def execNetPairSet (r : Request) (s : State) : Host.Outcome State Fault Refusal := execCmd cmdNetPairSet r s
def execNetClassSet (r : Request) (s : State) : Host.Outcome State Fault Refusal := execCmd cmdNetClassSet r s
def execNetQuery (r : Request) (s : State) : Host.Outcome State Fault Refusal := execCmd cmdNetQuery r s
def execNetTsRead (r : Request) (s : State) : Host.Outcome State Fault Refusal := execCmd cmdNetTsRead r s
def execNetSynceSet (r : Request) (s : State) : Host.Outcome State Fault Refusal := execCmd cmdNetSynceSet r s
def execNetStats (r : Request) (s : State) : Host.Outcome State Fault Refusal := execCmd cmdNetStats r s
def execTimePtpSet (r : Request) (s : State) : Host.Outcome State Fault Refusal := execCmd cmdTimePtpSet r s

/-! Links (R503, R514, R529). -/

/-- A port goes down; the cause is 0 block lock, 1 FEC alignment, 2 local fault, 3 remote fault. -/
def linkDown (p cause : Nat) (s : State) : State :=
  if s.rt.net.isUp p then
    let s := (s.modNet fun n => { n with up := mset n.up p false }).post 0x0E81 3 p (cause + 1)
    let s := if cause = 0 then bumpNet p 11 s else s
    let s := [0, 1].foldl (fun s o => if ((mget s.rt.net.synce o).map (·.1)) = some p then syncePin true o s else s) s
    if cause = 0 ∧ s.rt.time.freqSrc = 4 + p ∧ s.rt.time.freqPresent then freqLost s else s
  else s

/-- LINK_LOSS: on local fault the port, down, transmits remote fault (R503). -/
def execLinkLoss (t : Time) (p cause : Fin 4) (s : State) : Host.Outcome State Fault Refusal :=
  let s := linkDown p.val cause.val (s.advance t)
  done (if cause.val = 2 ∧ s.rt.net.mode p.val ≠ 0 then s.emit (.remoteFault p.val) else s)

/-- A port has held block lock, FEC alignment and no fault for 10 ms (R503). -/
def execLinkUpHoldExpiry (t : Time) (p : Fin 4) (s : State) : Host.Outcome State Fault Refusal :=
  let s := s.advance t
  if s.rt.net.mode p.val ≠ 0 ∧ s.rt.net.isUp p.val = false ∧ s.rt.power.state = 0 ∧ s.domainReady 34 ∧ s.boot.inReset.getLsbD 34 = false then
    let s := (s.modNet fun n => { n with up := mset n.up p.val true }).post 0x0E80 1 p.val (s.rt.net.mode p.val)
    done ([0, 1].foldl (fun s o => if ((mget s.rt.net.synce o).map (·.1)) = some p.val then syncePin false o s else s) s)
  else done s

/-- A port's setting comes into force: a change of mode takes the port down and returns its corrections to their defaults
(R503, R508; log 34). -/
def applyPort (p : Nat) (b : Bytes) (s : State) : State :=
  let new := u8 b 1 != s.rt.net.mode p
  let s := if new then linkDown p 0 s else s
  let b := if new then putAt b 0xC (le 4 0x80000000 ++ le 4 0x80000000) else b
  s.modNet fun n => { n with ports := mset n.ports p b }

/-- A pair's setting comes into force: a change of mode starts its redundancy entity afresh (R510 to R513). -/
def applyPair (i : Nat) (b : Bytes) (s : State) : State :=
  let up := s.up
  if u8 b 1 = u8 (s.rt.net.pair i) 1 then s.modNet fun n => { n with pairs := mset n.pairs i b }
  else s.modNet fun n =>
    { n with
      pairs := mset n.pairs i b, nodes := n.nodes.filter fun e => e.pair != i
      lanHeard := mset (mset n.lanHeard (2 * i) up) (2 * i + 1) up, ownHeard := mset n.ownHeard i up
      supAt := mset n.supAt i up, lanFault := n.lanFault.filter fun p => p / 2 != i, ringOpen := n.ringOpen.erase i }

/-- Port, pair and class settings that wait take effect at a tick boundary (R503). -/
def applySettings (s : State) : State :=
  let n := s.rt.net
  let s := n.portsNext.foldl (fun s e => applyPort e.1 e.2 s) s
  let s := n.pairsNext.foldl (fun s e => applyPair e.1 e.2 s) s
  s.modNet fun n => { n with
    classes := n.classesNext.foldl (fun m e => mset m e.1 e.2) n.classes, portsNext := [], pairsNext := [], classesNext := [] }

/-- PORT_SETTING_APPLY (R503). -/
def execPortSettingApply (t : Time) (s : State) : Host.Outcome State Fault Refusal :=
  let s := s.advance t
  done (if s.atBoundary then applySettings s else s)

/-! Redundancy (R511 to R513). -/

/-- A pair's life check interval. -/
def Net.life (n : Net) (i : Nat) : Time := u16 (n.pair i) 4 * tMs

/-- Where supervision frames go (R511). -/
def supervisionAddress : Nat := 0x01154E000100

/-- A supervision frame falls due every life check interval (R511). -/
def execSupervisionFrameSend (t : Time) (i : Fin 2) (s : State) : Host.Outcome State Fault Refusal :=
  let s := s.advance t
  let i := i.val
  let n := s.rt.net
  let mode := n.redundancy (2 * i)
  if mode ≠ 0 ∧ mgetD n.supAt i 0 + n.life i ≤ s.up then
    let up := s.up
    let s := s.modNet fun n => { n with supAt := mset n.supAt i up }
    let d := Config.supervision mode (s.mac (2 * i)) (mgetD n.redSeq i 0)
    done (sendOut { flow := 0xFFFFF, port := 2 * i, dst := be 6 supervisionAddress, ip := 0
                    packet := { kind := 3, data := d, len := d.length } } s)
  else done s

/-- A node without frames for the node forget time leaves the table (R513). -/
def execNodeEntryAgeOut (t : Time) (s : State) : Host.Outcome State Fault Refusal :=
  let s := s.advance t
  let up := s.up
  done (s.modNet fun n => { n with nodes := n.nodes.filter fun e => decide (up < e.last + u16 (n.pair e.pair) 8 * tS) })

/-- A PRP LAN has delivered no frame for 3 life check intervals (R513). -/
def execNetLanFault (t : Time) (p : Fin 4) (s : State) : Host.Outcome State Fault Refusal :=
  let s := s.advance t
  let p := p.val
  let n := s.rt.net
  if n.redundancy p = 1 ∧ n.lanFault.contains p = false ∧ mgetD n.lanHeard p 0 + 3 * n.life (p / 2) ≤ s.up then
    done ((s.modNet fun n => { n with lanFault := p :: n.lanFault }).post 0x0E83 3 p 0)
  else done s

/-- An HSR ring has not returned the device's supervision frames for 3 life check intervals (R513). -/
def execNetRingOpen (t : Time) (i : Fin 2) (s : State) : Host.Outcome State Fault Refusal :=
  let s := s.advance t
  let i := i.val
  let n := s.rt.net
  if n.redundancy (2 * i) = 2 ∧ n.ringOpen.contains i = false ∧ mgetD n.ownHeard i 0 + 3 * n.life i ≤ s.up then
    done ((s.modNet fun n => { n with ringOpen := i :: n.ringOpen }).post 0x0E84 3 i 0)
  else done s

end Sys2Proof.Machine
end

