-- ==== Sys2Proof/Machine/RtcpBase.lean ====
section
/-! DEFINITION. RTCP packets (RFC 3550, RFC 4585, RFC 5104) as R187, R248, R312, R313 and R318 use them. -/

namespace Sys2Proof.Machine

/-- The NTP time of a counter reading, in 1/2³² s: the counter counts TAI seconds of 1970 (log 37). -/
def ntpTime (s : State) : Nat :=
  let b := s.rt.time
  ((b.now / tS + 2208988800 - b.utc) * 4294967296 + b.now % tS * 4294967296 / tS) % 2 ^ 64

/-- Middle 32 bits of an NTP time. -/
def ntpMid (n : Nat) : Nat := n / 65536 % 4294967296

/-- The decimal digits of a number. -/
def decimal : Nat → Nat → Bytes
  | 0, _ => []
  | k + 1, n => (if n < 10 then [] else decimal k (n / 10)) ++ [BitVec.ofNat 8 (48 + n % 10)]

/-- A hexadecimal digit. -/
def hexDigit (d : Nat) : Byte := BitVec.ofNat 8 (if d < 10 then 48 + d else 87 + d)

/-- A number as sixteen hexadecimal digits. -/
def hex16 (n : Nat) : Bytes := (List.range 16).map fun i => hexDigit (n / 16 ^ (15 - i) % 16)

/-- A canonical name (R187, R248): a word, a number in decimal, @, and the device identifier. -/
def cnameOf (word : Bytes) (n : Nat) : Bytes := word ++ decimal 8 n ++ [0x40] ++ hex16 Config.deviceId.toNat

/-- leg, vid. -/
def cnameLeg (n : Nat) : Bytes := cnameOf [0x6C, 0x65, 0x67] n
def cnameVid (n : Nat) : Bytes := cnameOf [0x76, 0x69, 0x64] n

/-- An RTCP packet: count or format, type, and octets in a whole number of words. -/
def rtcp (count type : Nat) (body : Bytes) : Bytes := le 1 (128 + count) ++ le 1 type ++ be 2 (body.length / 4) ++ body

/-- A sender's information: NTP time, RTP timestamp, packets, octets. -/
structure SenderInfo where
  ntp : Nat
  ts : Nat
  packets : Nat
  octets : Nat

/-- The report block of a source, closing its interval (RFC 3550). -/
def reportBlock (ssrc : Nat) (r : RtpRx) (clock : Nat) (up : Time) : Bytes :=
  let lost := r.lost
  let lsr := match r.lastSr with
    | some x => x.1
    | none => 0
  let dlsr := match r.lastSr with
    | some x => (up - x.2) * 65536 / tS
    | none => 0
  be 4 ssrc ++ be 1 (fractionLost r) ++ be 3 (Nat.min lost 0x7FFFFF) ++ be 4 (r.cycles + r.maxSeq) ++
    be 4 (r.jitter * clock / tMs) ++ be 4 lsr ++ be 4 dlsr
where
  /-- The fraction lost since the previous report, in 1/256. -/
  fractionLost (r : RtpRx) : Nat :=
    let expected := (r.cycles + r.maxSeq + 1) - r.baseSeq.getD 0 - r.expectedPrior
    let got := r.received - r.receivedPrior
    if expected = 0 ∨ expected ≤ got then 0 else (expected - got) * 256 / expected

/-- A reception once its interval has been reported. -/
def RtpRx.reported (r : RtpRx) : RtpRx :=
  { r with expectedPrior := (r.cycles + r.maxSeq + 1) - r.baseSeq.getD 0, receivedPrior := r.received }

/-- An SDES packet with a CNAME. -/
def sdes (ssrc : Nat) (cname : Bytes) : Bytes :=
  let item := be 4 ssrc ++ [1] ++ le 1 cname.length ++ cname ++ [0]
  rtcp 1 202 (item ++ zeros ((4 - item.length % 4) % 4))

/-- An SR or RR with the report blocks given. -/
def report (ssrc : Nat) (info : Option SenderInfo) (blocks : List Bytes) : Bytes :=
  match info with
  | some i => rtcp blocks.length 200 (be 4 ssrc ++ be 8 i.ntp ++ be 4 i.ts ++ be 4 i.packets ++ be 4 i.octets ++ blocks.flatten)
  | none => rtcp blocks.length 201 (be 4 ssrc ++ blocks.flatten)

/-- A compound packet: report, SDES, and what follows. -/
def compound (ssrc : Nat) (info : Option SenderInfo) (blocks : List Bytes) (cname more : Bytes) : Bytes :=
  report ssrc info blocks ++ sdes ssrc cname ++ more

/-- BYE, PLI, FIR and TMMBN packets. -/
def byePacket (ssrc : Nat) : Bytes := rtcp 1 203 (be 4 ssrc)
def pliPacket (own media : Nat) : Bytes := rtcp 1 206 (be 4 own ++ be 4 media)
def firPacket (own media seq : Nat) : Bytes := rtcp 4 206 (be 4 own ++ be 4 0 ++ be 4 media ++ be 1 seq ++ zeros 3)

/-- The exponent and mantissa of a bit rate in 17 bits of mantissa, rounded down (RFC 5104). -/
def mxtbr (bps : Nat) : Nat × Nat :=
  let e := ((List.range 64).find? fun k => decide (bps / 2 ^ k < 131072)).getD 63
  (e, bps / 2 ^ e % 131072)

def tmmbnPacket (own owner bps : Nat) : Bytes :=
  let x := mxtbr bps
  rtcp 4 205 (be 4 own ++ be 4 0 ++ be 4 owner ++ be 4 (x.1 * 2 ^ 26 + x.2 * 512))

/-- A packet as RTCP. -/
def rtcpOut (flow : Nat) (data : Bytes) : Packet := { kind := 1, flow := flow, data := data, len := data.length }

/-- The packets of a compound packet: count or format, type, body; nothing past a malformed one. -/
def rtcpParts : Nat → Bytes → List (Nat × Nat × Bytes)
  | 0, _ => []
  | k + 1, b =>
    let n := 4 * beNat (slice b 2 2)
    if b.length < 4 + n ∨ u8 b 0 / 64 ≠ 2 then []
    else (u8 b 0 % 32, u8 b 1, (b.drop 4).take n) :: rtcpParts k (b.drop (4 + n))

end Sys2Proof.Machine
end

