-- ==== Sys2Proof/Machine/FwdBase.lean ====
section
/-! DEFINITION. Sources, ladders, rates, line models and target rungs (R299 to R314). -/

namespace Sys2Proof.Machine

/-! Sources. -/

/-- Whether a stream of a generation is an encode stream (R228). -/
def isEncode (g : Generation) (v : Nat) : Bool :=
  match mget g.vids v with
  | some b => u8 b 2 == 1
  | none => false

/-- The ladder of a source: its rungs as spatial and temporal ids (R304, R305). -/
def ladderOf (g : Generation) (v : Nat) : List (Nat × Nat) :=
  match mget g.relays v with
  | some b => (List.range (u8 b 3)).map fun n => (u8 b (0x40 + 2 * n), u8 b (0x41 + 2 * n))
  | none =>
    match mget g.vids v with
    | some b => (List.range (u8 b 0xD)).flatMap fun s => (List.range (u8 b 0xE)).map fun t => (s, t)
    | none => []

/-- Whether a source carries H.265. -/
def isH265 (g : Generation) (v : Nat) : Bool :=
  match mget g.relays v with
  | some b => u8 b 2 == 1
  | none => decide (5 ≤ u8 (mgetD g.vids v []) 3)

/-- The rung at a place of a ladder. -/
def rungAt (l : List (Nat × Nat)) (k : Nat) : Nat × Nat := l.getD k (0, 0)

/-- Subscriptions of a source, and of a leg. -/
def subsOfSource (g : Generation) (v : Nat) : Map Bytes := g.subs.filter fun e => u16 e.2 4 == v
def subsOfLeg (g : Generation) (leg : Nat) : Map Bytes := g.subs.filter fun e => u16 e.2 2 == leg

/-- The greatest rung a subscription may take (R332). -/
def maxRung (g : Generation) (b : Bytes) : Nat := Nat.min (u8 b 9) ((ladderOf g (u16 b 4)).length - 1)

def modSub (n : Nat) (f : Sub → Sub) (s : State) : State := s.modFwd fun x => { x with subs := mupd x.subs n f }
def modLine (leg : Nat) (f : LineRun → LineRun) (s : State) : State := s.modFwd fun x => { x with lines := mmod x.lines leg {} f }
def modRelay (v : Nat) (f : Relay → Relay) (s : State) : State := s.modFwd fun x => { x with relays := mmod x.relays v {} f }
def Fwd.sub (f : Fwd) (n : Nat) : Sub := mgetD f.subs n {}
def Fwd.line (f : Fwd) (leg : Nat) : LineRun := mgetD f.lines leg {}
def Fwd.relay (f : Fwd) (v : Nat) : Relay := mgetD f.relays v {}

/-- A FWD.SUB_STATS counter by response offset. -/
def bumpSub (n off k : Nat) (s : State) : State := modSub n (fun x => { x with stats := bump x.stats off k }) s

/-! Line models (R307, R313). -/

/-- The capacity of a line model in force, in bit/s. -/
def lineRate (b : Bytes) (l : LineRun) : Nat :=
  match l.tmmbr with
  | some c => Nat.min c (u32 b 4 * 1000)
  | none => u32 b 4 * 1000

/-- What is left of the capacity for subscriptions, in bit/s (R309). -/
def lineAvail (b : Bytes) (l : LineRun) : Nat := lineRate b l - u32 b 8 * 1000

/-- One token-bit in the units that a line's tokens are kept in. -/
def bitUnit : Nat := 65536 * 1000000000

/-- Tokens of a line at an elapsed instant, at most its burst (R307). -/
def lineTokens (b : Bytes) (l : LineRun) (up : Time) : Nat :=
  Nat.min (u16 b 0xE * 1024 * 8 * bitUnit) (l.tokens + lineRate b l * (up - l.at_))

/-- Line length of an RTP packet of some octets (R307). -/
def lineLength (b : Bytes) (n : Nat) : Nat := ((n : Int) + sN b 0xC 2).toNat

/-- Octets in a line queue. -/
def lineQueued (l : LineRun) : Nat := sum (l.queue.map (·.length))

/-- Greatest octets of a line queue: its depth at the capacity. -/
def lineDepth (b : Bytes) (l : LineRun) : Nat := lineRate b l * u16 b 0x10 / 8000

/-! Rates (R308). -/

/-- Packets and octets of a layer in its last 10 complete windows. -/
def layerSum (f : Fwd) (v s t : Nat) : Nat × Nat :=
  let w := ((mgetD f.rates (v * 64 + s * 8 + t) {}).windows.drop 1).take 10
  (sum (w.map (·.1)), sum (w.map (·.2)))

/-- The rate of a rung for a leg's line, in bit/s (R308). -/
def rungRate (f : Fwd) (g : Generation) (v k : Nat) (line : Bytes) : Nat :=
  let r := rungAt (ladderOf g v) k
  let l := (List.range (r.1 + 1)).flatMap fun s => (List.range (r.2 + 1)).map fun t => layerSum f v s t
  let p := sum (l.map (·.1))
  let o := sum (l.map (·.2))
  (((o : Int) + p * sN line 0xC 2) * 8).toNat

/-- A packet of a source's layer is counted in the window in progress. -/
def countRate (v s t n : Nat) (st : State) : State :=
  st.modFwd fun f => { f with rates := mmod f.rates (v * 64 + s * 8 + t) {} fun r =>
    match r.windows with
    | [] => { windows := [(1, n)] }
    | w :: l => { windows := (w.1 + 1, w.2 + n) :: l } }

/-! Key requests (R312). -/

/-- A key-picture request to an encode stream: requests before the IDR is coded merge, keeping the first cause (R251). -/
def encodeKey (v cause : Nat) (s : State) : State :=
  s.modVideo fun x => { x with vids := mupd x.vids v fun r =>
    let merged : Bool := match r.coding with
      | some c => c.idr
      | none => false
    { r with keyCause := if merged then r.keyCause else some (r.keyCause.getD cause), stats := bump r.stats 0x24 } }

/-- A relay's request goes to its sender: a PLI, or an FIR by its flag. -/
def sendRelayKey (v cause : Nat) (b : Bytes) (s : State) : State :=
  let r := s.rt.fwd.relay v
  let media := r.rtp.ssrc.getD 0
  let fir := bit (u8 b 7) 1
  let p := if fir then firPacket r.own media r.firSeq else pliPacket r.own media
  let d := compound r.own none [] (cnameVid v) p
  let up := s.up
  let s := modRelay v (fun r => { r with keyAt := some up, merged := none, firSeq := if fir then (r.firSeq + 1) % 256 else r.firSeq }) s
  let mux := bit (u8 b 7) 3
  let s := sendMedia (u32 b 0x34) true false true
    { flow := 0x80000 + v, port := u8 b 4, ip := u8 b 5, src := slice b 8 16, dst := slice b 0x18 16, vlan := u16 b 0x3C
      sport := u16 b 0x28 + b2n (!mux), dport := u16 b 0x2A + b2n (!mux), packet := rtcpOut (0x80000 + v) d } s
  s.post 0x0983 1 v cause

/-- A key request on a source, for a subscription, of cause 1 WAIT_KEY, 2 key wait or 3 the receiver (R312). -/
def keyRequest (v sub cause : Nat) (s : State) : State :=
  let s := bumpSub sub 0x18 1 s
  let g := s.gens.active
  match mget g.relays v with
  | some b =>
    match (s.rt.fwd.relay v).keyAt with
    | some t =>
      if s.up < t + u16 b 0x3A * tMs then
        modRelay v (fun r => { r with merged := some (r.merged.getD cause) }) s
      else sendRelayKey v cause b s
    | none => sendRelayKey v cause b s
  | none => if isEncode g v then (encodeKey v 4 s).post 0x0983 1 v cause else s

/-- A subscription enters WAIT_KEY and makes a key request (R302). -/
def toWaitKey (n : Nat) (b : Bytes) (s : State) : State :=
  let up := s.up
  keyRequest (u16 b 4) n 1 (modSub n (fun x => { x with state := .waitKey, lower := none, pausing := false, waiting := some up }) s)

/-! Targets (R309 to R311). -/

/-- A subscription in a computation of targets: number, block, runtime, rung picked. -/
structure Pick where
  n : Nat
  b : Bytes
  x : Sub
  k : Nat

/-- Cost of a rung in 1/100 bit/s: with the margin above the current rung (R309, R310). -/
def rungCost (f : Fwd) (g : Generation) (line : Bytes) (p : Pick) (k : Nat) : Nat :=
  rungRate f g (u16 p.b 4) k line * (100 + if p.x.rung < k then u8 line 0x12 else 0)

/-- Sum of the costs of the rungs picked. -/
def costSum (f : Fwd) (g : Generation) (line : Bytes) (l : List Pick) : Nat := sum (l.map fun p => rungCost f g line p p.k)

/-- Pausable subscriptions, the first to be paused first: lowest priority, then highest number (R311). -/
def pauseOrder (l : List Pick) : List Nat :=
  (([7, 6, 5, 4, 3, 2, 1, 0] : List Nat).flatMap fun q =>
    (l.filter fun p => u8 p.b 6 == q && bit (u8 p.b 7) 0).reverse).map (·.n)

/-- Subscriptions paused until the rest fit. -/
def pauseWhile (f : Fwd) (g : Generation) (line : Bytes) (avail : Nat) : List Nat → List Pick → List Pick
  | [], l => l
  | n :: order, l => if costSum f g line l ≤ avail * 100 then l else pauseWhile f g line avail order (l.filter (·.n != n))

/-- One pass over the subscriptions of a priority, lowest number first: each rises a rung where the sum still fits. -/
def raisePass (f : Fwd) (g : Generation) (line : Bytes) (avail q : Nat) (l : List Pick) : List Pick :=
  l.foldl (fun acc p =>
    if u8 p.b 6 = q ∧ p.k + 1 ≤ maxRung g p.b ∧
        costSum f g line acc + rungCost f g line p (p.k + 1) ≤ avail * 100 + rungCost f g line p p.k then
      acc.map fun o => if o.n = p.n then { o with k := o.k + 1 } else o
    else acc) l

/-- Passes of a priority until none rises. -/
def raiseAll (f : Fwd) (g : Generation) (line : Bytes) (avail q : Nat) : Nat → List Pick → List Pick
  | 0, l => l
  | n + 1, l =>
    let m := raisePass f g line avail q l
    if m.map (·.k) = l.map (·.k) then l else raiseAll f g line avail q n m

/-- A subscription takes a new target: below its rung it falls from the next access unit, above it a rise is pending (R302, R309). -/
def setTarget (n k : Nat) (s : State) : State :=
  let up := s.up
  modSub n (fun x =>
    { x with
      target := k
      lower := if k < x.rung then some k else none
      waiting := if x.state = .forwarding then
          if x.rung < k then if x.target = k then some (x.waiting.getD up) else some up else none
        else x.waiting }) s

/-- A subscription is paused, or leaves its pause (R311). -/
def setPause (leg n : Nat) (b : Bytes) (pause : Bool) (s : State) : State :=
  let x := s.rt.fwd.sub n
  let was := x.pausing || x.state = .paused
  let up := s.up
  if pause ∧ !was then (modSub n (fun x => { x with pausing := true, pausedAt := up }) s).post 0x0980 2 n leg
  else if !pause ∧ was then
    let s := s.post 0x0981 1 n ((up - x.pausedAt) / tMs)
    if x.state = .paused then toWaitKey n b s else modSub n (fun x => { x with pausing := false }) s
  else s

/-- FWD.OVER_LINE at most once per second per leg (R311). -/
def overLine (leg : Nat) (cost100 : Nat) (s : State) : State :=
  let up := s.up
  let due := match (s.rt.fwd.line leg).overAt with
    | some t => decide (t + tS ≤ up)
    | none => true
  if due then (modLine leg (fun l => { l with overAt := some up }) s).post 0x0984 2 leg (cost100 / 100000) else s

/-- The target rungs of a leg's subscriptions are computed (R309). -/
def retarget (leg : Nat) (s : State) : State :=
  let g := s.gens.active
  match mget g.lines leg with
  | none => s
  | some line =>
    let f := s.rt.fwd
    let avail := lineAvail line (f.line leg)
    let all : List Pick := ((subsOfLeg g leg).filter fun e => (f.sub e.1).state != .sourceLost).map fun e =>
      { n := e.1, b := e.2, x := f.sub e.1, k := u8 e.2 8 }
    let kept := pauseWhile f g line avail (pauseOrder all) all
    let s := all.foldl (fun s p => setPause leg p.n p.b (!(kept.any fun q => q.n == p.n)) s) s
    let least := costSum f g line kept
    let s := if avail * 100 < least then overLine leg least s else s
    let done := (List.range 8).foldl (fun l q => raiseAll f g line avail q (25 * kept.length) l) kept
    done.foldl (fun s p => setTarget p.n p.k s) s

/-- A fast drop: the subscription of lowest priority and highest number above its minimum rung falls one rung (R314). -/
def fastDrop (leg : Nat) (s : State) : State :=
  let g := s.gens.active
  let f := s.rt.fwd
  let up := s.up
  let due := match (f.line leg).fastAt with
    | some t => decide (t + 10 * tMs ≤ up)
    | none => true
  if !due then s
  else
    let above := ((subsOfLeg g leg).filter fun e =>
      (f.sub e.1).state == .forwarding && decide (u8 e.2 8 < (f.sub e.1).lower.getD (f.sub e.1).rung))
    match (([7, 6, 5, 4, 3, 2, 1, 0] : List Nat).flatMap fun q => (above.filter fun e => u8 e.2 6 == q).reverse).head? with
    | none => s
    | some e =>
      let x := f.sub e.1
      setTarget e.1 (x.lower.getD x.rung - 1) (modLine leg (fun l => { l with fastAt := some up }) s)

end Sys2Proof.Machine
end

