-- ==== Sys2Proof/Machine/FwdSub.lean ====
section
/-! DEFINITION. Policers, and how a source's packet is selected, rewritten, shaped and queued for each subscription
(R302 to R307, R315 to R327). -/

namespace Sys2Proof.Machine

/-! Policers (R320, R321). -/

/-- Tokens added for a number of intervals at a rate in kbit/s, with the remainder carried: 2⁻²⁴ byte and 1/8,000 of that. -/
def policerAdd (kbps n r : Nat) : Nat × Nat := ((n * kbps * 16777216 + r) / 8000, (n * kbps * 16777216 + r) % 8000)

/-- Full buckets of a policer. -/
def fullBuckets (b : Bytes) (now : Time) : Buckets := { c := u32 b 0xC * 16777216, e := u32 b 0x14 * 16777216, at_ := now / tUs }

/-- Buckets brought to the interval of a time (R320); a single-rate excess bucket takes what the committed one cannot hold. -/
def refill (b : Bytes) (now : Time) (x : Buckets) : Buckets :=
  let n := now / tUs - x.at_
  let c := policerAdd (u32 b 8) n x.rc
  let capC := u32 b 0xC * 16777216
  let capE := u32 b 0x14 * 16777216
  if u8 b 4 = 1 then
    let p := policerAdd (u32 b 0x10) n x.re
    { c := Nat.min capC (x.c + c.1), rc := c.2, e := Nat.min capE (x.e + p.1), re := p.2, at_ := now / tUs }
  else { x with c := Nat.min capC (x.c + c.1), rc := c.2, e := Nat.min capE (x.e + (x.c + c.1 - capC)), at_ := now / tUs }

/-- The colour of a frame of n octets, 0 green, 1 yellow, 2 red, and the buckets after it (RFC 2697, RFC 2698). -/
def policerColour (b : Bytes) (pre n : Nat) (x : Buckets) : Nat × Buckets :=
  let l := n * 16777216
  let pre := if u8 b 5 = 1 then pre else 0
  if u8 b 4 = 1 then
    if pre = 2 ∨ x.e < l then (2, x)
    else if pre = 1 ∨ x.c < l then (1, { x with e := x.e - l })
    else (0, { x with c := x.c - l, e := x.e - l })
  else if pre = 0 ∧ l ≤ x.c then (0, { x with c := x.c - l })
  else if pre ≤ 1 ∧ l ≤ x.e then (1, { x with e := x.e - l })
  else (2, x)

/-- A frame passes a policer, if there is one: the frame with its DSCP, none where it is dropped (R319 to R321). -/
def police (key port : Nat) (f : Frame) (s : State) : Option Frame × State :=
  match mget s.gens.active.policers key with
  | none => (some f, s)
  | some b =>
    let x := refill b s.now (mgetD s.rt.fwd.policers key (fullBuckets b s.now))
    let pre := if f.ip.val = 0 then 0 else u8 s.gens.active.colourMap f.dscp.toNat
    let r := policerColour b pre f.len x
    let s := s.modFwd fun w => { w with policers := mset w.policers key r.2 }
    let s := if r.1 = 1 then bumpFwd port 0x28 s else s
    let act := if r.1 = 0 then 0 else u8 b (5 + r.1)
    if act = 2 then (none, if r.1 = 2 then bumpFwd port 0x14 s else s)
    else if act = 1 ∧ f.ip.val ≠ 0 then (some { f with dscp := BitVec.ofNat 6 (u8 b (0x17 + r.1)) }, s)
    else (some f, s)

/-! Ports. -/

/-- Whether a port transmits nothing. -/
def portFree (s : State) (port : Nat) : Bool := decide ((mgetD s.rt.fwd.ports port {}).busy ≤ s.up)

/-- Whether a port is idle and holds no frame (R325). -/
def portIdle (s : State) (port : Nat) : Bool :=
  s.rt.net.isUp port && portFree s port && wfqCount s port == 0 && (mgetD s.rt.time.queues port []).isEmpty

/-- A port is in transmission for the time of a frame. -/
def occupy (port len : Nat) (s : State) : State :=
  let e := s.up + wireTime s port len
  s.modFwd fun f => { f with ports := mmod f.ports port {} fun x => { x with busy := e } }

/-- A frame's transmission starts (R323, R509). -/
def startFrame (port : Nat) (o : Outbound) (s : State) : State :=
  occupy port (frameLen o) (transmitted port o.tsTag (s.emit (.frame port s.now o.packet)))

/-! Selection (R303). -/

/-- A packet of a source on its way to the subscriptions: source, RTP packet, its NAL units, and what decides cut-through. -/
structure Copied where
  v : Nat
  rtp : RtpIn
  /-- The whole RTP packet. -/
  data : Bytes
  h265 : Bool
  nals : List Nal
  tag : Option Tag := none
  /-- Ethernet port that it arrives on, where it can leave cut-through. -/
  from_ : Option Nat := none
  good : Bool := true
  sum0 : Bool := false
  ip : Nat := 4

/-- Whether a rung sends a NAL unit. -/
def selects (h265 : Bool) (r : Nat × Nat) (n : Nal) : Bool :=
  if h265 && n.layer != 0 then false else n.param || (decide (n.s ≤ r.1) && decide (n.t ≤ r.2))

/-- Whether Campion's tag, or some NAL unit, puts a packet in a rung; and the units sent. -/
def selected (p : Copied) (r : Nat × Nat) : Option (List Nal) :=
  match p.tag with
  | some t => if t.s ≤ r.1 ∧ t.t ≤ r.2 then some p.nals else none
  | none =>
    let l := p.nals.filter (selects p.h265 r)
    if l.isEmpty then none else some l

/-- Layer of a packet in the rates: that of its first NAL unit. -/
def copiedLayer (p : Copied) : Nat × Nat :=
  match p.tag, p.nals with
  | some t, _ => (t.s, t.t)
  | none, n :: _ => (n.s, n.t)
  | none, [] => (0, 0)

/-- The temporal id of a picture in the packet, and whether a rise to it may start there (R306). -/
def temporalPoint (g : Generation) (p : Copied) : Option Nat :=
  match p.tag with
  | some t => some t.t
  | none =>
    let nested := bit (u8 (mgetD g.relays p.v []) 7) 0
    (p.nals.find? fun n => n.vcl && n.layer == 0 && (nested || n.tsa)).map (·.t)

/-- Spatial layers that the packet shows to be random-access points, one bit each. -/
def rapBits (p : Copied) : Nat :=
  match p.tag with
  | some t => if t.rap then 2 ^ t.s else 0
  | none => p.nals.foldl (fun m n => if n.rap && n.layer == 0 && n.s < 8 then m ||| 2 ^ n.s else m) 0

/-- Whether layers a to b are all in a set of bits. -/
def layersIn (m a b : Nat) : Bool := (List.range (b + 1)).all fun i => i < a || bit m i

/-- The highest rung at or below a target whose layers are all random-access points (R302). -/
def keyRung (l : List (Nat × Nat)) (target m : Nat) : Option Nat :=
  ((List.range (target + 1)).reverse).find? fun k => k < l.length && layersIn m 0 (rungAt l k).1

/-- The rung that a switching point lets a subscription rise to, above its current rung (R306). -/
def riseTo (g : Generation) (p : Copied) (l : List (Nat × Nat)) (x : Sub) : Option Nat :=
  let c := rungAt l x.rung
  let w := rungAt l x.target
  if x.target ≤ x.rung then none
  else if layersIn x.auRap 0 w.1 then some x.target
  else if !layersIn x.auRap (c.1 + 1) w.1 then none
  else if w.2 ≤ c.2 then some x.target
  else match temporalPoint g p with
    | none => none
    | some t =>
      if t ≤ c.2 ∨ w.2 < t then none
      else ((List.range (x.target + 1)).reverse).find? fun k =>
        decide (x.rung < k) && (rungAt l k).1 == w.1 && decide ((rungAt l k).2 ≤ t)

/-- FWD.LAYER_CHANGE, where the subscription asks for it (R332, R339). -/
def layerChange (n : Nat) (b : Bytes) (old new : Nat) (s : State) : State :=
  let s := bumpSub n (if old < new then 0x3C else 0x3E) 1 s
  s.postIf (bit (u8 b 7) 3) 0x0982 0 n (old * 256 + new)

/-- An access unit starts: a pause or a fall takes effect (R302). -/
def startUnit (n : Nat) (b : Bytes) (ts : Nat) (s : State) : State :=
  let x := s.rt.fwd.sub n
  if x.auTs = some ts then s
  else
    let s := modSub n (fun x => { x with auTs := some ts, auKey := false, auRap := 0 }) s
    if x.pausing then modSub n (fun x => { x with state := .paused, pausing := false, waiting := none }) s
    else match x.lower, x.state with
      | some k, .forwarding => layerChange n b x.rung k (modSub n (fun x => { x with rung := k, lower := none }) s)
      | _, _ => s

/-- A packet of the access unit moves the subscription's state and rung (R302, R306). -/
def unitPacket (n : Nat) (b : Bytes) (p : Copied) (s : State) : State :=
  let g := s.gens.active
  let l := ladderOf g p.v
  let up := s.up
  let s := modSub n (fun x => { x with auRap := x.auRap ||| rapBits p }) s
  let x := s.rt.fwd.sub n
  match x.state with
  | .waitKey =>
    match keyRung l x.target x.auRap with
    | some k => modSub n (fun x => { x with
        state := .forwarding, rung := k, auKey := true, waiting := if k < x.target then some up else none }) s
    | none => s
  | .forwarding =>
    if x.auKey then
      match keyRung l x.target x.auRap with
      | some k => modSub n (fun x => { x with rung := k, waiting := if k < x.target then x.waiting else none }) s
      | none => s
    else match riseTo g p l x with
      | some k =>
        layerChange n b x.rung k (modSub n (fun x => { x with rung := k, waiting := if k < x.target then x.waiting else none }) s)
      | none => s
  | _ => s

/-! Sequence numbers (R316). -/

/-- Distance of a sequence number ahead of another. -/
def seqAhead (a b : Nat) : Nat := (a + 65536 - b) % 65536

/-- Whether a packet arrives after a higher or equal sequence number. -/
def Sub.behind (x : Sub) (seq : Nat) : Bool :=
  match x.high with
  | some h => let d := seqAhead seq h; d == 0 || decide (32768 ≤ d)
  | none => false

/-- A packet ahead of all before it opens the gaps it leaves, with the count at which they form. -/
def Sub.reach (seq : Nat) (x : Sub) : Sub :=
  match x.high with
  | none => { x with high := some seq }
  | some h =>
    let n := seqAhead seq h - 1
    let new := (List.range (Nat.min n 256)).map fun i => ((seq + 65536 - Nat.min n 256 + i) % 65536, x.d)
    { x with high := some seq, gaps := (x.gaps ++ new).filter fun e => decide (seqAhead seq e.1 ≤ 256) }

/-- The output sequence number: the base is set by the first packet forwarded where a key slot numbers it. -/
def outSeq (n : Nat) (b : Bytes) (seq : Nat) (s : State) : Nat × State :=
  let x := s.rt.fwd.sub n
  let base := match x.base with
    | some v => v
    | none =>
      let i := match s.rt.sec.usable (u32 b 0x38) 1 with
        | some k => k.index
        | none => 0
      (i + 65536 + x.d - seq) % 65536
  ((seq + base + 65536 * (x.d / 65536 + 1) - x.d) % 65536, modSub n (fun x => { x with base := some base }) s)

/-! The copy (R315, R317). -/

/-- Octets of an RTP header with its CSRC list and extension. -/
def rtpHeader (d : Bytes) : Nat :=
  let o := 12 + 4 * (u8 d 0 % 16)
  if bit (u8 d 0) 4 then o + 4 + 4 * beNat (slice d (o + 2) 2) else o

/-- The packet as a subscription sends it. -/
def rewrite (n : Nat) (b : Bytes) (p : Copied) (keep : List Nal) (marker : Bool) (seq : Nat) (x : Sub) : Packet :=
  let h := p.data.take (rtpHeader p.data)
  let whole := keep.length == p.nals.length
  let body := if whole then p.data.drop h.length else packNals p.h265 keep
  let h := if whole then h else putAt h 0 [BitVec.ofNat 8 (u8 h 0 / 64 * 64 + u8 h 0 % 32)]
  let ts := (p.rtp.ts + x.tsOffset) % 4294967296
  let h := putAt h 1 (le 1 (b2n marker * 128 + u8 b 0xE) ++ be 2 seq ++ be 4 ts ++ be 4 (u32 b 0x34))
  { kind := 0, flow := 0x90000 + n, pt := u8 b 0xE, marker := marker, seq := seq, ts := ts, ssrc := u32 b 0x34
    data := h ++ body, len := h.length + body.length }

/-- The marker bit of a copy: the sender's for a relay, the end of the top forwarded layer for an encode stream. -/
def copyMarker (p : Copied) (r : Nat × Nat) : Bool :=
  match p.tag with
  | some t => t.ends && t.s == r.1
  | none => p.rtp.marker

/-- A copy by its subscription's binding (R315). -/
def copyOut (n : Nat) (b : Bytes) (p : Copied) (q : Packet) : Outbound :=
  { flow := 0x90000 + n, port := u8 b 0xB, queue := u8 b 0xA, dscp := u8 b 0xD, vlan := u16 b 0x40, src := slice b 0x10 16
    dst := slice b 0x20 16, sport := u16 b 0x30, dport := u16 b 0x32, ip := u8 b 0xC, hop := u8 b 0xF, packet := q
    sum0 := p.sum0 && p.tag.isNone && p.ip == 4 && u8 b 0xC == 4 }

/-- A copy past its shaper leaves (R325, R326): at once where it is cut through, otherwise through security or the queue. -/
def leave (slot : Nat) (cut : Bool) (o : Outbound) (s : State) : State :=
  let s := bumpFwd o.port (if cut then 0 else 8) s
  if cut ∧ slot = 0xFFFFFFFF then startFrame o.port o s else sendMedia slot false true true o s

/-- A copy meets its leg's shaper and line queue; behaviour level 2 has no fast drop (R307, R314, R663). -/
def shape (n leg slot : Nat) (cut : Bool) (o : Outbound) (s : State) : State :=
  let line := mgetD s.gens.active.lines leg []
  let l := s.rt.fwd.line leg
  let len := lineLength line o.packet.len
  let up := s.up
  let tok := lineTokens line l up
  if l.queue.isEmpty ∧ len * 8 * bitUnit ≤ tok then
    leave slot cut o (modLine leg (fun l => { l with tokens := tok - len * 8 * bitUnit, at_ := up }) s)
  else if lineDepth line l < lineQueued l + len then
    bumpSub n 0x10 1 (modLine leg (fun l => { l with tokens := tok, at_ := up, discards := l.discards + 1 }) s)
  else
    let s := modLine leg (fun l => { l with
      tokens := tok, at_ := up
      queue := l.queue ++ [{ sub := n, length := len, out := o, slot := if slot = 0xFFFFFFFF then none else some slot }] }) s
    if lineDepth line l ≤ 2 * (lineQueued l + len) ∧ s.level ≠ 2 then fastDrop leg s else s

/-- Whether a copy leaves cut-through (R325). -/
def cutThrough (s : State) (b : Bytes) (p : Copied) (len : Nat) : Bool :=
  match p.from_ with
  | none => false
  | some q =>
    let line := mgetD s.gens.active.lines (u16 b 2) []
    let l := s.rt.fwd.line (u16 b 2)
    l.queue.isEmpty && decide (lineLength line len * 8 * bitUnit ≤ lineTokens line l s.up) && portIdle s (u8 b 0xB) &&
      decide (s.rt.net.mbps (u8 b 0xB) ≤ s.rt.net.mbps q) && !(p.sum0 && p.ip == 4 && u8 b 0xC == 6)

/-- A packet that its subscription does not send, for layer selection. -/
def skipPacket (n : Nat) (count : Bool) (s : State) : State :=
  let s := if count then bumpSub n 0xC 1 s else s
  modSub n (fun x => { x with d := x.d + 1 }) s

/-- A selected packet is rewritten and sent; one with a failed FCS is stomped where it leaves cut-through (R315 to R317, R327). -/
def sendCopy (n : Nat) (b : Bytes) (p : Copied) (keep : List Nal) (s : State) : State :=
  let r := rungAt (ladderOf s.gens.active p.v) (s.rt.fwd.sub n).rung
  let q := outSeq n b p.rtp.seq s
  let s := q.2
  let pkt := rewrite n b p keep (copyMarker p r) q.1 (s.rt.fwd.sub n)
  let cut := cutThrough s b p pkt.len
  let s := modSub n (fun x => { x with sentSince := true, sent := (x.sent.1 + 1, x.sent.2 + (pkt.len - 12)) }) (bumpSub n 4 pkt.len (bumpSub n 0 1 s))
  let o := copyOut n b p pkt
  if p.good then shape n (u16 b 2) (u32 b 0x38) cut o s
  else occupy o.port (frameLen o) (bumpFwd o.port 0x20 (s.emit (.stomp o.port)))

/-- A packet reaches a subscription of its source (R302, R303, R316). -/
def subPacket (n : Nat) (b : Bytes) (p : Copied) (s : State) : State :=
  let x := s.rt.fwd.sub n
  let seq := p.rtp.seq
  let l := ladderOf s.gens.active p.v
  if !p.good && !cutThrough s b p p.data.length then s
  else if x.behind seq then
    if x.state ≠ .forwarding then s
    else match x.gaps.find? fun e => e.1 == seq, selected p (rungAt l x.rung) with
      | some e, some keep =>
        if e.2 = x.d then sendCopy n b p keep (modSub n (fun x => { x with gaps := x.gaps.filter fun e => e.1 != seq }) s)
        else bumpSub n 0x14 1 s
      | _, none => bumpSub n 0xC 1 s
      | none, some _ => bumpSub n 0x14 1 s
  else
    let s := unitPacket n b p (startUnit n b p.rtp.ts (modSub n (Sub.reach seq) s))
    let x := s.rt.fwd.sub n
    if x.state = .forwarding then
      match selected p (rungAt l x.rung) with
      | some keep => sendCopy n b p keep s
      | none => skipPacket n true s
    else skipPacket n false s

/-- A packet of a source is counted in its layer and copied to each subscription, lowest number first (R303, R308). -/
def copyPacket (p : Copied) (s : State) : State :=
  let y := copiedLayer p
  let s := if p.good then countRate p.v y.1 y.2 p.data.length s else s
  (subsOfSource s.gens.active p.v).foldl (fun s e => subPacket e.1 e.2 p s) s

/-! Relays (R300, R302). -/

/-- NAL units of a relay's packet with the layers of fragments and of base-layer units that a prefix unit names. -/
def relayNals (l : List Nal) (r : Relay) : List Nal × Relay :=
  l.foldl (fun (acc : List Nal × Relay) n =>
    let r := acc.2
    if 2 ≤ n.frag then (acc.1 ++ [{ n with s := r.frag.1, t := r.frag.2, rap := n.rap && n.type == 5 }], r)
    else
      let n := if n.type = 1 ∨ n.type = 5 then { n with t := r.prefix_.getD n.t } else n
      let r := { r with prefix_ := if n.type = 14 then some n.t else none }
      (acc.1 ++ [n], if n.frag = 1 then { r with frag := (n.s, n.t) } else r)) ([], r)

/-- NAL units of an H.265 relay's packet, whose fragments name their own layer. -/
def relayUnits (h265 : Bool) (l : List Nal) (r : Relay) : List Nal × Relay := if h265 then (l, r) else relayNals l r

/-- Every subscription of a source enters WAIT_KEY. -/
def subsToWaitKey (v : Nat) (only : SubState → Bool) (s : State) : State :=
  (subsOfSource s.gens.active v).foldl (fun s e => if only (s.rt.fwd.sub e.1).state then toWaitKey e.1 e.2 s else s) s

/-- A valid packet of a relay: a new source, or the end of a time-out, returns subscriptions to WAIT_KEY, and reception is counted (R300,
R302). -/
def relayValid (v : Nat) (p : RtpIn) (changed : Bool) (arrived : Time) (s : State) : State :=
  let s := if changed then subsToWaitKey v (fun _ => true) (s.post 0x0987 1 v p.ssrc) else s
  let r := s.rt.fwd.relay v
  let up := s.up
  let s := if r.lost then
      subsToWaitKey v (· == .sourceLost) ((modRelay v (fun r => { r with lost := false }) s).post 0x0986 1 v ((up - r.rtp.lastValid) / tMs))
    else s
  let transit : Int := (arrived : Int) - (p.ts : Int) * tMs / 90
  modRelay v (fun r => { r with rtp := { r.rtp.count p.seq transit with lastValid := up } }) s

/-- A packet of a relay, plain or once its tag has verified, is checked as R166 and R167 check a leg's, and copied (R300). -/
def relayPacket (v : Nat) (arrived : Time) (cutFrom : Option Nat) (f : Frame) (s : State) : State :=
  match mget s.gens.active.relays v with
  | none => s
  | some b =>
    let p := parseRtp f.data
    let h265 := u8 b 2 == 1
    let strict := bit (u8 b 7) 2 && !(f.src == slice b 0x18 16 && f.sport.toNat == u16 b 0x2A)
    let discard := fun (s : State) => if f.fcsOk then modRelay v (fun r => { r with discards := r.discards + 1 }) s else s
    if strict ∨ p.version ≠ 2 ∨ p.pt ≠ u8 b 6 then discard s
    else
      let a := (s.rt.fwd.relay v).rtp.accept (u32 b 0x2C) p.ssrc
      let s := if f.fcsOk then modRelay v (fun r => { r with rtp := a.2.2 }) s else s
      if !a.1 then discard s
      else
        let s := if f.fcsOk then relayValid v p a.2.1 arrived s else s
        match nalsOf h265 true p.payload with
        | none => discard s
        | some nals =>
          let u := relayUnits h265 nals (s.rt.fwd.relay v)
          let s := if f.fcsOk then modRelay v (fun r => { r with frag := u.2.frag, prefix_ := u.2.prefix_ }) s else s
          copyPacket { v := v, rtp := p, data := f.data, h265 := h265, nals := u.1, from_ := cutFrom, good := f.fcsOk
                       sum0 := f.sum0, ip := f.ip.val } s

end Sys2Proof.Machine
end

