-- ==== Sys2Proof/Machine/FwdRun.lean ====
section
/-! DEFINITION. Reception and transmission of frames, and Sorrel's rows (R302, R309 to R314, R319 to R329, R505 to R513, R538, R539). -/

namespace Sys2Proof.Machine

/-! Classification (R505). -/

/-- What takes a frame. -/
inductive Consumer where
  | leg (n : Nat) (rtcp : Bool)
  | vid (v : Nat) (rtcp : Bool)
  | relay (v : Nat) (rtcp : Bool)
  | sub (n : Nat)
  | ptp
  | cls (k : Nat)
  deriving DecidableEq, Repr

/-- Whether a local binding is a frame's destination: 0 no, 1 its media port, 2 its RTCP port. -/
def meets (port : Nat) (f : Frame) (l : Local) (mux : Bool) : Nat :=
  if l.1 == port && l.2.1 == f.ip.val && slice f.dst 0 16 == l.2.2.1 then
    if f.dport.toNat = l.2.2.2 then if mux && isRtcp f.data then 2 else 1
    else if f.dport.toNat = l.2.2.2 + 1 ∧ !mux then 2 else 0
  else 0

/-- The object of the active generation that holds a UDP frame's destination (R301, R505). -/
def mediaConsumer (g : Generation) (port : Nat) (f : Frame) : Option Consumer :=
  if f.ip.val = 0 ∨ f.proto ≠ 17 then none
  else
    let find := fun (m : Map Bytes) (at_ : Bytes → Nat) (k : Nat → Bool → Consumer) =>
      (m.find? fun e => at_ e.2 != 0).map fun e => k e.1 (at_ e.2 == 2)
    let legs := find (rtpLegs g) (fun b => meets port f (legLocal b) (bit (u8 b 5) 4)) .leg
    let vids := find g.vids (fun b => meets port f (vidLocal b) (bit (u8 b 0x67) 0)) .vid
    let relays := find g.relays (fun b => meets port f (relayLocal b) (bit (u8 b 7) 3)) .relay
    let subs := (g.subs.find? fun e =>
      let mux := bit (u8 e.2 7) 2
      meets port f (subLocal e.2) mux != 0 && slice e.2 0x20 16 == slice f.src 0 16 &&
        f.sport.toNat == u16 e.2 0x32 + (if meets port f (subLocal e.2) mux = 2 ∧ !mux then 1 else 0)).map fun e => Consumer.sub e.1
    ([legs, vids, relays, subs] : List (Option Consumer)).findSome? id

/-- Whether a frame is PTP or ESMC (R505). -/
def isTiming (f : Frame) : Bool :=
  f.etherType == 0x88F7 || (f.ip.val != 0 && f.proto == 17 && (f.dport == 319 || f.dport == 320)) ||
    (f.etherType == 0x8809 && u8 f.data 0 == 0x0A)

/-- Whether an enabled class's every selected match holds (R518). -/
def classMatches (b : Bytes) (f : Frame) : Bool :=
  let m := u8 b 5
  let ip := f.ip.val != 0
  u8 b 2 == 1 && (!bit m 0 || f.etherType.toNat == u16 b 6) && (!bit m 1 || f.vlan.toNat == u16 b 8) &&
    (!bit m 2 || (ip && f.proto.toNat == u8 b 0xA)) &&
    (!bit m 3 || (ip && (f.proto == 17 || f.proto == 6) && decide (u16 b 0xC ≤ f.dport.toNat) && decide (f.dport.toNat ≤ u16 b 0xE))) &&
    (!bit m 4 || (ip && bit (u64 b 0x10) f.dscp.toNat))

/-- The consumer of a frame, by the first row of R505 that matches; port is the one that names the pair. -/
def classify (s : State) (port : Nat) (f : Frame) : Consumer :=
  match mediaConsumer s.gens.active port f with
  | some c => c
  | none =>
    if isTiming f then .ptp
    else .cls (((span 2 61).find? fun k => classMatches (s.rt.net.classAt port k) f).getD 63)

/-- The receive class of a consumer. -/
def Consumer.cls? : Consumer → Nat
  | .ptp => 1
  | .cls k => k
  | _ => 0

/-- The flow number whose inbox holds an object's packets. -/
def Consumer.flow : Consumer → Nat
  | .leg n r => n + if r then 0x100000 else 0
  | .vid v r => 0x3000 + v + if r then 0x100000 else 0
  | .relay v r => 0x80000 + v + if r then 0x100000 else 0
  | .sub n => 0x190000 + n
  | .ptp => 0x6001
  | .cls k => 0x6000 + k

/-- Whether an inbox of the media objects belongs to a port. -/
def inboxPort (g : Generation) (key : Nat) : Option Nat :=
  let k := if 0x100000 ≤ key then key - 0x100000 else key
  if k < 0x2000 then (mget g.legs k).map fun b => u8 b 0x20
  else if 0x3000 ≤ k ∧ k < 0x4000 then (mget g.vids (k - 0x3000)).map fun b => u8 b 0x30
  else if 0x80000 ≤ k ∧ k < 0x90000 then (mget g.relays (k - 0x80000)).map fun b => u8 b 4
  else if 0x90000 ≤ k ∧ k < 0xA0000 then (mget g.subs (k - 0x90000)).map fun b => u8 b 0xB
  else none

/-- Octets of the frames that wait in a class of a port (R506). -/
def classUse (s : State) (port k : Nat) : Nat :=
  let l := s.rt.net.inbox.filter fun e =>
    if k = 0 then inboxPort s.gens.active e.1 == some port else e.1 == 0x6000 + 64 * port + k
  sum (l.map fun e => sum (e.2.map fun f => f.2.len))

/-- The bound of a class in octets (R506). -/
def classBound (s : State) (port k : Nat) : Nat :=
  1024 * (if k = 0 then 256 else if k = 1 then 16 else u16 (s.rt.net.classAt port k) 0x18)

/-- A received packet goes to its object, through security where it names a key slot (R300, R319). -/
def deliverMedia (port : Nat) (c : Consumer) (f : Frame) (s : State) : State :=
  let g := s.gens.active
  let put := fun (slot : Nat) (rtcp : Bool) (forwarding : Bool) (s : State) =>
    if slot = 0xFFFFFFFF then pushInbox c.flow s.now f s
    else s.modSec fun x => { x with waiting := mmod x.waiting (b2n forwarding) [] (· ++ [.receive slot rtcp c.flow s.now f]) }
  match c with
  | .leg n r => put (u32 (mgetD g.legs n []) 0x54) r false s
  | .vid v r => put (u32 (mgetD g.vids v []) 0x60) r false s
  | .relay v false =>
    let slot := u32 (mgetD g.relays v []) 0x30
    if slot = 0xFFFFFFFF then relayPacket v s.now (some port) f s else put slot false true s
  | .relay v true => put (u32 (mgetD g.relays v []) 0x30) true true s
  | .sub n => if isRtcp f.data then put (u32 (mgetD g.subs n []) 0x3C) true true s else s
  | _ => s

/-- A classified frame meets its class's buffer, its policers and its consumer (R319, R506, R507): the port that names its interface, and
the one on which it came. -/
def receiveClassed (port via : Nat) (f : Frame) (s : State) : State :=
  let c := classify s port f
  let k := c.cls?
  if classBound s port k < classUse s port k + f.len then bumpNet port 6 s
  else match police (64 * port + k) port f s with
    | (none, s) => s
    | (some f, s) =>
      match c with
      | .relay v _ =>
        match police (0x10000 + v) port f s with
        | (none, s) => s
        | (some f, s) => deliverMedia port c f s
      | .ptp => pushInbox (0x6000 + 64 * port + 1) s.now f s
      | .cls k => 
        if u8 (s.rt.net.classAt port k) 3 = 1 then
          hspSend (u8 (s.rt.net.classAt port k) 4 % 64) (hostFrame port (shiftTime s.now (s.rt.net.correction via false)) f.raw) s
        else s
      | _ => deliverMedia port c f s

/-! Redundancy on receive (R511 to R513). -/

/-- NET.NODE_TABLE_FULL at most once per second per pair (R513). -/
def nodeTableFull (pair port : Nat) (s : State) : State :=
  let s := bumpNet port 15 s
  let up := s.up
  let e := mget s.rt.net.nodeEvent pair
  let n := (match e with
    | some e => e.2
    | none => 0) + 1
  let due := match e with
    | some e => decide (e.1 + tS ≤ up)
    | none => true
  if due then (s.post 0x0E85 2 pair n).modNet fun x => { x with nodeEvent := mset x.nodeEvent pair (up, 0) }
  else s.modNet fun x => { x with nodeEvent := mset x.nodeEvent pair ((e.getD (0, 0)).1, n) }

/-- A sequence number of a source enters the node table: whether it has been seen on the other LAN, and on this one, within the
entry forget time; none of either where the table is full. -/
def noteNode (pair port mac seq : Nat) (s : State) : Bool × Bool × State :=
  let n := s.rt.net
  let up := s.up
  let forget := u16 (n.pair pair) 6 * tMs
  let lan := port % 2
  match n.nodes.find? fun e => e.pair == pair && e.mac == mac with
  | some e =>
    let fresh := e.seqs.filter fun q => decide (up < q.2.2 + forget)
    let e' : Node := { e with seqs := fresh ++ [(seq, lan, up)], last := up }
    (fresh.any (fun q => q.1 == seq && q.2.1 != lan), fresh.any (fun q => q.1 == seq && q.2.1 == lan),
      s.modNet fun n => { n with nodes := n.nodes.map fun x => if x.pair == pair && x.mac == mac then e' else x })
  | none =>
    if 1024 ≤ n.nodes.length then (false, false, nodeTableFull pair port s)
    else (false, false, s.modNet fun n => { n with nodes := n.nodes ++ [{ pair := pair, mac := mac, seqs := [(seq, lan, up)], last := up }] })

/-- An HSR frame goes on as it came to the other ring port, at once where it is idle, otherwise through queue 7 (R512). -/
def ringForward (port : Nat) (f : Frame) (s : State) : State :=
  let o : Outbound := { flow := 0xFFFFF, port := port, queue := 7, ip := f.ip.val, src := f.src, dst := f.dst, sport := f.sport.toNat
                        dport := f.dport.toNat, dscp := f.dscp.toNat, vlan := f.vlan.toNat
                        packet := { kind := 4, data := f.raw, len := f.raw.length } }
  let s := bumpNet port 16 s
  if portIdle s port then startFrame port o s else wfqEnqueue port 7 o s

/-- The redundancy entity of a pair: the frame where it is accepted (R511, R512). Copies that complete in one cycle come in the order of
their rows. -/
def redundant (port : Nat) (f : Frame) (s : State) : Option Frame × State :=
  let n := s.rt.net
  let pair := port / 2
  let mode := n.redundancy port
  let up := s.up
  let s := s.modNet fun n => { n with lanHeard := mset n.lanHeard port up, lanFault := n.lanFault.erase port }
  match f.red with
  | none => (some f, s)
  | some (seq, lan) =>
    if mode = 1 then
      if lan.toNat ≠ 0xA + port % 2 then (some f, bumpNet port 14 s)
      else
        let r := noteNode pair port f.srcMac.toNat seq.toNat s
        if r.1 then (none, bumpNet port 13 r.2.2) else (some f, r.2.2)
    else if f.srcMac.toNat = s.mac port then
      (none, if f.dstMac.toNat = supervisionAddress then
        s.modNet fun n => { n with ownHeard := mset n.ownHeard pair up, ringOpen := n.ringOpen.erase pair } else s)
    else
      let r := noteNode pair port f.srcMac.toNat seq.toNat s
      let mine := f.dstMac.toNat == s.mac port
      let group := f.dstMac.getLsbD 40
      let s := if !r.2.1 && !mine then ringForward (2 * pair + (port + 1) % 2) f r.2.2 else r.2.2
      if r.1 || r.2.1 then (none, bumpNet port 13 s)
      else if mine || group then (some f, s) else (none, s)

/-! Reception (R37, R319, R502). -/

/-- Whether a frame is within 40 Mpacket/s, counted over each ms of the four ports (R37). -/
def rateLimit (port : Nat) (s : State) : Bool × State :=
  let ms := s.up / tMs
  let n := if s.rt.net.rate.1 = ms then s.rt.net.rate.2 else 0
  if 40000 ≤ n then (false, bumpFwd port 0x10 s) else (true, s.modNet fun x => { x with rate := (ms, n + 1) })

/-- A received frame, and what forward error correction did to it, are counted. -/
def countArrival (p fec : Nat) (s : State) : State :=
  let s := bumpNet p 1 s
  match fec with
  | 1 => bumpNet p 9 s
  | 2 => bumpNet p 10 s
  | _ => s

/-- A whole frame passes the port's rate limit; on a redundant port it is deduplicated, PTP apart, and then received (R37, R505, R511, R512). -/
def receiveWhole (p name : Nat) (f : Frame) (s : State) : State :=
  let r := rateLimit p s
  if !r.1 then r.2
  else if s.rt.net.redundancy p = 0 then receiveClassed p p f r.2
  else if classify s name f = .ptp then receiveClassed p p f r.2
  else match redundant p f r.2 with
    | (none, s) => s
    | (some f, s) => receiveClassed name p f s

/-- A frame whose FCS fails, or that ends early: a plain relay's copies may have left already, so that it passes the stages of R319 as a
good one does (R37, R319, R325, R327). -/
def receiveBad (p name : Nat) (f : Frame) (s : State) : State :=
  match mediaConsumer s.gens.active name f with
  | some (.relay v false) =>
    let r := rateLimit p s
    if u32 (mgetD s.gens.active.relays v []) 0x30 ≠ 0xFFFFFFFF then s
    else if !r.1 then r.2
    else match police (64 * name) name f r.2 with
      | (none, s) => s
      | (some f, s) =>
        match police (0x10000 + v) name f s with
        | (none, s) => s
        | (some f, s) => relayPacket v s.now (some name) { f with fcsOk := false } s
  | _ => s

/-- A frame is received on a port: fec is 1 where codewords were corrected and 2 where one was uncorrectable (R319, R502, R520). -/
def execEthFrameReceive (t : Time) (port : Fin 4) (f : Frame) (fec : Fin 3) (s : State) : Host.Outcome State Fault Refusal :=
  let s := s.advance t
  let p := port.val
  if s.rt.net.isUp p then
    let s := countArrival p fec.val s
    let name := s.rt.net.named p
    if u16 (s.rt.net.port p) 2 < f.len then done (bumpNet p 4 s)
    else if f.len < 64 then done (receiveBad p name f (bumpNet p 4 s))
    else if f.fcsOk = false ∨ fec.val = 2 then done (receiveBad p name f (bumpNet p 3 s))
    else if f.etherType = 0x8808 then done (bumpNet p 5 s)
    else done (receiveWhole p name f s)
  else done s

/-! Transmission (R323, R503, R538, R539). -/

/-- A slice one of whose packets is dropped (R259). -/
def sliceDropped (g : Tag) (s : State) : State :=
  let b := mgetD s.gens.active.vids g.stream []
  match mget s.rt.video.vids g.stream with
  | none => s
  | some x =>
    if x.dropped = some (g.picture, g.slice) then s
    else
      let s := s.modVideo fun v => { v with vids := mupd v.vids g.stream fun x =>
        { x with dropped := some (g.picture, g.slice), stats := bump x.stats 0x1C } }
      let s := s.post 0x0789 2 g.stream (g.picture % 16777216 * 256 + g.slice % 256)
      if bit (u8 b 0x12) 3 then encodeKey g.stream 3 s else s

/-- A launched packet of an encode stream is copied to its subscriptions at its launch (R299). -/
def copyLaunched (g : Tag) (s : State) : State :=
  let p := parseRtp g.plain
  copyPacket { v := g.stream, rtp := p, data := g.plain, h265 := isH265 s.gens.active g.stream
               nals := [{ type := 0, s := g.s, t := g.t, vcl := true, rap := g.rap, bytes := p.payload }], tag := some g } s

/-- A packet of a selected encode stream is recorded at its launch (R376). -/
def recVideo (g : Tag) (s : State) : State :=
  if (selectionOf s (65536 + g.stream)).1 = 1 then
    let p := parseRtp g.plain
    pushRecord { type := 5, object := g.stream, time := s.now, flags := b2n p.marker, pt := p.pt, ts := p.ts, data := p.payload } s
  else s

/-- A timed frame leaves: it is transmitted unless it exists only for its copies, and copied where it is media of an encode stream. -/
def launched (port : Nat) (f : Timed) (late : Bool) (s : State) : State :=
  let only := match f.packet.tag with
    | some g => g.copies
    | none => false
  let s := if only then s
    else occupy port (Nat.max 64 (f.packet.len)) (transmitted port f.tsTag (s.emit (.frame port s.now f.packet)))
  match f.packet.tag with
  | some g =>
    let s := if late then s.modVideo fun v => { v with vids := mupd v.vids g.stream fun x => { x with stats := bump x.stats 0x18 } } else s
    if s.rt.net.redundancy port = 0 ∨ port % 2 = 0 then copyLaunched g (recVideo g s) else s
  | none => s

/-- The head of a timed queue is launched or dropped (R539); a down port discards it (R503). -/
def launchTimed (port : Nat) (s : State) : State :=
  match mgetD s.rt.time.queues port [] with
  | [] => s
  | f :: l =>
    let only := match f.packet.tag with
      | some g => g.copies
      | none => false
    if s.now < f.launch then s
    else if s.rt.net.isUp port = false ∧ !only then
      bumpNet port 8 (s.modTime fun b => { b with queues := mset b.queues port l })
    else match launchHead port s with
      | (s', some (f, dropped)) =>
        if dropped then
          match f.packet.tag with
          | some g => sliceDropped g s'
          | none => s'
        else launched port f (6 * tNs ≤ s.now - f.launch) s'
      | (s', none) => s'

/-- TIMED_LAUNCH (R539): a port in transmission makes the frame wait. -/
def execTimedLaunch (t : Time) (port : Fin 4) (s : State) : Host.Outcome State Fault Refusal :=
  let s := s.advance t
  done (if portFree s port.val then launchTimed port.val s else s)

/-- PORT_TRANSMIT: a free port starts the timed frame that is eligible, otherwise the WFQ head of the smallest tag (R322, R323). -/
def execPortTransmit (t : Time) (port : Fin 4) (s : State) : Host.Outcome State Fault Refusal :=
  let s := s.advance t
  let p := port.val
  if portFree s p then
    match mgetD s.rt.time.queues p [] with
    | f :: _ => if f.launch ≤ s.now then done (launchTimed p s) else done (wfqSend p s)
    | [] => done (wfqSend p s)
  else done s
where
  /-- The WFQ head of the smallest tag starts; a down port discards it (R503). -/
  wfqSend (p : Nat) (s : State) : State :=
    if s.rt.net.isUp p then
      match wfqNext p (wfqCount s p) s with
      | (s, some o) => startFrame p o s
      | (s, none) => s
    else match wfqChoice s.gens.active (s.rt.net.named p) (mgetD s.rt.fwd.ports p {}) with
      | some (q, _, tag) => bumpNet p 8 (takeHead p q tag s)
      | none => s

/-! Sorrel's rows. -/

/-- POLICER_INTERVAL: at the start of a 1 µs interval every bucket receives its share (R320). -/
def execPolicerInterval (t : Time) (s : State) : Host.Outcome State Fault Refusal :=
  let s := s.advance t
  let now := s.now
  done (s.modFwd fun f => { f with policers := mall f.policers fun k x => refill (mgetD s.gens.active.policers k []) now x })

/-- FWD_SOURCE_TIMEOUT: no valid packet for a relay's media timeout (R300, R302). -/
def execFwdSourceTimeout (t : Time) (v : Fin 4096) (s : State) : Host.Outcome State Fault Refusal :=
  let s := s.advance t
  match mget s.gens.active.relays v.val with
  | none => done s
  | some b =>
    let r := s.rt.fwd.relay v.val
    if u16 b 0x38 ≠ 0 ∧ r.lost = false ∧ r.rtp.lastValid + u16 b 0x38 * tMs ≤ s.up then
      let s := (modRelay v.val (fun r => { r with lost := true }) s).post 0x0985 2 v.val 0
      done ((subsOfSource s.gens.active v.val).foldl (fun s e =>
        modSub e.1 (fun x => { x with state := .sourceLost, waiting := none, pausing := false, lower := none }) s) s)
    else done s

/-- RATE_WINDOW: at a 100 ms boundary of TIME the rates move on and every target is computed (R308, R309). -/
def execRateWindow (t : Time) (s : State) : Host.Outcome State Fault Refusal :=
  let s := s.advance t
  if s.now % (100 * tMs) = 0 then
    let s := s.modFwd fun f => { f with rates := mall f.rates fun _ r => { windows := (0, 0) :: r.windows.take 10 } }
    done (s.gens.active.lines.foldl (fun s e => retarget e.1 s) s)
  else done s

/-- RTCP of a subscription towards its receiver (R318). -/
def subRtcp (n : Nat) (b d : Bytes) (s : State) : State :=
  let mux := bit (u8 b 7) 2
  sendMedia (u32 b 0x38) true false true
    { copyOut n b { v := 0, rtp := parseRtp [], data := [], h265 := false, nals := [] } (rtcpOut (0x90000 + n) d) with
      sport := u16 b 0x30 + b2n (!mux), dport := u16 b 0x32 + b2n (!mux) } s

/-- The CNAME of a subscription's RTCP (R318). -/
def subCname (s : State) (v : Nat) : Bytes :=
  if mhas s.gens.active.relays v then (s.rt.fwd.relay v).cname else cnameVid v

/-- A TMMBR lowers the capacity in force, is answered with a TMMBN, and targets are computed (R309, R313). -/
def takeTmmbr (n owner bps : Nat) (s : State) : State :=
  match mget s.gens.active.subs n with
  | none => s
  | some b =>
    let leg := u16 b 2
    if bit (u8 (mgetD s.gens.active.lines leg []) 0x13) 0 then
      let up := s.up
      let line := mgetD s.gens.active.lines leg []
      let s := modLine leg (fun l => { l with tokens := lineTokens line l up, at_ := up, tmmbr := some bps }) s
      let own := u32 b 0x34
      retarget leg (subRtcp n b (compound own none [] (subCname s (u16 b 4)) (tmmbnPacket own owner bps)) s)
    else s

/-- TMMBR_RECEIVE (R313). -/
def execTmmbrReceive (t : Time) (n : Fin 32768) (owner : BitVec 32) (bps : Nat) (s : State) : Host.Outcome State Fault Refusal :=
  done (takeTmmbr n.val owner.toNat bps (s.advance t))

/-- KEY_WAIT_EXPIRY: the key wait of a subscription in WAIT_KEY, or of a pending rise, passes (R302). -/
def execKeyWaitExpiry (t : Time) (n : Fin 32768) (s : State) : Host.Outcome State Fault Refusal :=
  let s := s.advance t
  match mget s.gens.active.subs n.val with
  | none => done s
  | some b =>
    let up := s.up
    match (s.rt.fwd.sub n.val).waiting with
    | some w =>
      if w + u16 b 0x42 * tMs ≤ up then
        done (keyRequest (u16 b 4) n.val 2 (modSub n.val (fun x => { x with waiting := some up }) s))
      else done s
    | none => done s

/-- RELAY_KEY_INTERVAL_END: merged requests are sent (R312). -/
def execRelayKeyIntervalEnd (t : Time) (v : Fin 4096) (s : State) : Host.Outcome State Fault Refusal :=
  let s := s.advance t
  match mget s.gens.active.relays v.val with
  | none => done s
  | some b =>
    let r := s.rt.fwd.relay v.val
    match r.merged, r.keyAt with
    | some c, some k => if k + u16 b 0x3A * tMs ≤ s.up then done (sendRelayKey v.val c b s) else done s
    | _, _ => done s

/-- Packets at the head of a line queue leave while the shaper holds tokens for them (R307). -/
def releaseLine (leg : Nat) (line : Bytes) : Nat → State → State
  | 0, s => s
  | k + 1, s =>
    let l := s.rt.fwd.line leg
    let up := s.up
    match l.queue with
    | [] => s
    | q :: rest =>
      let tok := lineTokens line l up
      if q.length * 8 * bitUnit ≤ tok then
        releaseLine leg line k (leave (q.slot.getD 0xFFFFFFFF) false q.out
          (modLine leg (fun l => { l with tokens := tok - q.length * 8 * bitUnit, at_ := up, queue := rest }) s))
      else s

/-- SHAPER_RELEASE (R307): what a line model that has left still holds drains as it did under it (R98). -/
def execShaperRelease (t : Time) (leg : Fin 8192) (s : State) : Host.Outcome State Fault Refusal :=
  let s := s.advance t
  let l := s.rt.fwd.line leg.val
  let s := releaseLine leg.val (mgetD s.gens.active.lines leg.val l.block) l.queue.length s
  done (if (s.rt.fwd.line leg.val).queue.isEmpty && !mhas s.gens.active.lines leg.val then
    s.modFwd fun f => { f with lines := mdel f.lines leg.val } else s)

/-- FWD.STATE_LOST and the return to WAIT_KEY of the subscriptions concerned (R329). -/
def stateLost (obj : Nat) (l : Map Bytes) (s : State) : State :=
  l.foldl (fun s e => toWaitKey e.1 e.2 s) (s.post 0x0989 3 obj 0)

/-- SORREL_ECC_ERROR (R329). -/
def execSorrelEccError (t : Time) (e : SorrelError) (s : State) : Host.Outcome State Fault Refusal :=
  let s := s.advance t
  let g := s.gens.active
  match e with
  | .corrected p => done ((bumpFwd p.val 0x2C s).modFwd fun f => { f with corrected := f.corrected + 1 })
  | .buffer p q => done (s.modFwd fun f => { f with ports := mupd f.ports p.val fun x => { x with queues := mupd x.queues q.val (·.drop 1) } })
  | .sending p =>
    if portFree s p.val then done s else done (bumpFwd p.val 0x20 (s.emit (.stomp p.val)))
  | .subscription n => done (stateLost n.val (g.subs.filter fun x => x.1 == n.val) s)
  | .line leg => done (stateLost (0x10000 + leg.val) (subsOfLeg g leg.val) s)
  | .policer k =>
    match mget g.policers k with
    | some b =>
      let x := fullBuckets b s.now
      done (s.modFwd fun f => { f with policers := mset f.policers k x })
    | none => done s

/-! Activation (R98, R99, R301, R302, R313, R320). -/

/-- A relay's ladder as it stands in its block, with its codec. -/
def relayShape (b : Bytes) : Bytes := slice b 2 2 ++ slice b 0x40 (2 * u8 b 3)

/-- Relays at an activation: a change of codec or ladder restarts one (R331). -/
def activateRelays (old new : Generation) (s : State) : State :=
  let s := s.modFwd fun f => { f with relays := mkeep f.relays fun k _ => mhas new.relays k }
  new.relays.foldl (fun s e =>
    let same := match mget old.relays e.1 with
      | some o => relayShape o == relayShape e.2
      | none => false
    if same then s
    else
      let d := s.draw
      let d' := d.2.draw
      let up := s.up
      modRelay e.1 (fun _ => { own := d.1 % 4294967296, rtp := { lastValid := up }, rtcpAt := up + rtcpDelay (u8 e.2 0x3E) d'.1 }) d'.2) s

/-- A subscription starts in WAIT_KEY with random offset and base (R302, R315, R316). -/
def startSub (n : Nat) (b : Bytes) (s : State) : State :=
  let d1 := s.draw
  let d2 := d1.2.draw
  let d3 := d2.2.draw
  let t := s.up + rtcpDelay (u8 b 0x44) d3.1
  let x : Sub := { rung := u8 b 8, target := u8 b 8, tsOffset := d1.1 % 4294967296, rtcpAt := t
                   base := if u32 b 0x38 = 0xFFFFFFFF then some (d2.1 % 65536) else none }
  toWaitKey n b (d3.2.modFwd fun f => { f with subs := mset f.subs n x })

/-- Sorrel at an activation: what has changed starts anew, and the legs concerned take new targets. -/
def activateFwd (old new : Generation) (s : State) : State :=
  let s := activateRelays old new s
  let live := fun v => mhas new.relays v || isEncode new v
  let s := s.modFwd fun f =>
    { f with
      subs := mkeep f.subs fun k _ => mhas new.subs k
      rates := mkeep f.rates fun k _ => live (k / 64)
      lines := (f.lines.filter fun e => mhas new.lines e.1 || !e.2.queue.isEmpty).map fun e =>
        if mget old.lines e.1 = mget new.lines e.1 then e
        else (e.1, { e.2 with tmmbr := none, block := mgetD old.lines e.1 e.2.block })
      policers := (mkeep f.policers fun k _ => mhas new.policers k).map fun e =>
        let b := mgetD new.policers e.1 []
        (e.1, { e.2 with c := Nat.min e.2.c (u32 b 0xC * 16777216), e := Nat.min e.2.e (u32 b 0x14 * 16777216) }) }
  let up := s.up
  let s := new.lines.foldl (fun s e =>
    if mhas s.rt.fwd.lines e.1 then s
    else modLine e.1 (fun l => { l with tokens := u16 e.2 0xE * 1024 * 8 * bitUnit, at_ := up }) s) s
  let s := new.subs.foldl (fun s e =>
    match mget old.subs e.1 with
    | some o => if slice o 2 4 = slice e.2 2 4 then s else startSub e.1 e.2 s
    | none => startSub e.1 e.2 s) s
  let changed := new.lines.filter fun e =>
    mget old.lines e.1 != some e.2 || subsOfLeg old e.1 != subsOfLeg new e.1
  changed.foldl (fun s e => retarget e.1 s) s

end Sys2Proof.Machine
end

