-- ==== Sys2Proof/Machine/Compose.lean ====
section
/-! DEFINITION. From the samples of the layers to the samples of a composed frame (R275, R277 to R282) and its signatures (R285). -/

namespace Sys2Proof.Machine

/-! Sources. -/

/-- A sample of a picture of a size and depth: plane 0 Y, 1 Cb, 2 Cr, in that plane's coordinates. -/
def PicKind.sample (w h depth : Nat) : PicKind → Nat → Nat → Nat → Nat
  | .grey, _, _, _ => 128 * 2 ^ (depth - 8)
  | .black, plane, _, _ => (if plane = 0 then 16 else 128) * 2 ^ (depth - 8)
  | .decoded id, plane, x, y => Config.decodedSample id plane x y % 2 ^ depth
  | .patched id wide areas base, plane, x, y =>
    let side := if plane = 0 then 16 else 8
    if areas.contains (y / side * wide + x / side) then base.sample w h depth plane x y
    else Config.decodedSample id plane x y % 2 ^ depth
  | .composed l, plane, x, y =>
    let base := if plane = 0 then 0 else w * h + (plane - 1) * (w / 2) * (h / 2)
    l.getD (base + y * (if plane = 0 then w else w / 2) + x) 0

/-- A sample of a picture. -/
def Picture.sample (p : Picture) (plane x y : Nat) : Nat := p.kind.sample p.w p.h p.depth plane x y

/-- The number of a decoded picture. -/
def Picture.id (p : Picture) : Option Nat :=
  match p.kind with
  | .decoded id => some id
  | .patched id _ _ _ => some id
  | _ => none

/-- A layer's source: the size that its crop refers to, the size delivered, the subsampling in each direction, and its 12-bit Y, Cb, Cr
and 8-bit alpha in the coordinates of each plane (R277). -/
structure Source where
  w : Nat
  h : Nat
  realW : Nat
  realH : Nat
  subX : Bool
  subY : Bool
  y : Nat → Nat → Int
  cb : Nat → Nat → Int
  cr : Nat → Nat → Int
  a : Nat → Nat → Int
  /-- Whether it carries pixel alpha. -/
  alpha : Bool

/-- The product of a row of the matrix with a pixel. -/
def matrixRow (k : Int × Int × Int) (r g b : Nat) : Int := (k.1 * r + k.2.1 * g + k.2.2 * b + 128) / 256

/-- Y, Cb and Cr of an RGB pixel: matrix 0 BT.709, 1 BT.601 (R277). -/
def toYcc (matrix r g b : Nat) : Int × Int × Int :=
  if matrix = 0 then
    (256 + matrixRow (748, 2516, 254) r g b, 2048 + matrixRow (-412, -1387, 1799) r g b, 2048 + matrixRow (1799, -1634, -165) r g b)
  else
    (256 + matrixRow (1052, 2065, 401) r g b, 2048 + matrixRow (-607, -1192, 1799) r g b, 2048 + matrixRow (1799, -1506, -293) r g b)

/-- A solid colour, as a source of any size. -/
def colourSource (matrix c w h : Nat) : Source :=
  let v := toYcc matrix (c / 65536 % 256) (c / 256 % 256) (c % 256)
  { w := w, h := h, realW := w, realH := h, subX := false, subY := false
    y := fun _ _ => v.1, cb := fun _ _ => v.2.1, cr := fun _ _ => v.2.2, a := fun _ _ => 255, alpha := false }

/-- A stream's current picture, with the stream's configured size. -/
def pictureSource (p : Picture) (w h : Nat) : Source :=
  let up := fun plane x y => ((p.sample plane x y * 2 ^ (12 - p.depth) : Nat) : Int)
  { w := w, h := h, realW := if p.w = 0 then w else p.w, realH := if p.h = 0 then h else p.h, subX := true, subY := true
    y := up 0, cb := up 1, cr := up 2, a := fun _ _ => 255, alpha := false }

/-- Octets of an image as LAYOUT.IMAGE lays it out (R291). -/
def imageLength (b : Bytes) : Nat :=
  let f := u8 b 4; let h := u16 b 0xA; let st := u32 b 0xC
  match f with
  | 0 | 1 => st * h + 2 * (st / 2 * (h / 2))
  | 2 | 3 => st * h + 2 * (st / 2 * h)
  | 4 => st * h
  | _ => 1024 + st * h

/-- An image slot as a source, by its LAYOUT.IMAGE block and its octets (R274, R277, R291). -/
def imageSource (matrix : Nat) (b d : Bytes) : Source :=
  let f := u8 b 4; let w := u16 b 8; let h := u16 b 0xA; let st := u32 b 0xC
  if f < 4 then
    let deep := f % 2 == 1
    let cst := st / 2
    let ch := if f < 2 then h / 2 else h
    let up := fun (base stride x y : Nat) =>
      ((if deep then (u16 d (base + y * stride + 2 * x) % 1024) * 4 else u8 d (base + y * stride + x) * 16 : Nat) : Int)
    { w := w, h := h, realW := w, realH := h, subX := true, subY := decide (f < 2)
      y := up 0 st, cb := up (st * h) cst, cr := up (st * h + cst * ch) cst, a := fun _ _ => 255, alpha := false }
  else
    let px := fun (x y : Nat) =>
      if f = 4 then
        let o := y * st + 4 * x
        (u8 d (o + 3), u8 d (o + 2), u8 d (o + 1), u8 d o)
      else
        let o := 4 * u8 d (1024 + y * st + x)
        (u8 d o, u8 d (o + 1), u8 d (o + 2), u8 d (o + 3))
    let ycc := fun x y => toYcc matrix (px x y).2.1 (px x y).2.2.1 (px x y).2.2.2
    { w := w, h := h, realW := w, realH := h, subX := false, subY := false
      y := fun x y => (ycc x y).1, cb := fun x y => (ycc x y).2.1, cr := fun x y => (ycc x y).2.2
      a := fun x y => (px x y).1, alpha := true }

/-! Scaling (R278, R279). -/

/-- A coefficient of set 0 or 1 at a tap, given the place of the centre tap. -/
def builtIn (set centre phase tap : Nat) : Int :=
  if set = 0 then if tap = centre then 512 - 8 * (phase : Int) else if tap = centre + 1 then 8 * (phase : Int) else 0
  else if tap = (if phase < 32 then centre else centre + 1) then 512 else 0

/-- A coefficient: loaded sets start as copies of set 0 (R279, R292). -/
def coefficient (g : Generation) (set : Nat) (vertical : Bool) (phase tap : Nat) : Int :=
  let centre := if vertical then 2 else 3
  if set = 2 then Config.lanczos vertical phase tap
  else if set < 2 then builtIn set centre phase tap
  else match mget g.scalers (set * 4 + (if vertical then 2 else 0) + phase / 32) with
    | some b => sN b (8 + 2 * (phase % 32 * (if vertical then 6 else 8) + tap)) 2
    | none => builtIn 0 centre phase tap

/-- A value within 0 to a maximum. -/
def clampTo (max : Int) (v : Int) : Int := if v < 0 then 0 else if max < v then max else v

/-- Output sample x of a direction: s source samples to d, unfiltered where they are equal (R278). -/
def scale1 (coef : Nat → Nat → Int) (taps before : Nat) (max : Int) (s d : Nat) (f : Nat → Int) (x : Nat) : Int :=
  if s = d then f x
  else
    let step : Int := ((2 * s * 65536 + d) / (2 * d) : Nat)
    let pos := step / 2 - 32768 + x * step
    let c := pos / 65536
    let phase := (pos / 1024 % 64).toNat
    let sum := (List.range taps).foldl (fun (a : Int) (k : Nat) =>
      let i := c - before + k
      a + coef phase k * f (if i < 0 then 0 else Nat.min (s - 1) i.toNat)) 0
    clampTo max ((sum + 256) / 512)

/-- A plane's sample at (x, y) of the destination, filtered horizontally and then vertically. -/
def scale2 (h v : Nat → Nat → Int) (max : Int) (s d : Nat × Nat) (f : Nat → Nat → Int) (x y : Nat) : Int :=
  scale1 v 6 2 max s.2 d.2 (fun row => scale1 h 8 3 max s.1 d.1 (fun col => f col row) x) y

/-- A chroma direction: replicated where luma is unfiltered, otherwise scaled from its own crop. -/
def chroma1 (coef : Nat → Nat → Int) (taps before : Nat) (sub : Bool) (s d : Nat) (f : Nat → Int) (x : Nat) : Int :=
  if sub then if s = d then f (x / 2) else scale1 coef taps before 4095 (s / 2) d f x else scale1 coef taps before 4095 s d f x

/-- A chroma plane's sample at (x, y) of the destination. -/
def chroma2 (h v : Nat → Nat → Int) (src : Source) (s d : Nat × Nat) (f : Nat → Nat → Int) (x y : Nat) : Int :=
  chroma1 v 6 2 src.subY s.2 d.2 (fun row => chroma1 h 8 3 src.subX s.1 d.1 (fun col => f col row) x) y

/-! Gamma (R280). -/

/-- An entry of a table: identity until it is loaded; entry 1,024 reads as entry 1,023. -/
def gammaEntry (g : Generation) (table i : Nat) : Int :=
  let i := Nat.min i 1023
  match mget g.gammas (table * 4 + i / 256) with
  | some b => u16 b (4 + 2 * (i % 256))
  | none => 4 * i

/-- Y through a gamma table. -/
def gammaY (g : Generation) (table : Nat) (y : Int) : Int :=
  if table = 255 then y
  else
    let i := (y / 4).toNat
    gammaEntry g table i + ((gammaEntry g table (i + 1) - gammaEntry g table i) * (y % 4) + 2) / 4

/-! Layers and blend (R275, R281). -/

/-- A layer ready to be sampled: its block, whether it is the background, and its source. -/
structure Laid where
  b : Bytes
  ground : Bool
  src : Source

/-- The crop of a layer: place and size (R275). -/
def cropOf (b : Bytes) (src : Source) : (Nat × Nat) × (Nat × Nat) :=
  if u16 b 0x14 = 0 ∨ u16 b 0x16 = 0 then ((0, 0), (src.w, src.h)) else ((u16 b 0x10, u16 b 0x12), (u16 b 0x14, u16 b 0x16))

/-- Y, Cb, Cr and the effective alpha of a layer at a pixel of the canvas; none outside its destination. -/
def Laid.at_ (g : Generation) (cw ch : Nat) (l : Laid) (x y : Nat) : Option (Int × Int × Int × Int) :=
  let b := l.b
  let dx : Int := if l.ground then 0 else sN b 0x18 2
  let dy : Int := if l.ground then 0 else sN b 0x1A 2
  let dw := if l.ground then cw else u16 b 0x1C
  let dh := if l.ground then ch else u16 b 0x1E
  let px := (x : Int) - dx
  let py := (y : Int) - dy
  if px < 0 ∨ py < 0 ∨ (dw : Int) ≤ px ∨ (dh : Int) ≤ py then none
  else
    let c := cropOf b l.src
    let h := coefficient g (u8 b 0x20) false
    let v := coefficient g (u8 b 0x21) true
    let edge := fun (f : Nat → Nat → Int) (sx sy : Bool) (col row : Nat) =>
      let q := fun (sub : Bool) n => if sub then n / 2 else n
      f (Nat.min (q sx l.src.realW - 1) (q sx c.1.1 + col)) (Nat.min (q sy l.src.realH - 1) (q sy c.1.2 + row))
    let luma := edge l.src.y false false
    let x := px.toNat
    let y := py.toNat
    let yy := gammaY g (u8 b 0x22) (scale2 h v 4095 c.2 (dw, dh) luma x y)
    let cb := chroma2 h v l.src c.2 (dw, dh) (edge l.src.cb l.src.subX l.src.subY) x y
    let cr := chroma2 h v l.src c.2 (dw, dh) (edge l.src.cr l.src.subX l.src.subY) x y
    let pa : Int := if l.src.alpha && !bit (u8 b 0xD) 1 then scale2 h v 255 c.2 (dw, dh) (edge l.src.a false false) x y else 255
    let a : Int := if l.ground then 256 else ((pa + pa / 128) * u16 b 0xE + 128) / 256
    some (yy, cb, cr, a)

/-- A component blended with what lies beneath it. -/
def blend1 (a l b : Int) : Int := (a * l + (256 - a) * b + 128) / 256

/-- The 12-bit pixel of the canvas after all layers, bottom to top, over black. -/
def blendAt (g : Generation) (cw ch : Nat) (layers : List Laid) (x y : Nat) : Int × Int × Int :=
  layers.foldl (fun under l =>
    match l.at_ g cw ch x y with
    | some v => (blend1 v.2.2.2 v.1 under.1, blend1 v.2.2.2 v.2.1 under.2.1, blend1 v.2.2.2 v.2.2.1 under.2.2)
    | none => under) (256, 2048, 2048)

/-! Output (R282). -/

/-- A 12-bit value rounded to the output depth. -/
def outRound (depth : Nat) (v : Int) : Nat := if depth = 8 then (clampTo 255 ((v + 8) / 16)).toNat else (clampTo 1023 ((v + 2) / 4)).toNat

/-- The samples of a frame from its blended pixels: Y, Cb, Cr, row by row. -/
def frameSamples (g : Generation) (gamma depth cw ch : Nat) (px : Nat → Nat → Int × Int × Int) : List Nat :=
  let rows := fun (w h : Nat) (f : Nat → Nat → Nat) => (List.range h).flatMap fun y => (List.range w).map fun x => f x y
  let quad := fun (f : Int × Int × Int → Int) (x y : Nat) =>
    outRound depth ((f (px (2 * x) (2 * y)) + f (px (2 * x + 1) (2 * y)) + f (px (2 * x) (2 * y + 1)) + f (px (2 * x + 1) (2 * y + 1)) + 2) / 4)
  rows cw ch (fun x y => outRound depth (gammaY g gamma (px x y).1)) ++
    rows (cw / 2) (ch / 2) (quad fun v => v.2.1) ++ rows (cw / 2) (ch / 2) (quad fun v => v.2.2)

/-! Signatures (R285). -/

/-- The reflected CRC-32 register after eight steps. -/
def crcBits : Nat → Nat → Nat
  | 0, c => c
  | k + 1, c => crcBits k (if c % 2 = 1 then (c / 2) ^^^ 0xEDB88320 else c / 2)

/-- The CRC-32 of IEEE 802.3 over a run of octets. -/
def crc32 (l : List Nat) : Nat := (l.foldl (fun c v => crcBits 8 (c ^^^ v)) 0xFFFFFFFF) ^^^ 0xFFFFFFFF

/-- The octets of a region of a frame: Y, Cb, Cr, two per sample at 10 bits. -/
def regionOctets (p : Picture) (b : Bytes) : List Nat :=
  let x := u16 b 4; let y := u16 b 6; let w := u16 b 8; let h := u16 b 0xA
  let put := fun v => if p.depth = 8 then [v] else [v % 256, v / 256]
  let area := fun plane x y w h => (List.range h).flatMap fun j => (List.range w).flatMap fun i => put (p.sample plane (x + i) (y + j))
  area 0 x y w h ++ area 1 (x / 2) (y / 2) (w / 2) (h / 2) ++ area 2 (x / 2) (y / 2) (w / 2) (h / 2)

/-- The CRC of a region of a frame. -/
def regionCrc (p : Picture) (b : Bytes) : Nat := crc32 (regionOctets p b)

end Sys2Proof.Machine
end

