-- ==== Sys2Proof/Machine/Engine.lean ====
section
/-! DEFINITION. Work items of the Campion and Mallow engines (R112, R116, R228, R230, R269, R284; log 183). -/

namespace Sys2Proof.Machine

/-- Firmware's work for an engine: level, engine place, flow, object, input. It has no deadline: what is late is counted and launched, or
dropped, by its own chapter (R239, R257, R272; log 183). -/
def engineItem (level target flow object input : Nat) : Item :=
  { handler := Config.freeNat 2 % 65536, level := level, target := target, flow := flow, object := object, input := input % 2 ^ 64
    noDeadline := true, port := 30 }

/-- The tick generator injects items of a picture or frame, where its reserve has room for all of them; otherwise the object behaves as
for an expired item (R112, R129). -/
def injectEngine (n : Nat) (i : Item) (s : State) : Bool × State :=
  if !s.coreClock then (false, s)
  else if s.rt.clover.reserveOf 1000 + n ≤ 16384 then
    (true, (List.range n).foldl (fun s _ => injectItem { i with tickItem := true, port := 36 } s) s)
  else (false, (s.modClover fun c => { c with stats := bump c.stats 0x1C n }).post 0x0386 3 i.object (s.rt.clover.tick % 4294967296))

/-- The item of a flow that an engine has in service, with its consumer. -/
def onEngine (s : State) (flow : Nat) : Option (Item × Nat × Nat) :=
  (serviceOf s flow).bind fun i => match i.2.state with
    | .inService b p => if 16 ≤ b ∧ b < 30 then some (i.2, b, p) else none
    | _ => none

/-- An engine's step on an item: what it does, and with it the item's end (R138). -/
def engineStep (flow : Nat) (f : Item → State → State) (s : State) : State :=
  match onEngine s flow with
  | some (i, b, p) => completeItem b p (f i s)
  | none => s

/-- The waiting items of a flow go to another place (R153). -/
def moveItems (flow place : Nat) (s : State) : State :=
  s.modClover fun c => { c with items := c.items.map fun i =>
    if i.2.flow = flow ∧ i.2.waits then (i.1, { i.2 with target := place }) else i }

end Sys2Proof.Machine
end

