-- ==== Sys2Proof/Machine/FwdCmd.lean ====
section
/-! DEFINITION. The FWD commands (R330 to R338). -/

namespace Sys2Proof.Machine

/-- A local port already held by another object: a leg, a video stream, a relay or a subscription (R301, R262). -/
def heldLocal (g : Generation) (l : Local) (vid relay : Option Nat) (subs : Bool) : List Fail :=
  inUse (sameLocal (rtpLegs g) legLocal none l) ++ inUse (sameLocal g.vids vidLocal vid l) ++
  inUse (sameLocal g.relays relayLocal relay l) ++ (if subs then inUse (sameLocal g.subs subLocal none l) else [])

/-- A relay's ladder: non-decreasing spatial id, temporal id rising strictly within one (R305). -/
def ladderOk (b : Bytes) : Bool :=
  let n := u8 b 3
  (List.range n).all fun i =>
    (u8 b 2 != 1 || u8 b (0x40 + 2 * i) == 0) &&
    (decide (n ≤ i + 1) || decide (u8 b (0x40 + 2 * i) < u8 b (0x42 + 2 * i)) ||
      (u8 b (0x40 + 2 * i) == u8 b (0x42 + 2 * i) && decide (u8 b (0x41 + 2 * i) < u8 b (0x43 + 2 * i))))

/-- FWD.RELAY_SET (R299, R305, R331). -/
def cmdFwdRelaySet : Cmd where
  code := 0x0900
  len := len1 128
  gmode := .modify
  block := some 30
  fails := fun r g _ =>
    let b := r.params
    let v := u16 b 0
    fldFails b ([rng 0 2 0 4095, rng 2 1 0 1, rng 3 1 1 25, rng 4 1 0 3, oneOf 5 1 [4, 6], rng 6 1 96 127, msk 7 1 0xF,
      rng 0x28 2 1024 65535, rng 0x2A 2 1 65535, slotFld 0x30, slotFld 0x34,
      (0x38, 2, fun v => v == 0 || (100 ≤ v && v ≤ 60000)), rng 0x3A 2 0 10000, rng 0x3C 2 0 4094, rng 0x3E 1 5 255, rsv 0x3F 1,
      rsv 0x72 14] ++ (List.range 50).map fun i => rng (0x40 + i) 1 0 7) ++
    addrBad b 5 8 ++ addrBad b 5 0x18 ++ badIf (!ladderOk b) (0x40 + 2 * (u8 b 3 - 1)) ++
    (if mhas g.vids v then [(.objectInUse, v)] else []) ++ heldLocal g (relayLocal b) none (some v) true ++
    slotClash g 2 v false (u32 b 0x30) ++ slotClash g 2 v true (u32 b 0x34)
  run := fun r _ s => okWith (s.stage fun g => { g with relays := mset g.relays (u16 r.params 0) (slice r.params 0 128) })

/-- Another subscription with the same local port and remote address and port (R301). -/
def sameRemote (g : Generation) (n : Nat) (b : Bytes) : Option Nat :=
  (g.subs.find? fun e => e.1 != n && subLocal e.2 == subLocal b && slice e.2 0x20 16 == slice b 0x20 16 &&
    u16 e.2 0x32 == u16 b 0x32).map (·.1)

/-- FWD.SUB_SET (R301, R332). -/
def cmdFwdSubSet : Cmd where
  code := 0x0901
  len := len1 80
  gmode := .modify
  block := some 30
  fails := fun r g _ =>
    let b := r.params
    let n := u16 b 0
    let v := u16 b 4
    let source := mhas g.relays v || isEncode g v
    fldFails b [rng 0 2 0 32767, rng 2 2 0 8191, rng 4 2 0 4095, rng 6 1 0 7, msk 7 1 0xF, rng 8 1 0 24, rng 9 1 0 24, rng 0xA 1 0 7,
      rng 0xB 1 0 3, oneOf 0xC 1 [4, 6], rng 0xD 1 0 63, rng 0xE 1 96 127, rng 0xF 1 1 255, rng 0x30 2 1024 65535,
      rng 0x32 2 1 65535, slotFld 0x38, slotFld 0x3C, rng 0x40 2 0 4094, rng 0x42 2 100 10000, rng 0x44 1 5 255, rsv 0x45 11] ++
    addrBad b 0xC 0x10 ++ addrBad b 0xC 0x20 ++
    badIf (!(mhas g.legs (u16 b 2) && mhas g.lines (u16 b 2))) 2 ++ badIf (!source) 4 ++
    badIf (source && decide ((ladderOf g v).length ≤ u8 b 8)) 8 ++ badIf (decide (u8 b 9 < u8 b 8)) 9 ++
    inUse (sameRemote g n b) ++ heldLocal g (subLocal b) none none false ++
    slotClash g 3 n true (u32 b 0x38) ++ slotClash g 3 n false (u32 b 0x3C)
  run := fun r _ s => okWith (s.stage fun g => { g with subs := mset g.subs (u16 r.params 0) (slice r.params 0 80) })

/-- FWD.LINE_SET (R307, R333). -/
def cmdFwdLineSet : Cmd where
  code := 0x0902
  len := len1 24
  gmode := .modify
  block := some 30
  fails := fun r g _ =>
    let b := r.params
    fldFails b [rng 0 2 0 8191, rsv 2 2, rng 4 4 64 25000000, srng 0xC 2 (-64) 127, rng 0xE 2 1 255, rng 0x10 2 1 500,
      rng 0x12 1 0 100, msk 0x13 1 1, rsv 0x14 4] ++
    badIf (!mhas g.legs (u16 b 0)) 0 ++ badIf (decide (u32 b 4 < u32 b 8)) 8
  run := fun r _ s => okWith (s.stage fun g => { g with lines := mset g.lines (u16 r.params 0) (slice r.params 0 24) })

/-- The key of a policer in the generation (R334, R336). -/
def policerKey (b : Bytes) : Nat := if u8 b 0 = 0 then 64 * u8 b 1 + u16 b 2 else 0x10000 + u16 b 2

/-- FWD.POLICER_SET (R320, R334). -/
def cmdFwdPolicerSet : Cmd where
  code := 0x0903
  len := len1 32
  gmode := .modify
  block := some 30
  fails := fun r g _ =>
    let b := r.params
    let two := u8 b 4 == 1
    fldFails b [rng 0 1 0 1, rng 1 1 0 3, rng 2 2 0 (if u8 b 0 = 0 then 63 else 4095), rng 4 1 0 1, rng 5 1 0 1, rng 6 1 0 2, rng 7 1 0 2,
      rng 8 4 1 100000000, rng 0xC 4 1536 16777215, rng 0x10 4 0 100000000,
      (0x14, 4, fun v => v == 0 || (1536 ≤ v && v ≤ 16777215)), rng 0x18 1 0 63, rng 0x19 1 0 63, rsv 0x1A 6] ++
    badIf (u8 b 0 == 1 && !mhas g.relays (u16 b 2)) 2 ++
    badIf (if two then decide (u32 b 0x10 < u32 b 8) else u32 b 0x10 != 0) 0x10 ++ badIf (two && u32 b 0x14 == 0) 0x14
  run := fun r _ s => okWith (s.stage fun g => { g with policers := mset g.policers (policerKey r.params) (slice r.params 0 32) })

/-- FWD.QUEUE_SET (R322 to R324, R335). -/
def cmdFwdQueueSet : Cmd where
  code := 0x0904
  len := len1 16
  gmode := .modify
  block := some 30
  fails := fun r g _ =>
    let b := r.params
    fldFails b [rng 0 1 0 3, (1, 1, fun v => v ≤ 7 || v == 255), rng 2 2 1 1024, rng 4 4 16384 1048576, srng 8 2 (-64) 127, rsv 0xA 6] ++
    badIf (u8 b 1 != 255 && decide (u32 (queueBlock g (u8 b 0) 15) 4 < u32 b 4)) 4
  run := fun r _ s =>
    let b := r.params
    okWith (s.stage fun g => { g with queues := mset g.queues (u8 b 0 * 16 + if u8 b 1 = 255 then 15 else u8 b 1) (slice b 0 16) })

/-- FWD.COLOUR_MAP (R335). -/
def cmdFwdColourMap : Cmd where
  code := 0x0905
  len := len1 64
  gmode := .modify
  block := some 30
  fails := fun r _ _ => fldFails r.params ((List.range 64).map fun d => rng d 1 0 2)
  run := fun r _ s => okWith (s.stage fun g => { g with colourMap := slice r.params 0 64 })

/-- Greatest number of a kind (R336). -/
def fwdKindMax (kind : Nat) : Nat := [4095, 32767, 8191, 255, 4095, 35, 0].getD kind 0

/-- The key of queue settings from their number (R336). -/
def queueKey (n : Nat) : Nat := if n < 32 then n / 8 * 16 + n % 8 else (n - 32) * 16 + 15

/-- The block of an object by kind and number (R336). -/
def fwdObject (g : Generation) (kind n : Nat) : Option Bytes :=
  match kind with
  | 0 => (mget g.relays n).map fun b => slice b 0 128
  | 1 => (mget g.subs n).map fun b => slice b 0 80
  | 2 => (mget g.lines n).map fun b => slice b 0 24
  | 3 => (mget g.policers n).map fun b => slice b 0 32
  | 4 => (mget g.policers (0x10000 + n)).map fun b => slice b 0 32
  | 5 => some (slice (queueBlock g (queueKey n / 16) (queueKey n % 16)) 0 16)
  | _ => some (slice g.colourMap 0 64)

/-- The checks that FWD.DELETE and FWD.QUERY make on their fields. -/
def fwdNamed (b : Bytes) (kinds : Nat) : List Fail := fldFails b [rng 0 1 0 kinds, rsv 1 3, rng 4 4 0 (fwdKindMax (u8 b 0))]

/-- FWD.DELETE (R336). -/
def cmdFwdDelete : Cmd where
  code := 0x0906
  len := len1 8
  gmode := .modify
  block := some 30
  fails := fun r g _ =>
    let b := r.params
    let n := u32 b 4
    fwdNamed b 5 ++ absentBad (fwdObject g (u8 b 0) n).isSome 4 ++
    (match u8 b 0 with
      | 0 => inUse (lowest ((subsOfSource g n).map (·.1) ++ if mhas g.policers (0x10000 + n) then [n] else []))
      | 2 => inUse (lowest ((subsOfLeg g n).map (·.1)))
      | _ => [])
  run := fun r _ s =>
    let n := u32 r.params 4
    okWith (s.stage fun g => match u8 r.params 0 with
      | 0 => { g with relays := mdel g.relays n }
      | 1 => { g with subs := mdel g.subs n }
      | 2 => { g with lines := mdel g.lines n }
      | 3 => { g with policers := mdel g.policers n }
      | 4 => { g with policers := mdel g.policers (0x10000 + n) }
      | _ => { g with queues := mdel g.queues (queueKey n) })

/-- FWD.QUERY (R336). -/
def cmdFwdQuery : Cmd where
  code := 0x0907
  len := len1 8
  gmode := .read
  block := some 30
  fails := fun r g _ => fwdNamed r.params 6 ++ absentState (fwdObject g (u8 r.params 0) (u32 r.params 4)).isSome
  run := fun r g s => okWith s ((fwdObject g (u8 r.params 0) (u32 r.params 4)).getD [])

/-- The code of a subscription's state (R337). -/
def SubState.code : SubState → Nat
  | .waitKey => 0
  | .forwarding => 1
  | .paused => 2
  | .sourceLost => 3

/-- FWD.SUB_STATS (R337). -/
def cmdFwdSubStats : Cmd where
  code := 0x0908
  len := len1 4
  block := some 30
  fails := fun r _ s =>
    fldFails r.params [rng 0 2 0 32767, rng 2 1 0 1, rsv 3 1] ++ absentState (mhas s.gens.active.subs (u16 r.params 0))
  run := fun r _ s =>
    let n := u16 r.params 0
    let g := s.gens.active
    let b := mgetD g.subs n []
    let f := s.seen.fwd
    let x := f.sub n
    let line := mgetD g.lines (u16 b 2) []
    let l := f.line (u16 b 2)
    let m := fun o => mgetD x.stats o 0
    let d := block 64 ([0, 0xC, 0x10, 0x14, 0x18, 0x1C].map (fun o => (o, 4, m o)) ++
      [(4, 8, m 4), (0x20, 4, x.rrLost), (0x24, 4, x.rrJitter), (0x28, 4, x.rtt), (0x2C, 1, x.state.code), (0x2D, 1, x.rung),
        (0x2E, 1, x.target), (0x30, 4, rungRate f g (u16 b 4) x.rung line / 1000), (0x34, 4, lineAvail line l / 1000),
        (0x38, 4, lineQueued l), (0x3C, 2, m 0x3C), (0x3E, 2, m 0x3E)])
    okWith (if u8 r.params 2 = 1 then
      s.clearSeen (fun b rt => { rt with fwd := { rt.fwd with subs := mupd rt.fwd.subs n fun x =>
        { x with stats := lessSeen x.stats (mgetD b.fwd.subs n {}).stats } } })
      else s) d

/-- FWD.PORT_STATS (R338). -/
def cmdFwdPortStats : Cmd where
  code := 0x0909
  len := len1 4
  block := some 30
  fails := fun r _ _ => fldFails r.params [rng 0 1 0 3, rng 1 1 0 1, rsv 2 2]
  run := fun r _ s =>
    let p := u8 r.params 0
    let f := s.seen.fwd
    let m := f.stats.filter fun e => e.1 / 256 == p
    let q := (mgetD f.ports p {}).queues
    let d := block 80 ((m.map fun e => (e.1 % 256, if e.1 % 256 < 0x10 then 8 else 4, e.2)) ++
      (List.range 8).map fun i => (0x30 + 4 * i, 4, queuedBytes (mgetD q i [])))
    okWith (if u8 r.params 1 = 1 then
      s.clearSeen (fun b rt => { rt with fwd := { rt.fwd with
        stats := clearMax (fun k => k % 256 == 0x24) (b.fwd.stats.filter fun e => e.1 / 256 == p) rt.fwd.stats } })
      else s) d

def execFwdRelaySet (r : Request) (s : State) : Host.Outcome State Fault Refusal := execCmd cmdFwdRelaySet r s
def execFwdSubSet (r : Request) (s : State) : Host.Outcome State Fault Refusal := execCmd cmdFwdSubSet r s
def execFwdLineSet (r : Request) (s : State) : Host.Outcome State Fault Refusal := execCmd cmdFwdLineSet r s
def execFwdPolicerSet (r : Request) (s : State) : Host.Outcome State Fault Refusal := execCmd cmdFwdPolicerSet r s
def execFwdQueueSet (r : Request) (s : State) : Host.Outcome State Fault Refusal := execCmd cmdFwdQueueSet r s
def execFwdColourMap (r : Request) (s : State) : Host.Outcome State Fault Refusal := execCmd cmdFwdColourMap r s
def execFwdDelete (r : Request) (s : State) : Host.Outcome State Fault Refusal := execCmd cmdFwdDelete r s
def execFwdQuery (r : Request) (s : State) : Host.Outcome State Fault Refusal := execCmd cmdFwdQuery r s
def execFwdSubStats (r : Request) (s : State) : Host.Outcome State Fault Refusal := execCmd cmdFwdSubStats r s
def execFwdPortStats (r : Request) (s : State) : Host.Outcome State Fault Refusal := execCmd cmdFwdPortStats r s

end Sys2Proof.Machine
end

