-- ==== Sys2Proof/Machine/VidCmd.lean ====
section
/-! DEFINITION. The VID commands, and how an encode stream's pictures are laid out (R231, R232, R249 to R257, R260 to R267). -/

namespace Sys2Proof.Machine

/-! Levels (R232): Annex A of the standards (log 44). -/

/-- Limits of an H.264 level: macroblocks per picture, per second, and kbit/s of the Main profile. -/
def level264 (l : Nat) : Option (Nat × Nat × Nat) :=
  mget [(10, (99, 1485, 64)), (11, (396, 3000, 192)), (12, (396, 6000, 384)), (13, (396, 11880, 768)), (20, (396, 11880, 2000)),
    (21, (792, 19800, 4000)), (22, (1620, 20250, 4000)), (30, (1620, 40500, 10000)), (31, (3600, 108000, 14000)),
    (32, (5120, 216000, 20000)), (40, (8192, 245760, 20000)), (41, (8192, 245760, 50000)), (42, (8704, 522240, 50000)),
    (50, (22080, 589824, 135000)), (51, (36864, 983040, 240000))] l

/-- Limits of an H.265 level: luma samples per picture, per second, kbit/s of the Main tier and of the High tier, 0 where there is none. -/
def level265 (l : Nat) : Option (Nat × Nat × Nat × Nat) :=
  mget [(30, (36864, 552960, 128, 0)), (60, (122880, 3686400, 1500, 0)), (63, (245760, 7372800, 3000, 0)),
    (90, (552960, 16588800, 6000, 0)), (93, (983040, 33177600, 10000, 0)), (120, (2228224, 66846720, 12000, 30000)),
    (123, (2228224, 133693440, 20000, 50000)), (150, (8912896, 267386880, 25000, 100000)),
    (153, (8912896, 534773760, 40000, 160000))] l

/-- The limits of a stream's level: luma samples per picture, per second, kbit/s. -/
def levelLimits (b : Bytes) : Option (Nat × Nat × Nat) :=
  let c := u8 b 3
  if c < 5 then (level264 (u8 b 0xB)).map fun l => (l.1 * 256, l.2.1 * 256, if c = 2 ∨ c = 4 then l.2.2 * 5 / 4 else l.2.2)
  else match level265 (u8 b 0xB) with
    | some l => if bit (u8 b 0x12) 4 then (if l.2.2.2 = 0 then none else some (l.1, l.2.1, l.2.2.2)) else some (l.1, l.2.1, l.2.2.1)
    | none => none

/-! Rows, slices and floor costs (R252, R253, R256). -/

/-- Height of a row of a codec: a macroblock row or a CTB row. -/
def rowHeight (codec : Nat) : Nat := if codec < 5 then 16 else 32

/-- Rows of each spatial layer, lowest first, each with its width in 16-pixel units (R253). -/
def layerRows (b : Bytes) : List (Nat × Nat) :=
  (List.range (u8 b 0xD)).reverse.map fun i =>
    (ceilDiv (layerDim (u16 b 6) (u8 b 0xF) i) (rowHeight (u8 b 3)), ceilDiv (layerDim (u16 b 4) (u8 b 0xF) i) 16)

/-- Bits of a floor row at a width (R253). -/
def floorRowBits (codec w : Nat) (intra : Bool) : Nat := (if intra then if codec < 5 then 12 * w else 16 * w else 2 * w) + 24

/-- The bound of a slice header (R253). -/
def headerBound (codec : Nat) : Nat := if codec < 5 then 160 else 200

/-- The slices of an access unit in coding order: spatial layer and rows (R250, R256). -/
def sliceTable (b : Bytes) : List (Nat × Nat) :=
  (layerRows b).zipIdx.flatMap fun l =>
    (List.range (ceilDiv l.1.1 (u8 b 0x11))).map fun k => (l.2, Nat.min (u8 b 0x11) (l.1.1 - k * u8 b 0x11))

/-- The floor bits of each row of an access unit in coding order. -/
def floorRows (b : Bytes) (intra : Bool) : List Nat :=
  (layerRows b).flatMap fun l => List.replicate l.1 (floorRowBits (u8 b 3) l.2 intra)

/-- The floor cost of a whole picture (R255). -/
def floorCost (b : Bytes) (intra : Bool) : Nat := sum (floorRows b intra) + (sliceTable b).length * headerBound (u8 b 3)

/-- Bits of the coded-picture buffer (R252). -/
def cpbBits (b : Bytes) : Nat := u16 b 0x18 * u32 b 0x14

/-- Bits that have arrived at an instant after A, at the stream's rate (R252). -/
def arrivedBits (b : Bytes) (t : Time) : Nat := u32 b 0x14 * t / tMs

/-- Fullness of the coded-picture buffer at an instant after A (R252). -/
def fullnessAt (b : Bytes) (x : Vid) (t : Time) : Nat :=
  Nat.min (cpbBits b) (match x.cpb with
    | none => u16 b 0x1A * u32 b 0x14 + arrivedBits b t
    | some (f, u) => f + (arrivedBits b t - arrivedBits b u))

/-- The instant of picture i after A, before it is taken to a boundary (R249). -/
def pictureOffset (i rate : Nat) : Time := ceilDiv (i * 1000 * tS) (Nat.max 1 rate)

/-! VID.SET. -/

/-- Fields of VID.SET in range (R261). -/
def vidFlds (b : Bytes) : List Fld :=
  let even := fun lo hi v => decide (lo ≤ v) && decide (v ≤ hi) && v % 2 == 0
  [rng 0 2 0 4095, rng 2 1 0 1, rng 3 1 0 6, (4, 2, even 64 4096), (6, 2, even 64 2304), rng 8 2 1000 60000, oneOf 0xA 1 [8, 10],
    (if u8 b 3 < 5 then rng 0xB 1 10 51 else rng 0xB 1 30 153), rng 0xC 1 1 16, rng 0xD 1 1 3, rng 0xE 1 1 4, rng 0xF 1 0 1, rng 0x10 1 0 1,
    rng 0x11 1 1 255, msk 0x12 1 0x1F, rng 0x13 1 0 1, rng 0x14 4 64 300000, rng 0x18 2 100 4000, rng 0x1A 2 50 4000, rng 0x1C 2 0 3600,
    rng 0x1E 2 0 10000, rng 0x20 1 0 51, rng 0x21 1 0 51, rng 0x22 2 0 500, rng 0x24 2 10 500,
    (0x26, 2, fun v => v == 0 || (100 ≤ v && v ≤ 60000)), rsv 0x2B 1, rng 0x2E 2 1 3600, rng 0x30 1 0 3, oneOf 0x31 1 [4, 6], rng 0x32 1 0 63,
    rng 0x33 1 96 127, rng 0x54 2 1024 65535, slotFld 0x5C, slotFld 0x60, rng 0x64 2 0 4094, rng 0x66 1 5 255, msk 0x67 1 3,
    rng 0x68 2 200 1400, rsv 0x6A 6] ++
  (if u8 b 2 = 1 then [rng 0x2A 1 0 1, rng 0x2C 2 0 (if u8 b 0x2A = 0 then 63 else 4095)] else [])

/-- Relations among the fields (R231, R232, R255, R262). -/
def vidRelations (b : Bytes) : List Fail :=
  let c := u8 b 3
  let w := u16 b 4; let h := u16 b 6; let enc := u8 b 2 == 1
  badIf (u8 b 0xA == 10 && c != 6) 0xA ++ badIf (decide (1 < u8 b 0xD) && c != 3 && c != 4) 0xD ++
  badIf (decide (1 < u8 b 0xE) && decide (c < 3)) 0xE ++
  (match levelLimits b with
    | none => badIf true (if c < 5 ∨ !bit (u8 b 0x12) 4 ∨ (level265 (u8 b 0xB)).isNone then 0xB else 0x12)
    | some l =>
      badIf (decide (l.1 < w * h) || decide (l.2.1 * 1000 < w * h * u16 b 8)) 0xB ++ badIf (enc && decide (l.2.2 < u32 b 0x14)) 0x14) ++
  badIf (decide (500000 < vidCharge b)) (if 1 < u8 b 0xD then 0xF else 8) ++
  badIf (decide (u16 b 0x18 < u16 b 0x1A)) 0x1A ++ badIf (decide (u8 b 0x21 < u8 b 0x20)) 0x21 ++
  badIf (enc && decide (cpbBits b < 2 * floorCost b true)) 0x18 ++
  (if enc then badIf (u16 b 0x22 != 100) 0x22 ++ badIf (u16 b 0x24 != 100) 0x24
    else badIf (u32 b 0x14 != 4000) 0x14 ++ badIf (u16 b 0x68 != 1200) 0x68) ++
  addrBad b 0x31 0x34 ++ addrBad b 0x31 0x44 ++ badIf (u16 b 0x56 == 0 && !allZero (slice b 0x44 16)) 0x56

/-- VID.SET (R232, R261, R262, R299). -/
def cmdVidSet : Cmd where
  code := 0x0700
  len := len1 112
  gmode := .modify
  fails := fun r g _ =>
    let b := r.params
    let v := u16 b 0
    let src := u16 b 0x2C
    fldFails b (vidFlds b) ++ vidRelations b ++
    badIf (u8 b 2 == 1 && (if u8 b 0x2A = 0 then !mhas g.outs src
      else src == v || isEncode g src || !mhas g.vids src)) 0x2C ++
    (if mhas g.relays v then [(.objectInUse, v)] else []) ++ heldLocal g (vidLocal b) (some v) none false ++
    slotClash g 1 v true (u32 b 0x5C) ++ slotClash g 1 v false (u32 b 0x60)
  run := fun r _ s => okWith (s.stage fun g => { g with vids := mset g.vids (u16 r.params 0) (slice r.params 0 112) })

/-- What names a stream: layers' layouts, encode streams, subscriptions, its selection (R263, R393). -/
def vidUser (g : Generation) (v : Nat) : Option Nat :=
  lowest ((g.layers.filter fun e => u8 e.2 4 == 1 && u16 e.2 6 == v).map (fun e => e.1 / 8) ++
    (g.vids.filter fun e => u8 e.2 2 == 1 && u8 e.2 0x2A == 1 && u16 e.2 0x2C == v).map (·.1) ++ (subsOfSource g v).map (·.1) ++ if mhas g.selections (65536 + v) then [v] else [])

/-- VID.DELETE (R263). -/
def cmdVidDelete : Cmd where
  code := 0x0701
  len := len1 4
  gmode := .modify
  fails := fun r g _ =>
    fldFails r.params [rng 0 2 0 4095, rsv 2 2] ++ absentBad (mhas g.vids (u16 r.params 0)) 0 ++ inUse (vidUser g (u16 r.params 0))
  run := fun r _ s =>
    okWith (s.stage fun g => { g with vids := mdel g.vids (u16 r.params 0), paramsets := mdel g.paramsets (u16 r.params 0) })

/-- VID.QUERY (R263). -/
def cmdVidQuery : Cmd where
  code := 0x0702
  len := len1 4
  gmode := .read
  fails := fun r g _ => fldFails r.params [rng 0 2 0 4095, rsv 2 2] ++ absentState (mhas g.vids (u16 r.params 0))
  run := fun r g s => okWith s (slice (mgetD g.vids (u16 r.params 0) []) 0 112)

def modVid (v : Nat) (f : Vid → Vid) (s : State) : State := s.modVideo fun x => { x with vids := mupd x.vids v f }
def State.vid (s : State) (v : Nat) : Vid := mgetD s.rt.video.vids v {}

/-- A VID.STATS counter by response offset. -/
def bumpVid (v off k : Nat) (s : State) : State := modVid v (fun x => { x with stats := bump x.stats off k }) s

/-- The code of a stream's state in VID.STATS (R264). -/
def vidStateCode (encode orphan : Bool) (x : Vid) : Nat :=
  if orphan then 5
  else if encode then 1
  else match x.state with
    | .waiting => 0
    | .clean => 1
    | .tainted => 2
    | .timedOut => 3
    | .unsupported => 4

/-- VID.STATS (R264). -/
def cmdVidStats : Cmd where
  code := 0x0703
  len := len1 4
  fails := fun r _ s =>
    fldFails r.params [rng 0 2 0 4095, rng 2 1 0 1, rsv 3 1] ++ absentState (mhas s.gens.active.vids (u16 r.params 0))
  run := fun r _ s =>
    let v := u16 r.params 0
    let x := mgetD s.seen.video.vids v {}
    let fullness := fullnessAt (mgetD s.seenGen.vids v []) x (s.seenAt - x.start)
    let enc := isEncode s.gens.active v
    let d := block 64 ((x.stats.map fun e => (e.1, 4, e.2)) ++
      [(0x34, 4, if enc then fullness else 0), (0x38, 1, x.meanQp),
        (0x39, 1, vidStateCode enc (s.seen.fault.orphans.contains (0x10000 + v)) x)])
    okWith (if u8 r.params 2 = 1 then
      s.clearSeen (fun b rt => { rt with video := { rt.video with vids := mupd rt.video.vids v fun x =>
        { x with stats := lessSeen x.stats (mgetD b.video.vids v {}).stats } } })
      else s) d

/-! Key requests of a decode stream (R248). -/

/-- A decode stream's PLI, or FIR by its flag, goes to its sender. -/
def sendVidKey (v : Nat) (b : Bytes) (s : State) : State :=
  let x := s.vid v
  let media := x.rtp.ssrc.getD 0
  let fir := bit (u8 b 0x12) 1
  let p := if fir then firPacket x.own media x.firSeq else pliPacket x.own media
  let up := s.up
  let s := bumpVid v 0x24 1 (modVid v (fun x => { x with
    keyAt := some up, merged := false, firSeq := if fir then (x.firSeq + 1) % 256 else x.firSeq }) s)
  let mux := bit (u8 b 0x67) 0
  sendMedia (u32 b 0x5C) true false false
    { flow := 0x3000 + v, port := u8 b 0x30, ip := u8 b 0x31, dscp := u8 b 0x32, src := slice b 0x34 16, dst := slice b 0x44 16
      vlan := u16 b 0x64, sport := u16 b 0x54 + b2n (!mux), dport := u16 b 0x56 + b2n (!mux)
      packet := rtcpOut (0x3000 + v) (compound x.own none [] (cnameVid v) p) } s

/-- A request for a key picture, merged within the key interval. -/
def requestVidKey (v : Nat) (b : Bytes) (s : State) : State :=
  match (s.vid v).keyAt with
  | some t => if s.up < t + u16 b 0x1E * tMs then modVid v (fun x => { x with merged := true }) s else sendVidKey v b s
  | none => sendVidKey v b s

/-- KEY_INTERVAL_END: merged requests are sent (R248). -/
def execKeyIntervalEnd (t : Time) (v : Fin 4096) (s : State) : Host.Outcome State Fault Refusal :=
  let s := s.advance t
  match mget s.gens.active.vids v.val, (s.vid v.val).keyAt with
  | some b, some k =>
    if (s.vid v.val).merged ∧ k + u16 b 0x1E * tMs ≤ s.up then done (sendVidKey v.val b s) else done s
  | _, _ => done s

/-- VID.KEYFRAME (R265). -/
def cmdVidKeyframe : Cmd where
  code := 0x0704
  len := len1 4
  fails := fun r _ s => fldFails r.params [rng 0 2 0 4095, rsv 2 2] ++ absentState (mhas s.gens.active.vids (u16 r.params 0))
  run := fun r _ s =>
    let v := u16 r.params 0
    let b := mgetD s.gens.active.vids v []
    okWith (if u8 b 2 = 1 then encodeKey v 2 s else requestVidKey v b s)

/-- The length that a VID.PARAMSETS needs (R62). -/
def paramsetsLen (b : Bytes) (l : Nat) : Option Nat :=
  if l < 4 then some 4 else if 964 < l then some 964 else if l = 4 + u16 b 2 then none else some (4 + u16 b 2)

/-- The kind of a parameter set NAL unit: its type; none for another unit (R266). -/
def setKind (h265 : Bool) (n : Bytes) : Option Nat :=
  let k := if h265 then nal265 n else nal264 n
  if n.isEmpty then none else if k.param then some k.type else none

/-- The NAL units of a VID.PARAMSETS; none where one is malformed or is no parameter set. -/
def paramUnits (h265 : Bool) (b : Bytes) : Option (List (Nat × Nat × Bytes)) :=
  let d := slice b 4 (u16 b 2)
  let swap := fun (l : Bytes) => (splitLe (l.length + 1) l)
  match swap d with
  | none => none
  | some l => l.mapM fun n => (setKind h265 n).map fun k => (k, Config.setId h265 n, n)
where
  /-- Units each preceded by a length in 2 bytes, little-endian (R8). -/
  splitLe : Nat → Bytes → Option (List Bytes)
    | 0, _ => none
    | k + 1, b =>
      if b.isEmpty then some []
      else
        let n := u16 b 0
        if b.length < 2 + n ∨ n = 0 then none else (splitLe k (b.drop (2 + n))).map fun l => (b.drop 2).take n :: l

/-- VID.PARAMSETS (R266). -/
def cmdVidParamsets : Cmd where
  code := 0x0705
  len := paramsetsLen
  gmode := .modify
  fails := fun r g _ =>
    let v := u16 r.params 0
    fldFails r.params [rng 0 2 0 4095] ++ badIf (!mhas g.vids v || isEncode g v) 0 ++
    badIf (mhas g.vids v && (paramUnits (isH265 g v) r.params).isNone) 4
  run := fun r _ s => okWith (s.stage fun g =>
    { g with paramsets := mset g.paramsets (u16 r.params 0) (slice r.params 0 (4 + u16 r.params 2)) })

/-! Pictures of a decode stream (R239). -/

/-- The current picture of a decode stream at a time, with its presentation time (R239, R242, R153). -/
def currentAt (b : Bytes) (orphan : Bool) (x : Vid) (t : Time) : Picture × Option Time :=
  let grey : Picture := { w := u16 b 4, h := u16 b 6, depth := u8 b 0xA, concealed := true }
  if x.state = .unsupported then (grey, x.currentDue)
  else
    let ready := x.pics.filter fun d => decide (d.due ≤ t) && (match x.currentDue with
      | some c => decide (c ≤ d.due)
      | none => true)
    let best := ready.foldl (fun (a : Option Decoded) d => match a with
      | none => some d
      | some e => if e.due ≤ d.due then some d else some e) none
    let r := match best with
      | some d => (d.pic, some d.due)
      | none => if x.currentDue.isNone then (grey, none) else (x.current, x.currentDue)
    if orphan then ({ r.1 with concealed := true }, r.2) else r

/-- The current picture of a stream now. -/
def State.currentPicture (s : State) (v : Nat) : Picture :=
  (currentAt (mgetD s.gens.active.vids v []) (s.rt.fault.orphans.contains (0x10000 + v)) (s.vid v) s.now).1

/-- A picture's samples as VID.GRAB writes them: Y, Cb, Cr, packed rows (R267). -/
def pictureOctets (p : Picture) : Bytes :=
  let put := fun v => if p.depth = 8 then le 1 v else le 2 v
  let area := fun plane w h => (List.range h).flatMap fun y => (List.range w).flatMap fun x => put (p.sample plane x y)
  area 0 p.w p.h ++ area 1 (p.w / 2) (p.h / 2) ++ area 2 (p.w / 2) (p.h / 2)

/-- Octets of a picture in that layout. -/
def pictureLength (p : Picture) : Nat := (p.w * p.h + 2 * (p.w / 2 * (p.h / 2))) * if p.depth = 8 then 1 else 2

/-- The picture that a VID.GRAB of a stream copies. -/
def grabbed (s : State) (v : Nat) : Picture := if isEncode s.gens.active v then (s.vid v).source else s.currentPicture v

/-- The buffer of a decode stream's picture, as its holders name it. -/
def heldBuffer (v : Nat) (p : Picture) : Option (Nat × Nat) := p.id.map fun i => (0x10000 + v, i)

/-- A buffer is held as an immutable input, or freed by one consumer (R24). -/
def holdBuffer (on : Bool) (h : Option (Nat × Nat)) (s : State) : State :=
  let upd := fun (i : Nat) (l : List Nat) => if on then l ++ [i] else l.erase i
  match h with
  | none => s
  | some (o, i) =>
    if o < 0x10000 then s.modMallow fun m => { m with outs := mupd m.outs o fun r => { r with held := upd i r.held } }
    else modVid (o - 0x10000) (fun x => { x with held := upd i x.held }) s

/-- VID.GRAB (R267): the picture is fixed when the command executes. -/
def cmdVidGrab : Cmd where
  code := 0x0706
  len := len1 16
  fails := fun r _ s =>
    let b := r.params
    fldFails b [rng 0 2 0 4095, rsv 2 2, rng 4 4 4096 33554432, (8, 8, fun v => v % 64 == 0)] ++
    badIf (!inHwin s.rt.dram (u64 b 8) (u32 b 4)) 8 ++ absentState (mhas s.gens.active.vids (u16 b 0)) ++
    failIf (decide (u32 b 4 < pictureLength (grabbed s (u16 b 0)))) .noResource
  run := fun r _ s =>
    let v := u16 r.params 0
    let p := grabbed s v
    let h := if isEncode s.gens.active v then none else heldBuffer v p
    let s := (holdBuffer true h (s.addPending 0x0706 r.slot.val r)).modVideo fun x => { x with grabs := x.grabs ++ [(r.slot.val, p, h)] }
    { status := .pending, data := block 16 [(0, 2, p.w), (2, 2, p.h), (4, 4, pictureLength p)], st := s }

/-- VID_GRAB_DONE: the copy is in HWIN (R267). -/
def execVidGrabDone (t : Time) (slot : Fin 64) (s : State) : Host.Outcome State Fault Refusal :=
  let s := s.advance t
  match s.findPending 0x0706 slot.val, s.rt.video.grabs.find? fun g => g.1 == slot.val with
  | some p, some g =>
    let s := holdBuffer false g.2.2 (s.modVideo fun x => { x with grabs := x.grabs.erase g })
    done ((s.dramWrite (u64 p.params 8) (pictureOctets g.2.1)).endPending p .ok 0)
  | _, _ => done s

def execVidSet (r : Request) (s : State) : Host.Outcome State Fault Refusal := execCmd cmdVidSet r s
def execVidDelete (r : Request) (s : State) : Host.Outcome State Fault Refusal := execCmd cmdVidDelete r s
def execVidQuery (r : Request) (s : State) : Host.Outcome State Fault Refusal := execCmd cmdVidQuery r s
def execVidStats (r : Request) (s : State) : Host.Outcome State Fault Refusal := execCmd cmdVidStats r s
def execVidKeyframe (r : Request) (s : State) : Host.Outcome State Fault Refusal := execCmd cmdVidKeyframe r s
def execVidParamsets (r : Request) (s : State) : Host.Outcome State Fault Refusal := execCmd cmdVidParamsets r s
def execVidGrab (r : Request) (s : State) : Host.Outcome State Fault Refusal := execCmd cmdVidGrab r s

end Sys2Proof.Machine
end

