-- ==== Sys2Proof/Machine/VidRx.lean ====
section
/-! DEFINITION. The receive side of video streams: assembly, decoding, and work that outlives its configuration (R98, R233, R236 to R248). -/

namespace Sys2Proof.Machine

/-! Receiving (R236 to R238). -/

/-- A restart: the assembly buffer empties, the anchor is dropped, the stream waits; what it decoded names no reference of the new source
(R237). -/
def Vid.restart (x : Vid) : Vid :=
  { x with
    state := .waiting, assembling := [], complete := [], doneTs := none, doneMark := none, anchor := none, lastTs := none, lateRun := 0
    lateMost := 0, refs := x.refs.map fun r => { r with marked := false } }

/-- A timestamp extended past 2³² relative to the last (R239). -/
def extendTs (last : Option (Nat × Int)) (ts : Nat) : Int :=
  match last with
  | none => ts
  | some (raw, ext) => ext + signed 32 ((ts + 4294967296 - raw) % 4294967296)

/-- A packet enters its place by sequence number; a repeated number is dropped. -/
def insertSeq (p : Nat × Bool × Bytes) : List (Nat × Bool × Bytes) → List (Nat × Bool × Bytes)
  | [] => [p]
  | q :: l =>
    if p.1 = q.1 then q :: l
    else if 32768 ≤ seqAhead p.1 q.1 then p :: q :: l else q :: insertSeq p l

/-- The sequence number of a picture's marker. -/
def Assembly.marker (a : Assembly) : Option Nat := (a.packets.find? fun p => p.2.1).map (·.1)

/-- Whether a picture is complete by its marker: every number from its first packet to the marker is there (R238). Its first packet follows
the marker of the picture before it; where that is not known it is the first one that arrived, if that starts a NAL unit (log 184). -/
def Assembly.marked (h265 svc : Bool) (a : Assembly) : Bool :=
  match a.packets, a.marker with
  | (low, _, p) :: _, some m =>
    let starts : Bool := match nalsOf h265 svc p with
      | some [n] => decide (n.frag ≤ 1)
      | _ => true
    let first := match a.from_ with
      | some f => f
      | none => low
    (a.from_.isSome || starts) &&
      (a.packets.filter fun p => decide (seqAhead p.1 first ≤ seqAhead m first)).length == seqAhead m first + 1
  | _, _ => false

/-- Parameter sets in band replace loaded ones of their kind and identifier (R236). -/
def takeSets (h265 : Bool) (l : List Nal) (x : Vid) : Vid :=
  l.foldl (fun x n =>
    if n.param then
      let e := (n.type, Config.setId h265 n.bytes, n.bytes)
      { x with sets := (x.sets.filter fun o => !(o.1 == e.1 && o.2.1 == e.2.1)) ++ [e] }
    else x) x

/-- The NAL units that a stream takes from a picture's packets: parameter sets, and layers up to the configured top ones (R236). -/
def takenNals (b : Bytes) (h265 svc : Bool) (ps : List (Nat × Bool × Bytes)) : List Nal :=
  ((wholeUnits h265 svc none ps).map fun n => if h265 then nal265 n else nal264 n).filter fun n =>
    n.param || (decide (n.s < u8 b 0xD) && decide (n.t < u8 b 0xE) && n.layer == 0)

/-- A complete picture: its packets give way to its NAL units. -/
def finishPicture (b : Bytes) (h265 svc : Bool) (a : Assembly) (x : Vid) : Vid :=
  let l := takenNals b h265 svc a.packets
  let y := takeSets h265 l x
  let newest : Bool := match y.doneTs with
    | some t => decide (t < a.ts)
    | none => true
  let a' := { a with packets := [], units := (l.filter (·.vcl)).map (·.bytes) }
  { y with
    complete := (y.complete.filter fun c => decide (c.ts < a.ts)) ++ [a'] ++ (y.complete.filter fun c => decide (a.ts ≤ c.ts))
    doneTs := if newest then some a.ts else y.doneTs, doneMark := if newest then a.marker else y.doneMark }

/-- Pictures that are complete leave assembly, and each is work for the stream's engine (R228, R238). -/
def finishPictures (v : Nat) (b : Bytes) (full : Assembly → Bool) (s : State) : State :=
  let h265 := decide (5 ≤ u8 b 3)
  let svc := u8 b 3 == 3 || u8 b 3 == 4
  let out := (s.vid v).assembling.filter full
  let s := modVid v (fun x => out.foldl (fun x a => finishPicture b h265 svc a x)
    { x with assembling := x.assembling.filter fun a => !full a }) s
  let i := engineItem 5 (mgetD s.gens.active.vidAt v 0xFF) (0x3000 + v) v 0
  out.foldl (fun s _ => enqueueItem 30 i.descriptor none s) s

/-- A packet of the bound source: a new source or the end of a time-out restarts the stream, and reception is counted (R237, R242,
R248). -/
def countPacket (v : Nat) (p : RtpIn) (changed : Bool) (arrived : Time) (s : State) : State :=
  let up := s.up
  let s := if changed then (modVid v Vid.restart s).post 0x0786 1 v p.ssrc else s
  let s := if (s.vid v).state = .timedOut then
      (modVid v Vid.restart s).post 0x0785 1 v ((up - (s.vid v).rtp.lastValid) / tMs)
    else s
  let transit : Int := (arrived : Int) - (p.ts : Int) * tMs / 90
  let ts := extendTs (s.vid v).lastTs p.ts
  modVid v (fun x => { x with
    rtp := { x.rtp.count p.seq transit with lastValid := up }, lastTs := some (p.ts, ts) }) (bumpVid v 0x28 1 s)

/-- A packet joins the picture of its timestamp; earlier pictures, and a picture whose last packet is here, are finished (R238). -/
def assemble (v : Nat) (b : Bytes) (p : RtpIn) (arrived : Time) (ts : Int) (s : State) : State :=
  let up := s.up
  let h265 := decide (5 ≤ u8 b 3)
  let svc := u8 b 3 == 3 || u8 b 3 == 4
  let s := finishPictures v b (fun q => decide (q.ts < ts)) s
  let join := fun (q : Assembly) => { q with packets := insertSeq (p.seq, p.marker, p.payload) q.packets }
  let s := modVid v (fun x =>
    if x.assembling.any fun q => q.ts == ts then { x with assembling := x.assembling.map fun q => if q.ts == ts then join q else q }
    else { x with assembling := x.assembling ++
      [join { ts := ts, first := arrived, firstUp := up, from_ := x.doneMark.map fun m => (m + 1) % 65536 }] }) s
  finishPictures v b (Assembly.marked h265 svc) s

/-- A video packet is checked as R166 and R167 check a leg's, counted, and joins its picture, or is discarded (R236 to R238). -/
def videoPacket (v : Nat) (b : Bytes) (arrived : Time) (f : Frame) (s : State) : State :=
  let p := frameRtp f
  let strict := bit (u8 b 0x67) 1 && !(f.src == slice b 0x44 16 && f.sport.toNat == u16 b 0x56)
  if strict ∨ p.version ≠ 2 ∨ p.pt ≠ u8 b 0x33 then bumpVid v 0x2C 1 s
  else
    let a := (s.vid v).rtp.accept (u32 b 0x58) p.ssrc
    let s := modVid v (fun x => { x with rtp := a.2.2 }) s
    if !a.1 then bumpVid v 0x2C 1 s
    else
      let s := countPacket v p a.2.1 arrived s
      let ts := ((s.vid v).lastTs.map (·.2)).getD 0
      let late : Bool := match (s.vid v).doneTs with
        | some d => decide (ts ≤ d)
        | none => false
      if (nalsOf (decide (5 ≤ u8 b 3)) (u8 b 3 == 3 || u8 b 3 == 4) p.payload).isNone then bumpVid v 0x2C 1 s
      else if late then bumpVid v 0x18 1 s
      else assemble v b p arrived ts s

/-- VIDEO_RTP_RECEIVE: a packet classified to a decode stream, from its inbox (R236). -/
def execVideoRtpReceive (t : Time) (v : Fin 4096) (s : State) : Host.Outcome State Fault Refusal :=
  let s := s.advance t
  match if s.stalls 30 then none else mget s.gens.active.vids v.val with
  | none => done s
  | some b =>
    match popInbox (0x3000 + v.val) s with
    | (some (a, f), s) => if u8 b 2 = 0 then done (videoPacket v.val b a f s) else done s
    | (none, s) => done s

/-- ASSEMBLE_TIMEOUT: a picture is complete when its timeout has passed since its first packet (R238). -/
def execAssembleTimeout (t : Time) (v : Fin 4096) (s : State) : Host.Outcome State Fault Refusal :=
  let s := s.advance t
  let b := mgetD s.gens.active.vids v.val []
  let up := s.up
  done (finishPictures v.val b (fun q => decide (q.firstUp + u16 b 0x24 * tMs ≤ up)) s)

/-- VID_MEDIA_TIMEOUT: no valid packet for the media timeout (R242). -/
def execVidMediaTimeout (t : Time) (v : Fin 4096) (s : State) : Host.Outcome State Fault Refusal :=
  let s := s.advance t
  let b := mgetD s.gens.active.vids v.val []
  let x := s.vid v.val
  let m := u16 b 0x26
  if (x.state = .clean ∨ x.state = .tainted) ∧ m ≠ 0 ∧ x.rtp.lastValid + m * tMs ≤ s.up then
    done ((modVid v.val (fun x => { x with state := .timedOut }) s).post 0x0784 2 v.val 0)
  else done s

/-! Decoding (R239 to R247). -/

/-- Buffers of a decode stream (R234). -/
def vidBuffers (b : Bytes) : Nat := u8 b 0xC + 2 + ceilDiv (u16 b 0x22 * u16 b 8) 1000000

/-- Luma samples that a stream may decode in a window: 110 % of its charge over 100 ms (R241). -/
def windowAllowance (b : Bytes) : Nat := vidCharge b * 110

/-- An event at most once per second, from the elapsed instant of the last. -/
def everySecond (last : Option Time) (up : Time) : Bool :=
  match last with
  | some t => decide (t + tS ≤ up)
  | none => true

/-- VID.OVERRUN (R241). -/
def overrun (v : Nat) (s : State) : State :=
  let up := s.up
  let s := bumpVid v 0x14 1 (modVid v (fun x => { x with overruns := x.overruns + 1 }) s)
  let x := s.vid v
  if everySecond x.overrunAt up then
    (modVid v (fun x => { x with overrunAt := some up, overruns := 0 }) s).post 0x0783 2 v x.overruns
  else s

/-- VID.CONCEALED while areas are counted (R247). -/
def concealedAreas (v n : Nat) (s : State) : State :=
  if n = 0 then s
  else
    let up := s.up
    let s := bumpVid v 8 n (modVid v (fun x => { x with concealedAreas := x.concealedAreas + n }) s)
    let x := s.vid v
    if everySecond x.concealedAt up then
      (modVid v (fun x => { x with concealedAt := some up, concealedAreas := 0 }) s).post 0x0780 1 v x.concealedAreas
    else s

/-- Presentation time of a timestamp under an anchor (R239). -/
def presentation (b : Bytes) (a : Time × Int) (ts : Int) : Time :=
  ((a.1 : Int) + (u16 b 0x22 * tMs : Nat) + (ts - a.2) * (tMs : Nat) / 90).toNat

/-- Pictures whose time has come become current; earlier ones free their buffers (R239). -/
def settle (v : Nat) (b : Bytes) (s : State) : State :=
  let r := currentAt b false (s.vid v) s.now
  modVid v (fun x => { x with
    current := r.1, currentDue := r.2
    pics := x.pics.filter fun d => match r.2 with
      | some c => decide (c < d.due)
      | none => true }) s

/-- Buffers that consumers keep after their pictures are no longer due (R24). -/
def Vid.keptBuffers (x : Vid) : Nat := (x.held.eraseDups.filter fun i => x.pics.all fun d => d.pic.id != some i).length

/-- A picture that completes after its time is counted, and enters the run of R240. -/
def countLate (v : Nat) (lateness : Time) (s : State) : State :=
  let late := decide (0 < lateness)
  modVid v (fun x => { x with
    lateRun := if late then x.lateRun + 1 else 0, lateMost := if late then Nat.max x.lateMost lateness else 0 })
    (if late then bumpVid v 0x18 1 s else s)

/-- Eight late pictures in a row move the anchor (R240). -/
def moveAnchor (v : Nat) (s : State) : State :=
  let x := s.vid v
  if 8 ≤ x.lateRun then
    let ms := ceilDiv x.lateMost tMs
    (modVid v (fun x => { x with
      lateRun := 0, lateMost := 0, anchor := x.anchor.map fun a => (a.1 + ms * tMs, a.2)
      pics := x.pics.map fun q => { q with due := q.due + ms * tMs } }) s).post 0x078B 1 v ms
  else s

/-- A completed picture takes its place: late ones are counted, eight in a row move the anchor, one before the current picture frees its
buffer, and the earliest is discarded where no buffer is left (R24, R239, R240). -/
def placePicture (v : Nat) (b : Bytes) (d : Decoded) (s : State) : State :=
  let s := countLate v (s.now - d.due) (settle v b s)
  let x := s.vid v
  let before : Bool := match x.currentDue with
    | some c => decide (d.due < c)
    | none => false
  if before then moveAnchor v s
  else
    let full := decide (vidBuffers b ≤ x.pics.length + x.keptBuffers) && !x.pics.isEmpty
    let pics := if full then x.pics.drop 1 else x.pics
    let s := if full then bumpVid v 0x14 1 s else s
    let pics := (pics.filter fun q => decide (q.due ≤ d.due)) ++ [d] ++ (pics.filter fun q => decide (d.due < q.due))
    moveAnchor v (settle v b (modVid v (fun x => { x with pics := pics }) s))

/-! What a picture's bits give (R231, R233, R243 to R246). -/

/-- Whether a stream of a codec takes a profile (R231). -/
def takesProfile (codec profile : Nat) : Bool :=
  match codec with
  | 0 => profile == 0
  | 1 => profile ≤ 1
  | 2 => profile ≤ 2
  | 3 => profile == 0 || profile == 3
  | 4 => profile ≤ 4
  | 5 => profile == 5
  | _ => profile == 5 || profile == 6

/-- Why a sequence is not decoded, as VID.UNSUPPORTED codes it, the lowest code first; 0 where it is (R233, R268; log 185). -/
def seqReason (b : Bytes) (q : SeqFacts) : Nat :=
  if q.interlaced then 1
  else if q.chroma then 2
  else if q.depth ≠ 8 ∧ ¬ (u8 b 3 = 6 ∧ q.depth = 10) then 3
  else if q.tool ∨ !takesProfile (u8 b 3) q.profile.val then 4
  else if u16 b 4 < q.w ∨ u16 b 6 < q.h then 5
  else if u8 b 0xC < q.buffering then 6
  else 0

/-- The 16 × 16 areas of a row, and of a picture. -/
def areasWide (w : Nat) : Nat := ceilDiv w 16
def areasOf (q : SeqFacts) : Nat := areasWide q.w * ceilDiv q.h 16

/-- The areas that a slice decodes until it ends, and whether it ends early: at its cycle bound, at an area that an earlier slice decoded, at
a write outside the picture's buffer, or at an element out of range (R243, R244). -/
def decodeAreas (total : Nat) (done : List Nat) (bad : Bool) : Nat → Nat → List (Nat × Nat) → List Nat × Bool
  | _, _, [] => ([], bad)
  | n, cycles, (a, c) :: l =>
    if 40000 + 4096 * (n + 1) < cycles + c ∨ done.contains a ∨ total ≤ a then ([], true)
    else
      let r := decodeAreas total done bad (n + 1) (cycles + c) l
      (a :: r.1, r.2)

/-- The areas that a picture's slices decode, and the slices that end early (R244). -/
def decodeSlices (total : Nat) (l : List SliceFacts) : List Nat × Nat :=
  l.foldl (fun r x =>
    let y := decodeAreas total r.1 x.bad 0 0 x.areas
    (r.1 ++ y.1, r.2 + b2n y.2)) ([], 0)

/-- The nearest earlier decoded picture in output order (R245, R246). -/
def Vid.earlier (x : Vid) (due : Time) : Option RefPic :=
  (x.refs.filter fun r => decide (r.due < due)).foldl (fun (a : Option RefPic) r => match a with
    | none => some r
    | some e => if e.due ≤ r.due then some r else some e) none

/-- References that a picture needs and the stream does not hold, or whose read was uncorrectable (R246, R577). -/
def Vid.missing (x : Vid) (refs unread : List Nat) : Nat :=
  (refs.filter fun n => unread.contains n || !x.refs.any fun r => r.marked && r.number == n).length

/-- Decoded pictures after one: those it keeps stay references, and the oldest leave as far as the buffers require. -/
def Vid.keepRefs (b : Bytes) (keeps : List Nat) (r : RefPic) (x : Vid) : List RefPic :=
  let l := (x.refs.map fun q => { q with marked := q.marked && keeps.contains q.number }) ++ [r]
  let spare := l.length - vidBuffers b
  let out := ((l.filter fun q => !q.marked).take spare).map (·.due)
  l.filter fun q => q.marked || !out.contains q.due

/-- What decoding a picture comes to: marked concealed areas, slices ended early, missing references, a reference marked concealed. -/
structure Decoding where
  seq : SeqFacts
  ended : Nat
  areas : List Nat
  missing : Nat
  tainted : Bool

/-- A picture's bits decoded under a sequence; without one every slice names a parameter set that is not there (R243 to R246). Slices whose
NAL units did not arrive whole decode nothing (R238). -/
def decodeBits (b : Bytes) (a : Assembly) (d : DecodeResult) (x : Vid) : Decoding :=
  let known := match d.sps with
    | some q => some q
    | none => x.sequence
  let q := known.getD { w := u16 b 4, h := u16 b 6, depth := u8 b 0xA }
  let slices := (d.slices.take a.units.length).map fun l => if known.isSome then l else { areas := [], bad := true }
  let r := decodeSlices (areasOf q) slices
  { seq := q, ended := r.2, areas := (List.range (areasOf q)).filter fun i => !r.1.contains i, missing := x.missing d.refs d.unread
    tainted := x.refs.any fun r => r.marked && d.refs.contains r.number && r.pic.concealed }

/-- The transition of R242 for a decoded picture, with what it asks for: the state after it, whether the picture is marked, a key request,
and VID.CLEAN. -/
def decodeStep (st : VidState) (rap : Bool) (k : Decoding) : VidState × Bool × Bool × Bool :=
  let damaged := !k.areas.isEmpty || decide (0 < k.missing)
  match st with
  | .clean => if damaged then (.tainted, true, true, false) else (.clean, k.tainted, false, false)
  | .tainted =>
    if rap && !damaged then (.clean, false, false, true) else (.tainted, true, decide (0 < k.missing), false)
  | .unsupported => if rap && !damaged then (.clean, false, false, false) else (.tainted, true, damaged, false)
  | _ => if rap && !damaged then (.clean, false, false, false) else (.tainted, true, true, false)

/-- The samples of a decoded picture: concealed areas are copied from the nearest earlier picture, or mid-grey in a random-access picture or
where there is none (R245). -/
def decodedKind (id : Nat) (rap : Bool) (k : Decoding) (e : Option RefPic) : PicKind :=
  if k.areas.isEmpty then .decoded id
  else .patched id (areasWide k.seq.w) k.areas (match if rap then none else e with
    | some r => r.pic.kind
    | none => .grey)

/-- A picture of a sequence that is not decoded (R233). -/
def notDecoded (v reason : Nat) (s : State) : State :=
  let first := reason ≠ 0 ∧ !(s.vid v).seqBad
  (modVid v (fun x => { x with state := .unsupported, seqBad := true }) (bumpVid v 0x14 1 s)).postIf first 0x0782 2 v reason

/-- Missing references are counted and reported (R246). -/
def missingRefs (v n : Nat) (grey : Bool) (s : State) : State :=
  (List.range n).foldl (fun s _ => (bumpVid v 0xC 1 s).post 0x0781 2 v (b2n grey)) s

/-- A complete picture is decoded (R233, R241 to R248); in TIMED_OUT none is (R242). -/
def decodePicture (v : Nat) (b : Bytes) (a : Assembly) (d : DecodeResult) (s : State) : State :=
  let s := modVid v (fun x => { x with sequence := d.sps.or x.sequence, seqBad := x.seqBad && d.sps.isNone }) s
  let x := s.vid v
  let w := s.now / (100 * tMs)
  let used := if x.window.1 = w then x.window.2 else 0
  let share := layerShare (u8 b 0xD) (u8 b 0xF)
  let reason := match d.sps with
    | some q => seqReason b q
    | none => 0
  let k := decodeBits b a d x
  let size := k.seq.w * k.seq.h * share.1 / share.2
  if x.state = .timedOut then s
  else if reason ≠ 0 ∨ (x.state = .unsupported ∧ d.sps.isNone) then notDecoded v reason s
  else if windowAllowance b < used + size then overrun v s
  else
    let anchor := x.anchor.getD (a.first, a.ts)
    let due := presentation b anchor a.ts
    let e := x.earlier due
    let n := decodeStep x.state d.rap k
    let id := s.rt.video.pictures + 1
    let s := s.modVideo fun y => { y with pictures := id }
    let pic : Picture := { kind := decodedKind id d.rap k e, w := k.seq.w, h := k.seq.h, depth := k.seq.depth, concealed := n.2.1 }
    let s := modVid v (fun y => { y with
      state := n.1, anchor := some anchor, window := (w, used + size)
      refs := x.keepRefs b d.keeps { number := d.number, due := due, pic := pic }
      tainted := if n.1 = .tainted then y.tainted + b2n n.2.1 else 0 }) s
    let s := bumpVid v 0x10 k.ended (bumpVid v 0x20 (b2n d.rap) (bumpVid v 4 (b2n n.2.1) (bumpVid v 0 1 s)))
    let s := missingRefs v k.missing e.isNone (concealedAreas v k.areas.length s)
    let s := s.postIf n.2.2.2 0x0787 1 v x.tainted
    let s := if n.2.2.1 && bit (u8 b 0x12) 0 then requestVidKey v b s else s
    placePicture v b { pic := pic, ts := a.ts, due := due } s

/-! Streams whose work outlives their configuration (R98, R99). -/

/-- Whether a stream has pictures in coding, or one in decoding. -/
def Vid.busy (x : Vid) : Bool := x.coding.isSome || !x.queue.isEmpty || !x.complete.isEmpty

/-- Work on a stream's oldest unfinished runtime: the one that has left, while it has work, otherwise the present one. -/
def onStream (v : Nat) (f : State → State) (s : State) : State :=
  match s.rt.video.leaving.find? fun e => e.1 == v with
  | none => f s
  | some e =>
    let now := mget s.rt.video.vids v
    let t := f (s.modVideo fun x => { x with vids := mset x.vids v e.2 })
    let old := t.vid v
    t.modVideo fun x => { x with
      vids := match now with
        | some y => mset x.vids v y
        | none => mdel x.vids v
      leaving := if old.busy then x.leaving.map fun p => if p == e then (v, old) else p else x.leaving.erase e }

/-- The oldest complete picture of a stream is decoded under the configuration with which its work began (R98, R242). -/
def decodeNext (v : Nat) (d : DecodeResult) (i : Item) (s : State) : State :=
  onStream v (fun s =>
    match (s.vid v).complete with
    | a :: l => decodePicture v i.began a d (modVid v (fun x => { x with complete := l }) s)
    | [] => s) s

/-- VIDEO_DECODE_PICTURE: the engine decodes the picture of its item in service (R228, R242). -/
def execVideoDecodePicture (t : Time) (v : Fin 4096) (d : DecodeResult) (s : State) : Host.Outcome State Fault Refusal :=
  done (engineStep (0x3000 + v.val) (decodeNext v.val d) (s.advance t))

end Sys2Proof.Machine
end

