-- ==== Sys2Proof/Machine/VidRun.lean ====
section
/-! DEFINITION. The encode side of video streams, and video at an activation (R98, R99, R249 to R259, R262). -/

namespace Sys2Proof.Machine

/-! Encoding (R249 to R259). -/

/-- The instant of picture i of a stream: the first tick boundary at or after A + i × frame period (R249). -/
def pictureTime (start i rate : Nat) : Time := boundaryAt (start + pictureOffset i rate)

/-- The first picture whose T(i) is at or after a boundary: those of ticks that a step of TIME skipped are not coded (R113). -/
def dueIndex (start rate : Nat) (now : Time) : Nat := if now < start + tMs then 0 else (now - tMs - start) * rate / (1000 * tS) + 1

/-- The temporal layer of picture i with t layers (R250). -/
def temporalOf (t i : Nat) : Nat :=
  if i % 2 ^ (t - 1) = 0 then 0 else t - 1 - ((List.range t).find? fun z => bit i z).getD 0

/-- Bits of a list of NAL units. -/
def nalBits (l : List Bytes) : Nat := 8 * sum (l.map (·.length))

/-- The parameter sets and SEI messages of a picture, which signal the buffer model; SVC sets temporal_id_nesting (R250, R252). -/
def headerNals (v : Nat) (b : Bytes) (i : Nat) (idr : Bool) : List Bytes :=
  Config.headerNals v i idr (u32 b 0x14 * 1000, cpbBits b, u16 b 0x1A) (u8 b 3 == 3 || u8 b 3 == 4)

/-- The source picture of an encode stream at T(i), and the buffer that it holds (R24, R249). -/
def encodeSource (b : Bytes) (s : State) : Picture × Option (Nat × Nat) :=
  let src := u16 b 0x2C
  if u8 b 0x2A = 0 then
    match (mget s.rt.mallow.outs src).bind fun o => o.completed.map fun c => (c.2, o.doneId) with
    | some (p, id) => (p, some (src, id))
    | none =>
      let o := mgetD s.gens.active.outs src []
      let c := canvasOf s.gens.active o
      ({ kind := .black, w := c.1, h := c.2, depth := u8 o 1 }, none)
  else (s.currentPicture src, heldBuffer src (s.currentPicture src))

/-- Conversion of a sample between depths (R249). -/
def toDepth (src dst v : Nat) : Nat :=
  if src = 10 ∧ dst = 8 then Nat.min 255 ((v + 2) / 4) else if src = 8 ∧ dst = 10 then v * 4 else v

/-- A sample of a source picture scaled to a spatial layer by a bilinear filter, at the stream's depth (R249; log 186). -/
def layerSample (p : Picture) (w h depth plane x y : Nat) : Nat :=
  let half := fun n => if plane = 0 then n else n / 2
  let v := scale2 (builtIn 0 3) (builtIn 0 2) (2 ^ p.depth - 1) (half p.w, half p.h) (half w, half h)
    (fun x y => (p.sample plane x y : Nat)) x y
  toDepth p.depth depth v.toNat

/-- The instant by which an IDR picture may follow the one before it (R251). -/
def idrRipe (b : Bytes) (x : Vid) (at_ : Time) : Bool :=
  match x.idrAt with
  | some t => decide (t + u16 b 0x1E * tMs ≤ at_)
  | none => true

/-- Whether a picture is an IDR picture: the first, a periodic one, one moved by a skip, or one requested by T(i) and not within the key
interval (R250, R251, R255). -/
def isIdr (k : Taken) (x : Vid) : Bool :=
  let p := u16 k.block 0x1C
  k.index == 0 || (p != 0 && k.index % p == 0) || x.idrMoved || (k.asked && x.keyCause.isSome && idrRipe k.block x k.at_)

/-- A picture below its floor cost is not coded (R255). -/
def skipPicture (v : Nat) (idr : Bool) (s : State) : State :=
  let up := s.up
  let s := bumpVid v 0x14 1 (modVid v (fun x => { x with skips := x.skips + 1, idrMoved := x.idrMoved || idr }) s)
  let x := s.vid v
  if everySecond x.skippedAt up then
    (modVid v (fun x => { x with skippedAt := some up, skips := 0 }) s).post 0x0788 2 v x.skips
  else s

/-- The latest coded picture of a temporal layer or of a lower one (R250). -/
def lastCoded (m : Map Nat) (t : Nat) : Option Nat :=
  (m.filter fun e => decide (e.1 ≤ t)).foldl (fun (a : Option Nat) e => some (Nat.max (a.getD 0) e.2)) none

/-- A picture as its coding begins, with its budget (R250, R252). -/
def codingOf (v : Nat) (k : Taken) (idr : Bool) (x : Vid) : Coding :=
  let b := k.block
  let temporal := temporalOf (u8 b 0xE) k.index
  { taken := k, idr := idr, temporal := temporal
    switch := decide (1 < u8 b 0xD) && temporal == 0 && k.index % u16 b 0x2E == 0
    left := fullnessAt b x (pictureOffset k.index (u16 b 8)) - nalBits (headerNals v b k.index idr)
    ref := if idr then none else lastCoded x.coded temporal }

/-- The engine item of a slice: level 4 in sub-frame mode, 5 for a whole picture (R116, R228). -/
def sliceItem (v : Nat) (k : Taken) : Item := engineItem (if u8 k.block 0x10 = 1 then 4 else 5) k.place (0x3000 + v) v 0

/-- The first picture that waits begins its coding: it is skipped below its floor cost, or where Clover's reserve has no room for its items,
and otherwise its slices are injected (R112, R250, R251, R255). -/
def beginCoding (v : Nat) : Nat → State → State
  | 0, s => s
  | n + 1, s =>
    let x := s.vid v
    match x.coding, x.queue with
    | none, k :: rest =>
      let idr := isIdr k x
      let c := codingOf v k idr x
      let s := modVid v (fun x => { x with queue := rest }) s
      let slices := (sliceTable k.block).length
      let r := if c.left < floorCost k.block idr then (false, s) else injectEngine slices (sliceItem v k) s
      if r.1 then
        let cause := x.keyCause.getD 0
        let s := modVid v (fun x => { x with
          coding := some c, idrMoved := false
          keyCause := if idr then none else x.keyCause
          idrAt := if idr then some k.at_ else x.idrAt }) r.2
        let s := s.modFault fun f => { f with openSlices := mset f.openSlices v slices }
        let told := idr && (x.keyCause.isSome || u16 k.block 0x1C != 0)
        (bumpVid v 0x20 (b2n idr) s).postIf told 0x078A 0 v cause
      else beginCoding v n (skipPicture v idr (holdBuffer false k.holds r.2))
    | _, _ => s

/-- At T(i) a stream takes its source picture, an immutable input until its coding ends; an orphaned stream takes none (R98, R153,
R249). -/
def takePicture (v : Nat) (b : Bytes) (x : Vid) (s : State) : State :=
  let s := modVid v (fun x => { x with next := x.next + 1 }) s
  if s.rt.fault.orphans.contains (0x10000 + v) then s
  else
    let src := encodeSource b s
    let k : Taken := {
      index := x.next, at_ := pictureTime x.start x.next (u16 b 8), block := b, place := mgetD s.gens.active.vidAt v 0xFF
      source := src.1, holds := src.2, asked := x.keyCause.isSome }
    let s := modVid v (fun x => { x with source := src.1, queue := x.queue ++ [k] }) (holdBuffer true src.2 s)
    beginCoding v ((s.vid v).queue.length + 1) s

/-- A stream takes its next picture, where its T(i) has come (R249). -/
def startPicture (v : Nat) (s : State) : State :=
  match mget s.gens.active.vids v, mget s.rt.video.vids v with
  | some b, some x => if u8 b 2 = 1 ∧ pictureTime x.start x.next (u16 b 8) ≤ s.now then takePicture v b x s else s
  | _, _ => s

/-- ENCODE_PICTURE_START: at T(i), where the boundary has not been taken yet, the stream takes its picture (R249). -/
def execEncodePictureStart (t : Time) (v : Fin 4096) (s : State) : Host.Outcome State Fault Refusal := done (startPicture v.val (s.advance t))

/-- At a boundary each encode stream takes its picture, sub-frame streams first, in stream order (R111, R112, R249). -/
def startPictures (s : State) : State :=
  let now := s.now
  let s := s.modVideo fun x => { x with vids := mall x.vids fun v r => match mget s.gens.active.vids v with
    | some b => if u8 b 2 = 1 then { r with next := Nat.max r.next (dueIndex r.start (u16 b 8) now) } else r
    | none => r }
  let of := fun m => (s.gens.active.vids.filter fun e => u8 e.2 0x10 == m).map (·.1)
  (of 1 ++ of 0).foldl (fun s v => startPicture v s) s

/-- Rows coded under their caps: bits left, bits spent, whether a floor row has been taken, floor rows (R254). -/
def codeRows (v pic hdr : Nat) : List Nat → List Nat → List Nat → Nat → Nat → Bool → Nat × Nat × Bool × Nat
  | [], _, _, _, left, floor => (left, 0, floor, 0)
  | f :: fs, bits, rest, row, left, floor =>
    let cap := left - sum fs - sum rest - hdr
    let want := bits.headD 0
    let low := floor || decide (cap < want)
    let n := if low then Config.floorRow v pic row % (f + 1) else want
    let r := codeRows v pic hdr fs (bits.drop 1) rest (row + 1) (left - n) low
    (r.1, r.2.1 + n, r.2.2.1, r.2.2.2 + b2n low)

/-- A NAL unit in packets of at most a payload size: whole, or in fragmentation units (R256). -/
def fragments (h265 : Bool) (max : Nat) (n : Bytes) : List Bytes :=
  if n.length ≤ max then [n]
  else
    let head := if h265 then 2 else 1
    let room := max - head - 1
    let body := n.drop head
    let count := ceilDiv body.length room
    (List.range count).map fun i =>
      let flag := (if i = 0 then 128 else 0) + if i + 1 = count then 64 else 0
      let part := (body.drop (i * room)).take room
      if h265 then [BitVec.ofNat 8 (u8 n 0 / 128 * 128 + 98 + u8 n 0 % 2), n.getD 1 0, BitVec.ofNat 8 (flag + u8 n 0 / 2 % 64)] ++ part
      else [BitVec.ofNat 8 (u8 n 0 / 32 * 32 + 28), BitVec.ofNat 8 (flag + u8 n 0 % 32)] ++ part

/-- The header of a slice's NAL unit: H.264 types 1, 5 and 20 with the SVC extension, H.265 TRAIL, TSA and IDR (R250). -/
def sliceHeader (codec layer : Nat) (c : Coding) : Bytes :=
  if codec < 5 then
    if layer = 0 then [BitVec.ofNat 8 (if c.idr then 0x65 else if c.temporal = 0 then 0x61 else 0x41)]
    else [0x74, BitVec.ofNat 8 (128 + (if c.idr then 64 else 0)), BitVec.ofNat 8 (layer * 16), BitVec.ofNat 8 (c.temporal * 32 + 7)]
  else
    let type := if c.idr then 19 else if c.temporal = 0 then 1 else 3
    [BitVec.ofNat 8 (type * 2), BitVec.ofNat 8 (c.temporal + 1)]

/-- The coding tools of a codec: CABAC, the 8 × 8 transform, the block size (R231). -/
def codingTools (codec : Nat) : Bool × Bool × Nat :=
  (codec != 0 && codec != 3, codec == 2 || codec == 4, if codec < 5 then 16 else 32)

/-- A slice's NAL unit of some octets: of a layer's source, with the reference and the inter-layer prediction of R250. -/
def sliceNal (v : Nat) (c : Coding) (layer octets : Nat) : Bytes :=
  let b := c.taken.block
  let i := u8 b 0xD - 1 - layer
  let head := sliceHeader (u8 b 3) layer c
  let src := layerSample c.taken.source (layerDim (u16 b 4) (u8 b 0xF) i) (layerDim (u16 b 6) (u8 b 0xF) i) (u8 b 0xA)
  let ref := if c.switch && decide (0 < layer) then none else c.ref
  head ++ (List.range (octets - head.length)).map fun k =>
    Config.sliceOctet (codingTools (u8 b 3)) src ref (decide (0 < layer)) (v, c.taken.index, c.slice, k)

/-- The slice time: the frame period divided by the slices of an access unit, and k slice times from T(i) (R256, R257). -/
def sliceAt (b : Bytes) (k : Nat) : Time := k * 1000 * tS / Nat.max 1 (u16 b 8 * (sliceTable b).length)

/-- The tolerance of a stream's packets in ns, and whether late ones are dropped (R257). -/
def vidLaunch (b : Bytes) : Nat × Bool :=
  (if u16 b 0x28 = 0 then sliceAt b 1 / tNs else u16 b 0x28 * 1000, u8 b 0x13 == 1)

/-- One packet of an encode stream is queued for its launch (R257). -/
def queueVideo (v : Nat) (c : Coding) (layer : Nat) (launch : Time) (ends marker : Bool) (payload : Bytes) (s : State) : State :=
  let b := c.taken.block
  let i := c.taken.index
  let x := s.vid v
  let only := allZero (Machine.slice b 0x44 16)
  let ts := x.ts + i * 90000000 / Nat.max 1 (u16 b 8)
  let p := rtpPacket (0x3000 + v) (u8 b 0x33) marker x.seq ts (u32 b 0x58) payload
  let tag : Tag := { stream := v, picture := i, slice := c.slice, s := layer, t := c.temporal, rap := c.idr || (c.switch && layer != 0)
                     ends := ends, copies := only, plain := p.data }
  let s := bumpVid v 0x28 1 (modVid v (fun x => { x with
    seq := (x.seq + 1) % 65536, sentSince := true, sent := (x.sent.1 + 1, x.sent.2 + payload.length) }) s)
  sendMedia (if only then 0xFFFFFFFF else u32 b 0x5C) false false false
    { flow := 0x3000 + v, port := u8 b 0x30, launch := some launch, dscp := u8 b 0x32, vlan := u16 b 0x64, ip := u8 b 0x31
      src := Machine.slice b 0x34 16, dst := Machine.slice b 0x44 16, sport := u16 b 0x54, dport := u16 b 0x56
      packet := { p with tag := some tag }, own := some (vidLaunch b) } s

/-- NAL units of a slice are packetised and queued; its last packet ends its layer, or the access unit (R256, R257). -/
def queueSlice (v : Nat) (c : Coding) (layer : Nat) (launch : Time) (ends marker : Bool) (l : List Bytes) (s : State) : State :=
  let ps := l.flatMap (fragments (decide (5 ≤ u8 c.taken.block 3)) (u16 c.taken.block 0x68))
  ps.zipIdx.foldl (fun s p =>
    let last := p.2 + 1 == ps.length
    queueVideo v c layer launch (ends && last) (marker && last) p.1 s) s

/-- Fullness of the buffer once a picture's bits, in whole octets, have left it (R252). -/
def afterPicture (v : Nat) (c : Coding) (spent : Nat) (x : Vid) : Nat :=
  let b := c.taken.block
  fullnessAt b x (pictureOffset c.taken.index (u16 b 8)) - nalBits (headerNals v b c.taken.index c.idr) - spent

/-- A picture's coding ends: its bits leave the buffer, its input is freed, and the next one begins (R249, R252). -/
def endPicture (v : Nat) (c : Coding) (spent filler : Nat) (s : State) : State :=
  let k := c.taken
  let f := afterPicture v c spent (s.vid v) - filler
  let s := modVid v (fun x => { x with
    cpb := some (f, pictureOffset k.index (u16 k.block 8)), coding := none
    coded := mset (if c.idr then [] else x.coded) c.temporal k.index }) (bumpVid v 0 1 (holdBuffer false k.holds s))
  beginCoding v ((s.vid v).queue.length + 1) (s.modFault fun g => { g with openSlices := mdel g.openSlices v })

/-- Bits of filler, in whole octets, that keep the buffer from overflowing before the next removal (R252). Where the next picture is skipped
for want of bits (R255) the buffer holds less than a floor cost, which is at most half of it, so that the period after it overflows no
sooner. -/
def fillerBits (b : Bytes) (i f : Nat) : Nat :=
  let next := arrivedBits b (pictureOffset (i + 1) (u16 b 8)) - arrivedBits b (pictureOffset i (u16 b 8))
  if bit (u8 b 0x12) 2 then Nat.min f (ceilDiv (f + next - cpbBits b) 8 * 8) else 0

/-- A filler data NAL unit of some octets. -/
def fillerNal (codec n : Nat) : List Bytes :=
  if n = 0 then []
  else if codec < 5 then [[0x0C] ++ List.replicate (n - 2) 0xFF ++ [0x80]]
  else [[0x4C, 0x01] ++ List.replicate (n - 3) 0xFF ++ [0x80]]

/-- The next slice of the picture in coding, row by row under its caps; it costs whole octets, and its quantisers lie between the configured
bounds but for floor rows (R252 to R257). -/
def encodeSlice (v : Nat) (c : Coding) (code : SliceCode) (s : State) : State :=
  let b := c.taken.block
  let table := sliceTable b
  let codec := u8 b 3
  let n := table.length
  let here := table.getD c.slice (0, 0)
  let floors := (floorRows b c.idr).drop c.row
  let head := Nat.min code.header (headerBound codec)
  let r := codeRows v c.taken.index ((n - c.slice - 1) * headerBound codec) (floors.take here.2) code.rows (floors.drop here.2) c.row
    (c.left - head) c.floor
  let nal := sliceNal v c here.1 (ceilDiv (head + r.2.1) 8)
  let spent := nalBits [nal]
  let c' := { c with slice := c.slice + 1, row := c.row + here.2, left := c.left - spent, spent := c.spent + spent, floor := r.2.2.1 }
  let last := c.slice + 1 == n
  let filler := if last then fillerBits b c.taken.index (afterPicture v c c'.spent (s.vid v)) else 0
  let launch := c.taken.at_ + sliceAt b (if u8 b 0x10 = 1 then c.slice + 2 else n + 1)
  let ends := (table.getD (c.slice + 1) (99, 0)).1 != here.1
  let units := (if c.slice = 0 then headerNals v b c.taken.index c.idr else []) ++ [nal] ++ fillerNal codec (filler / 8)
  let qp := if r.2.2.1 then code.qp.val else Nat.max (u8 b 0x20) (Nat.min (u8 b 0x21) code.qp.val)
  let s := bumpVid v 0x30 r.2.2.2 (modVid v (fun x => { x with meanQp := qp, coding := some c' }) s)
  let s := s.modFault fun g => { g with openSlices := mset g.openSlices v (n - c.slice - 1) }
  let s := queueSlice v c here.1 launch ends last units s
  if last then endPicture v c' c'.spent filler s else s

/-- The slice of an engine's item: of the oldest picture in coding (R228, R230). -/
def codeNext (v : Nat) (code : SliceCode) (s : State) : State :=
  onStream v (fun s => match (s.vid v).coding with
    | some c => encodeSlice v c code s
    | none => s) s

/-- VIDEO_ENCODE_SLICE: the engine codes the slice of its item in service (R228, R230, R256). -/
def execVideoEncodeSlice (t : Time) (v : Fin 4096) (c : SliceCode) (s : State) : Host.Outcome State Fault Refusal :=
  done (engineStep (0x3000 + v.val) (fun _ => codeNext v.val c) (s.advance t))

/-! Activation (R99, R262). -/

/-- Whether a replacement restarts a stream (R262). -/
def vidRestarts (o n : Bytes) : Bool :=
  slice o 2 6 != slice n 2 6 || u8 o 0xA != u8 n 0xA || slice o 0xC 4 != slice n 0xC 4

/-- Parameter sets that a generation loads for a stream (R266). -/
def loadedSets (g : Generation) (v : Nat) : List (Nat × Nat × Bytes) :=
  match mget g.paramsets v with
  | some b => (paramUnits (isH265 g v) b).getD []
  | none => []

/-- A stream starts from its initial state (R99, R249). -/
def startVid (g : Generation) (v : Nat) (s : State) : State :=
  let d1 := s.draw
  let d2 := d1.2.draw
  let d3 := d2.2.draw
  let d4 := d3.2.draw
  let up := s.up
  let now := s.now
  let t := up + rtcpDelay (u8 (mgetD g.vids v []) 0x66) d4.1
  d4.2.modVideo fun x => { x with vids := mset x.vids v {
    start := now, seq := d1.1 % 65536, ts := d2.1 % 4294967296, own := d3.1 % 4294967296, rtcpAt := t, sets := loadedSets g v
    rtp := { lastValid := up } } }

/-- The index of the first picture whose T(i) is not past, under a changed frame rate (log 45). -/
def nextIndex (start rate : Nat) (now : Time) : Nat := ceilDiv ((now - start) * rate) (1000 * tS)

/-- A stream's pictures that no engine will finish are given up, with their items and inputs. -/
def dropCodings (v : Nat) (s : State) : State :=
  let x := s.vid v
  let holds := x.coding.toList.map (·.taken.holds) ++ x.queue.map (·.holds)
  let s := dropFlow (0x3000 + v) true (holds.foldl (fun s h => holdBuffer false h s) s)
  (modVid v (fun x => { x with coding := none, queue := [], complete := [] }) s).modFault fun f =>
    { f with openSlices := mdel f.openSlices v }

/-- A stream leaves, or starts again: pictures that it has begun to code, and one that it decodes, are finished; pictures that wait to be
decoded are not begun (R98, R99). -/
def leaveVid (v : Nat) (decode : Bool) (s : State) : State :=
  let x := s.vid v
  let s := if decode then dropFlow (0x3000 + v) false s else s
  let x := { x with complete := if decode && (onEngine s (0x3000 + v)).isSome then x.complete.take 1 else [] }
  s.modVideo fun y => { y with vids := mdel y.vids v, leaving := if x.busy then y.leaving ++ [(v, x)] else y.leaving }

/-- A stream that goes on under a replaced configuration: the buffer model runs to the boundary under the old one (R98, R252). -/
def replaceVid (o n : Bytes) (now : Time) (x : Vid) : Vid :=
  let at_ := now - x.start
  { x with
    cpb := if u8 n 2 = 1 ∧ (u16 o 8 ≠ u16 n 8 ∨ slice o 0x14 8 ≠ slice n 0x14 8) then some (fullnessAt o x at_, at_) else x.cpb
    next := if u16 o 8 = u16 n 8 then x.next else nextIndex x.start (u16 n 8) now }

/-- Video at an activation. -/
def activateVideo (old new : Generation) (s : State) : State :=
  let gone := s.rt.video.vids.filter fun e => !mhas new.vids e.1 || (match mget old.vids e.1, mget new.vids e.1 with
    | some o, some n => vidRestarts o n
    | _, _ => true)
  let s := gone.foldl (fun s e => leaveVid e.1 (!isEncode old e.1) s) s
  let s := new.vidAt.foldl (fun s e => if mget old.vidAt e.1 = some e.2 then s else moveItems (0x3000 + e.1) e.2 s) s
  let now := s.now
  new.vids.foldl (fun s e =>
    if mhas s.rt.video.vids e.1 then
      let s := if mget old.paramsets e.1 = mget new.paramsets e.1 then s
        else modVid e.1 (fun x => { x with sets := loadedSets new e.1 }) s
      modVid e.1 (replaceVid (mgetD old.vids e.1 []) e.2 now) s
    else startVid new e.1 s) s

end Sys2Proof.Machine
end

