-- ==== Sys2Proof/Machine/Layout.lean ====
section
/-! DEFINITION. The LAYOUT and OUT commands, the frames of composed outputs, flattening and signature regions (R269 to R298). -/

namespace Sys2Proof.Machine

/-! Layouts (R289 to R294). -/

/-- Outputs of a generation that name a layout. -/
def outsOf (g : Generation) (layout : Nat) : List Nat := (g.outs.filter fun e => u16 e.2 2 == layout).map (·.1)

/-- The key of an image slot. -/
def slotKey (layout layer slot : Nat) : Nat := (layout * 8 + layer) * 2 + slot

/-- Whether a layer of a generation shows an image slot (R276). -/
def showsSlot (g : Generation) (key : Nat) : Bool :=
  match mget g.layers (key / 2) with
  | some b => u8 b 3 == 1 && u8 b 4 == 2 && u8 b 5 == key % 2
  | none => false

/-- Whether a generation shows a slot whose load is in progress (R276). -/
def showsLoading (g : Generation) (s : State) : Bool := s.rt.mallow.images.any fun e => e.2.loading.isSome && showsSlot g e.1

/-- Whether a layout is in a held generation. -/
def layoutHeld (s : State) (layout : Nat) : Bool :=
  let g := s.gens
  mhas g.staged.layouts layout || mhas g.active.layouts layout ||
    (match g.previous with
      | some p => mhas p.layouts layout
      | none => false) ||
    (match g.armed with
      | some a => mhas a.gen.layouts layout
      | none => false)

/-- Slots of layouts that have left every held generation are emptied; a load in progress runs to its end (R276). -/
def dropImages (s : State) : State :=
  s.modMallow fun m => { m with images := (m.images.map fun e =>
    if layoutHeld s (e.1 / 16) then e else (e.1, { e.2 with block := none, data := [] })).filter fun e =>
      e.2.block.isSome || e.2.loading.isSome }

/-- LAYOUT.SET (R289). -/
def cmdLayoutSet : Cmd where
  code := 0x0800
  len := len1 8
  gmode := .modify
  fails := fun r g _ =>
    let b := r.params
    fldFails b [rng 0 2 0 255, (2, 2, fun v => 64 ≤ v && v ≤ 4096 && v % 2 == 0), (4, 2, fun v => 64 ≤ v && v ≤ 2304 && v % 2 == 0),
      rng 6 1 0 1, rsv 7 1] ++
    (match mget g.layouts (u16 b 0) with
      | some o => if slice o 2 4 = slice b 2 4 then [] else inUse (lowest (outsOf g (u16 b 0)))
      | none => [])
  run := fun r _ s => okWith (s.stage fun g => { g with layouts := mset g.layouts (u16 r.params 0) (slice r.params 0 8) })

/-- The size and the subsampling in each direction of a layer's source, where it has one: a stream as configured, a slot as loaded. -/
def layerSource (g : Generation) (m : Mallow) (b : Bytes) : Option (Nat × Nat × Bool × Bool) :=
  match u8 b 4 with
  | 1 => (mget g.vids (u16 b 6)).map fun v => (u16 v 4, u16 v 6, true, true)
  | 2 => (mget m.images (slotKey (u16 b 0) (u8 b 2) (u8 b 5))).bind fun i => i.block.map fun k =>
      (u16 k 8, u16 k 0xA, decide (u8 k 4 < 4), decide (u8 k 4 < 2))
  | _ => none

/-- Crop and ratio of a layer against its source (R275). -/
def cropFails (b : Bytes) (src : Nat × Nat × Bool × Bool) : List Fail :=
  let whole := u16 b 0x14 == 0 || u16 b 0x16 == 0
  let cw := if whole then src.1 else u16 b 0x14
  let ch := if whole then src.2.1 else u16 b 0x16
  let odd := fun (sub : Bool) off => badIf (sub && !whole && u16 b off % 2 == 1) off
  odd src.2.2.1 0x10 ++ odd src.2.2.2 0x12 ++ odd src.2.2.1 0x14 ++ odd src.2.2.2 0x16 ++
  badIf (!whole && decide (src.1 < u16 b 0x10 + cw)) 0x14 ++ badIf (!whole && decide (src.2.1 < u16 b 0x12 + ch)) 0x16 ++
  (if u8 b 2 = 0 then []
    else badIf (decide (u16 b 0x1C * 8 < cw) || decide (16 * cw < u16 b 0x1C)) 0x1C ++
      badIf (decide (u16 b 0x1E * 8 < ch) || decide (16 * ch < u16 b 0x1E)) 0x1E)

/-- LAYOUT.LAYER (R275, R283, R290). -/
def cmdLayoutLayer : Cmd where
  code := 0x0801
  len := len1 36
  gmode := .modify
  fails := fun r g s =>
    let b := r.params
    let kind := u8 b 4
    fldFails b ([rng 0 2 0 255, rng 2 1 0 7, rng 3 1 0 1, rng 4 1 0 2, msk 0xD 1 3, rng 0x20 1 0 15, rng 0x21 1 0 15,
      (0x22, 1, fun v => v ≤ 63 || v == 255), rsv 0x23 1] ++
      (if kind = 1 then [rng 6 2 0 4095] else if kind = 2 then [rng 5 1 0 1] else []) ++
      (if kind = 0 then [] else [rng 0x10 2 0 4095, rng 0x12 2 0 2303, rng 0x14 2 0 4096, rng 0x16 2 0 2304]) ++
      (if u8 b 2 = 0 then []
        else [rng 0xC 1 1 7, rng 0xE 2 0 256, srng 0x18 2 (-4096) 4095, srng 0x1A 2 (-2304) 2303, rng 0x1C 2 1 4096, rng 0x1E 2 1 2304])) ++
    badIf (!mhas g.layouts (u16 b 0)) 0 ++ badIf (kind == 1 && (!mhas g.vids (u16 b 6) || isEncode g (u16 b 6))) 6 ++
    badIf (kind == 2 && (layerSource g s.rt.mallow b).isNone) 5 ++ badIf (kind == 1 && bit (u8 b 0xD) 0) 0xD ++
    (match layerSource g s.rt.mallow b with
      | some src => cropFails b src
      | none => [])
  run := fun r _ s => okWith (s.stage fun g =>
    { g with layers := mset g.layers (u16 r.params 0 * 8 + u8 r.params 2) (slice r.params 0 36) })

/-- CSURF bytes left for a slot, with every other slot and the surfaces of the generations in force and armed (R284, R291). -/
def csurfRoom (s : State) (key : Nat) : Nat :=
  let m := { s.rt.mallow with images := mdel s.rt.mallow.images key }
  let armed := match s.gens.armed with
    | some a => csurfBytes a.gen m
    | none => 0
  regionSize s.rt.dram 5 - Nat.max (csurfBytes s.gens.active m) armed

/-- Bytes of one row of an image. -/
def imageRow (format w : Nat) : Nat := match format with
  | 1 | 3 => 2 * w
  | 4 => 4 * w
  | _ => w

/-- LAYOUT.IMAGE (R276, R291). -/
def cmdLayoutImage : Cmd where
  code := 0x0802
  len := len1 24
  fails := fun r _ s =>
    let b := r.params
    let f := u8 b 4
    let key := slotKey (u16 b 0) (u8 b 2) (u8 b 3)
    let n := imageLength b
    let loading : Bool := match mget s.rt.mallow.images key with
      | some i => i.loading.isSome
      | none => false
    let armed : Bool := match s.gens.armed with
      | some a => showsSlot a.gen key
      | none => false
    fldFails b [rng 0 2 0 255, rng 2 1 0 7, rng 3 1 0 1, rng 4 1 0 5, rsv 5 3,
      (8, 2, fun v => 16 ≤ v && v ≤ 4096 && (decide (3 < f) || v % 2 == 0)),
      (0xA, 2, fun v => 16 ≤ v && v ≤ 2304 && (decide (1 < f) || v % 2 == 0)), (0x10, 8, fun v => v % 64 == 0)] ++
    badIf (decide (u32 b 0xC < imageRow f (u16 b 8))) 0xC ++ badIf (!inHwin s.rt.dram (u64 b 0x10) n) 0x10 ++
    badIf (!mhas s.gens.staged.layouts (u16 b 0) && !mhas s.gens.active.layouts (u16 b 0)) 0 ++
    failIf (showsSlot s.gens.active key || armed || loading) .objectInUse (u16 b 0) ++
    failIf (decide (csurfRoom s key < ceilTo 4096 n)) .noResource
  run := fun r _ s =>
    let b := r.params
    let key := slotKey (u16 b 0) (u8 b 2) (u8 b 3)
    let src := memRead s.rt.dram.mem (u64 b 0x10) (imageLength b)
    let s := s.modMallow fun m => { m with images := mmod m.images key {} fun i => { i with loading := some (slice b 0 24, src) } }
    { status := .pending, st := s.addPending 0x0802 key r }

/-- LAYOUT_IMAGE_DONE: the image is in its slot; where its source changed meanwhile, its octets are unpredictable (R276, R291; log 46). -/
def execLayoutImageDone (t : Time) (layout : Fin 256) (layer : Fin 8) (slot : Fin 2) (s : State) : Host.Outcome State Fault Refusal :=
  let s := s.advance t
  let key := slotKey layout.val layer.val slot.val
  match s.findPending 0x0802 key, (mget s.rt.mallow.images key).bind fun i => i.loading with
  | some p, some (b, src) =>
    let same := memRead s.rt.dram.mem (u64 b 0x10) (imageLength b) == src
    let d := s.draw
    let data := if same then src else (List.range (imageLength b)).map (Config.loadedOctet d.1)
    let s := if same then s else d.2
    let s := s.modMallow fun m => { m with images := mset m.images key { block := some b, data := data } }
    done ((dropImages s).endPending p .ok 0)
  | _, _ => done s

/-- The length that a LAYOUT.SCALER needs (R62, R292). -/
def scalerLen (b : Bytes) (l : Nat) : Option Nat :=
  let need := if 1 < l ∧ u8 b 1 = 1 then 392 else 520
  if l = need then none else some need

/-- LAYOUT.SCALER (R292). -/
def cmdLayoutScaler : Cmd where
  code := 0x0803
  len := scalerLen
  gmode := .modify
  fails := fun r _ _ =>
    let b := r.params
    let taps := if u8 b 1 = 1 then 6 else 8
    fldFails b ([rng 0 1 3 15, rng 1 1 0 1, rng 2 1 0 1, rsv 3 1, rsv 4 4] ++
      (List.range (32 * taps)).map fun i => srng (8 + 2 * i) 2 (-512) 511) ++
    (List.range 32).flatMap fun p =>
      badIf ((List.range taps).foldl (fun (a : Int) (k : Nat) => a + sN b (8 + 2 * (p * taps + k)) 2) 0 != 512) (8 + 2 * (p * taps + taps - 1))
  run := fun r _ s => okWith (s.stage fun g =>
    { g with scalers := mset g.scalers (u8 r.params 0 * 4 + u8 r.params 1 * 2 + u8 r.params 2)
               (slice r.params 0 (if u8 r.params 1 = 1 then 392 else 520)) })

/-- LAYOUT.GAMMA (R293). -/
def cmdLayoutGamma : Cmd where
  code := 0x0804
  len := len1 516
  gmode := .modify
  fails := fun r _ _ =>
    fldFails r.params ([rng 0 1 0 63, rng 1 1 0 3, rsv 2 2] ++ (List.range 256).map fun i => rng (4 + 2 * i) 2 0 4095)
  run := fun r _ s => okWith (s.stage fun g =>
    { g with gammas := mset g.gammas (u8 r.params 0 * 4 + u8 r.params 1) (slice r.params 0 516) })

/-- LAYOUT.DELETE (R276, R294). -/
def cmdLayoutDelete : Cmd where
  code := 0x0805
  len := len1 4
  gmode := .modify
  fails := fun r g _ =>
    let n := u16 r.params 0
    fldFails r.params [rng 0 2 0 255, rsv 2 2] ++ absentBad (mhas g.layouts n) 0 ++ inUse (lowest (outsOf g n))
  run := fun r _ s =>
    let n := u16 r.params 0
    okWith (dropImages (s.stage fun g =>
      { g with layouts := mdel g.layouts n, layers := mkeep g.layers fun k _ => k / 8 != n }))

/-- The block of a layer that has not been set (R289, R290). -/
def defaultLayer (layout layer : Nat) : Bytes :=
  block 36 [(0, 2, layout), (2, 1, layer), (8, 4, 0xFF000000), (0xC, 1, layer), (0xE, 2, 256), (0x20, 1, 2), (0x21, 1, 2), (0x22, 1, 255)]

/-- LAYOUT.QUERY (R294). -/
def cmdLayoutQuery : Cmd where
  code := 0x0806
  len := len1 4
  gmode := .read
  fails := fun r g _ => fldFails r.params [rng 0 2 0 255, rsv 2 2] ++ absentState (mhas g.layouts (u16 r.params 0))
  run := fun r g s =>
    let n := u16 r.params 0
    okWith s (slice (mgetD g.layouts n []) 0 8 ++
      (List.range 8).flatMap fun l => slice (mgetD g.layers (n * 8 + l) (defaultLayer n l)) 0 36)

/-! Outputs (R295 to R297). -/

/-- OUT.SET (R295). -/
def cmdOutSet : Cmd where
  code := 0x0840
  len := len1 8
  gmode := .modify
  fails := fun r g _ =>
    let b := r.params
    fldFails b [rng 0 1 0 63, oneOf 1 1 [8, 10], rng 2 2 0 255, rng 4 2 1000 60000, (6, 1, fun v => v ≤ 63 || v == 255), rsv 7 1] ++
    badIf (!mhas g.layouts (u16 b 2)) 2
  run := fun r _ s => okWith (s.stage fun g => { g with outs := mset g.outs (u8 r.params 0) (slice r.params 0 8) })

/-- Whether a region lies within a canvas. -/
def inCanvas (c : Nat × Nat) (b : Bytes) : Bool := u16 b 4 + u16 b 8 ≤ c.1 && u16 b 6 + u16 b 0xA ≤ c.2

/-- OUT.REGION (R285, R296). -/
def cmdOutRegion : Cmd where
  code := 0x0841
  len := len1 16
  gmode := .modify
  fails := fun r g _ =>
    let b := r.params
    let even := fun lo hi (v : Nat) => decide (lo ≤ v) && decide (v ≤ hi) && v % 2 == 0
    fldFails b [rng 0 1 0 63, rng 1 1 0 15, msk 2 1 3, rsv 3 1, (4, 2, even 0 4094), (6, 2, even 0 2302), (8, 2, even 2 4096),
      (0xA, 2, even 2 2304)] ++
    (match mget g.outs (u8 b 0) with
      | none => badIf true 0
      | some o => badIf (decide ((canvasOf g o).1 < u16 b 4 + u16 b 8)) 8 ++ badIf (decide ((canvasOf g o).2 < u16 b 6 + u16 b 0xA)) 0xA)
  run := fun r _ s => okWith (s.stage fun g =>
    { g with regions := mset g.regions (u8 r.params 0 * 16 + u8 r.params 1) (slice r.params 0 16) })

/-- Encode streams of a generation that name an output. -/
def encodersOf (g : Generation) (o : Nat) : List Nat :=
  (g.vids.filter fun e => u8 e.2 2 == 1 && u8 e.2 0x2A == 0 && u16 e.2 0x2C == o).map (·.1)

/-- OUT.DELETE (R297). -/
def cmdOutDelete : Cmd where
  code := 0x0842
  len := len1 4
  gmode := .modify
  fails := fun r g _ =>
    let o := u8 r.params 0
    fldFails r.params [rng 0 1 0 63, rsv 1 3] ++ absentBad (mhas g.outs o) 0 ++ inUse (lowest (encodersOf g o))
  run := fun r _ s =>
    let o := u8 r.params 0
    okWith (s.stage fun g => { g with outs := mdel g.outs o, regions := mkeep g.regions fun k _ => k / 16 != o })

/-- The OUT.REGION blocks of an output, by region. -/
def regionsOf (g : Generation) (o : Nat) : Map Bytes := (g.regions.filter fun e => e.1 / 16 == o).map fun e => (e.1 % 16, e.2)

/-- OUT.QUERY (R297). -/
def cmdOutQuery : Cmd where
  code := 0x0843
  len := len1 4
  gmode := .read
  fails := fun r g _ => fldFails r.params [rng 0 1 0 63, rsv 1 3] ++ absentState (mhas g.outs (u8 r.params 0))
  run := fun r g s =>
    let o := u8 r.params 0
    okWith s (slice (mgetD g.outs o []) 0 8 ++
      (List.range 16).flatMap fun k => slice (mgetD g.regions (o * 16 + k) (block 16 [(0, 1, o), (1, 1, k)])) 0 16)

/-- OUT.STATS (R297). -/
def cmdOutStats : Cmd where
  code := 0x0844
  len := len1 4
  fails := fun r _ s =>
    fldFails r.params [rng 0 1 0 63, rng 1 1 0 1, rsv 2 2] ++ absentState (mhas s.gens.active.outs (u8 r.params 0))
  run := fun r _ s =>
    let o := u8 r.params 0
    let x := mgetD s.seen.mallow.outs o {}
    let g := s.gens.active
    let layout := u16 (mgetD g.outs o []) 2
    let engine := if s.seen.fault.orphans.contains (0x20000 + o) then 255
      else ((mget g.outAt o).bind fun p => mget s.seen.fault.places p).getD 255
    let cache := if (staticRun g layout).isEmpty then 0 else match mget s.seen.mallow.surfaces layout with
      | some c => if c.ready then 2 else 1
      | none => 1
    let states := x.regions.foldl (fun (a : Nat) (e : Nat × Region) => a + if e.2.mismatch then 2 ^ e.1 else 0) 0
    let d := block 48 ((x.stats.map fun e => (e.1, 4, e.2)) ++ [(0x20, 1, engine), (0x21, 1, cache), (0x22, 2, states)])
    okWith (if u8 r.params 1 = 1 then
      s.clearSeen (fun b rt => { rt with mallow := { rt.mallow with outs := mupd rt.mallow.outs o fun x =>
        { x with stats := lessSeen x.stats (mgetD b.mallow.outs o {}).stats } } })
      else s) d

/-- OUT.SIGNATURES (R297). -/
def cmdOutSignatures : Cmd where
  code := 0x0845
  len := len1 4
  fails := fun r _ s => fldFails r.params [rng 0 1 0 63, rsv 1 3] ++ absentState (mhas s.gens.active.outs (u8 r.params 0))
  run := fun r _ s =>
    let x := mgetD s.seen.mallow.outs (u8 r.params 0) {}
    let i := match x.completed with
      | some c => c.1
      | none => 0
    okWith s (le 8 i ++ (List.range 16).flatMap fun k => le 4 (x.crcs.getD k 0))

/-! Frames (R270 to R272, R286). -/

def modOut (o : Nat) (f : OutRun → OutRun) (s : State) : State := s.modMallow fun m => { m with outs := mupd m.outs o f }
def State.out (s : State) (o : Nat) : OutRun := mgetD s.rt.mallow.outs o {}

/-- An OUT.STATS counter by response offset. -/
def bumpOut (o off k : Nat) (s : State) : State := modOut o (fun x => { x with stats := bump x.stats off k }) s

/-- A layer with its source as it stands, and whether that source is concealed (R270, R274). -/
def layLayer (s : State) (g : Generation) (matrix cw ch : Nat) (n : Nat) (b : Bytes) : Option (Laid × Bool) :=
  match u8 b 4 with
  | 0 =>
    let src := colourSource matrix (u32 b 8) (if n = 0 then cw else u16 b 0x1C) (if n = 0 then ch else u16 b 0x1E)
    some ({ b := putAt b 0x14 (zeros 4), ground := n == 0, src := src }, false)
  | 1 =>
    let p := s.currentPicture (u16 b 6)
    let v := mgetD g.vids (u16 b 6) []
    some ({ b := b, ground := n == 0, src := pictureSource p (u16 v 4) (u16 v 6) }, p.concealed)
  | _ => match mget s.rt.mallow.images (slotKey (u16 b 0) (u8 b 2) (u8 b 5)) with
    | some i => i.block.map fun k => ({ b := b, ground := n == 0, src := imageSource matrix k i.data }, false)
    | none => none

/-- The layers of an output's layout in order, each with its source as it stands, and whether that source is concealed. -/
def laidLayers (s : State) (g : Generation) (b : Bytes) : List (Laid × Bool) :=
  let l := mgetD g.layouts (u16 b 2) []
  (layerOrder g (u16 b 2)).filterMap fun e => layLayer s g (u8 l 6) (u16 l 2) (u16 l 4) e.1 e.2

/-- The frame of an output composed from its layers now: its samples, and whether a decode-stream layer is concealed (R277 to R283). -/
def composeFrame (s : State) (g : Generation) (b : Bytes) : Picture × Bool :=
  let l := mgetD g.layouts (u16 b 2) []
  let cw := u16 l 2; let ch := u16 l 4; let depth := u8 b 1
  let ls := laidLayers s g b
  ({ kind := .composed (frameSamples g (u8 b 6) depth cw ch (blendAt g cw ch (ls.map (·.1)))), w := cw, h := ch, depth := depth },
    ls.any (·.2))

/-- The pictures of decode-stream layers that a frame holds as immutable inputs (R24, R270). -/
def frameInputs (s : State) (g : Generation) (b : Bytes) : List (Nat × Nat) :=
  (layerOrder g (u16 b 2)).filterMap fun e => if u8 e.2 4 = 1 then heldBuffer (u16 e.2 6) (s.currentPicture (u16 e.2 6)) else none

/-- Whether frame F(i) takes its static run from the layers: it has one, and no surface was complete before (R284). -/
def directAt (s : State) (g : Generation) (layout : Nat) (at_ : Time) : Bool :=
  !(staticRun g layout).isEmpty && (match mget s.rt.mallow.surfaces layout with
    | some c => !(c.ready && decide (c.readyAt < at_))
    | none => true)

/-- Picture buffers of an output that are not free: the completed frame and frames that encoders hold (R272). -/
def buffersUsed (x : OutRun) : Nat :=
  (x.held.eraseDups.filter fun i => x.completed.isNone || x.doneId != i).length + b2n x.completed.isSome

/-- A skipped frame: counted with its comparisons, and reported at most once per second (R272, R286). -/
def skipFrame (o : Nat) (s : State) : State :=
  let up := s.up
  let s := bumpOut o 0x1C (comparing (regionsOf s.gens.active o)) (bumpOut o 4 1 (modOut o (fun x => { x with skips := x.skips + 1 }) s))
  let x := s.out o
  if everySecond x.skipEvent up then (modOut o (fun x => { x with skipEvent := some up, skips := 0 }) s).post 0x08C2 2 o x.skips else s

/-- The engine item of an output's frame (R269). -/
def frameItem (g : Generation) (o : Nat) : Item := engineItem 5 (mgetD g.outAt o 0xFF) (0x4000 + o) o 0

/-- At F(i) the next frame starts, with its inputs, or is skipped (R24, R112, R270, R272); an orphaned output starts none (R153). -/
def composeNext (o : Nat) (b : Bytes) (x : OutRun) (s : State) : State :=
  let g := s.gens.active
  let s := modOut o (fun x => { x with next := x.next + 1 }) s
  if s.rt.fault.orphans.contains (0x20000 + o) then s
  else
    let r := if x.composing.isSome ∨ 4 ≤ buffersUsed x then (false, s) else injectEngine 1 (frameItem g o) s
    if r.1 then
      let f := composeFrame s g b
      let id := s.rt.video.pictures + 1
      let c : Composing := {
        index := x.next, block := b, id := id, holds := frameInputs s g b, picture := f.1
        direct := directAt s g (u16 b 2) (pictureTime x.start x.next (u16 b 4)), concealed := f.2, regions := regionsOf g o }
      let s := c.holds.foldl (fun s h => holdBuffer true (some h) s) (r.2.modVideo fun y => { y with pictures := id })
      modOut o (fun y => { y with composing := some c }) s
    else skipFrame o r.2

/-- An output starts its next frame, where its F(i) has come (R270). -/
def beginFrame (o : Nat) (s : State) : State :=
  match mget s.gens.active.outs o, mget s.rt.mallow.outs o with
  | some b, some x => if pictureTime x.start x.next (u16 b 4) ≤ s.now then composeNext o b x s else s
  | _, _ => s

/-- COMPOSE_FRAME_START: at F(i), where the boundary has not been taken yet, the output starts its frame (R270). -/
def execComposeFrameStart (t : Time) (o : Fin 64) (s : State) : Host.Outcome State Fault Refusal := done (beginFrame o.val (s.advance t))

/-- At a boundary each output starts its frame, in output order; frames of ticks that a step of TIME skipped are not composed (R111, R112,
R113, R270). -/
def beginFrames (s : State) : State :=
  let now := s.now
  let s := s.modMallow fun m => { m with outs := mall m.outs fun o r => match mget s.gens.active.outs o with
    | some b => { r with next := Nat.max r.next (dueIndex r.start (u16 b 4) now) }
    | none => r }
  (mkeys s.gens.active.outs).foldl (fun s o => beginFrame o s) s

/-- One region of a completed frame: its CRC, which a region outside the canvas leaves open (log 47), and its transition (R286). -/
def checkRegion (o : Nat) (c : Composing) (s : State) (k : Nat) : State :=
  match mget c.regions k with
  | none => modOut o (fun x => { x with crcs := x.crcs ++ [0] }) s
  | some b =>
    if !bit (u8 b 2) 0 then modOut o (fun x => { x with crcs := x.crcs ++ [0] }) s
    else
      let d := s.draw
      let inside := inCanvas (c.picture.w, c.picture.h) b
      let crc := if inside then regionCrc c.picture b else d.1 % 4294967296
      let s := modOut o (fun x => { x with crcs := x.crcs ++ [crc] }) (if inside then s else d.2)
      if !bit (u8 b 2) 1 then s
      else
        let r := mgetD (s.out o).regions k {}
        let up := s.up
        let set := fun (r : Region) s => modOut o (fun x => { x with regions := mset x.regions k r }) s
        if crc = u32 b 0xC then
          if r.mismatch then (set {} s).post 0x08C1 1 o (k * 2 ^ 24 + r.unequal % 2 ^ 24) else s
        else
          let s := bumpOut o 0x18 1 s
          let n := if r.mismatch then r.unequal + 1 else 1
          if !r.mismatch || decide (r.lastEvent + tS ≤ up) then
            (set { mismatch := true, unequal := n, lastEvent := up } s).post 0x08C0 3 o (k * 2 ^ 24 + n % 2 ^ 24)
          else set { r with unequal := n } s

/-- Work on an output's oldest runtime with a frame in composition: one that has left, otherwise the present one (R98, R99). -/
def onOutput (o : Nat) (f : State → State) (s : State) : State :=
  match s.rt.mallow.leaving.find? fun e => e.1 == o with
  | none => f s
  | some e =>
    let now := mget s.rt.mallow.outs o
    let t := f (s.modMallow fun m => { m with outs := mset m.outs o e.2 })
    t.modMallow fun m => { m with
      outs := match now with
        | some y => mset m.outs o y
        | none => mdel m.outs o
      leaving := m.leaving.erase e }

/-- The inputs of a frame are freed (R24). -/
def freeInputs (c : Composing) (s : State) : State := c.holds.foldl (fun s h => holdBuffer false (some h) s) s

/-- A frame's signatures are compared, it becomes the completed frame, and its inputs are freed (R24, R271, R272, R285, R286). -/
def completeFrame (o : Nat) (s : State) : State :=
  match (s.out o).composing with
  | some c =>
    let late := pictureTime (s.out o).start (c.index + 1) (u16 c.block 4) < s.now
    let s := modOut o (fun x => { x with crcs := [] }) s
    let s := (List.range 16).foldl (checkRegion o c) s
    let s := bumpOut o 0 1 (bumpOut o 0xC (b2n (decide late)) (bumpOut o 0x10 (b2n c.direct) (bumpOut o 0x14 (b2n c.concealed) s)))
    freeInputs c (modOut o (fun x => { x with composing := none, completed := some (c.index, c.picture), doneId := c.id }) s)
  | none => s

/-- COMPOSE_FRAME_COMPLETE: the engine has written the last row of the frame of its item in service, or has met an uncorrectable line of a
layer or a cache surface, and abandons the frame (R152, R269, R271, R577). -/
def execComposeFrameComplete (t : Time) (f : FrameEnd) (s : State) : Host.Outcome State Fault Refusal :=
  let s := s.advance t
  done (engineStep (0x4000 + f.out.val) (fun _ => onOutput f.out.val (if f.unread then giveUpFrame f.out.val else completeFrame f.out.val)) s)

/-- What tells a flatten from another of its layout: the boundary that asked for it. -/
def Surface.mark (c : Surface) : Nat := c.since / tNs % 2 ^ 64

/-- The level-7 item that flattens a layout's run, on the engine of its lowest output; it is on no flow, so that frames pass it (R284;
log 187). -/
def flattenItem (g : Generation) (n : Nat) (c : Surface) : Item :=
  engineItem 7 (mgetD g.outAt ((lowest (outsOf g n)).getD 0) 0xFF) noFlow n c.mark

/-- The item in service that flattens a layout. -/
def flattening (s : State) (n : Nat) : Option (Item × Nat × Nat) :=
  (s.rt.clover.items.find? fun i => i.2.flow == noFlow && i.2.object == n && i.2.serving && decide (25 ≤ i.2.target) && decide (i.2.target < 30)).bind
    fun i => match i.2.state with
      | .inService b p => some (i.2, b, p)
      | _ => none

/-- A layout's cache surface is complete, where it is the one that the item was for (R284). -/
def surfaceReady (n mark : Nat) (s : State) : State :=
  match mget s.rt.mallow.surfaces n with
  | none => s
  | some c =>
    if c.ready ∨ c.mark ≠ mark then s
    else
      let now := s.now
      let s := s.modMallow fun m => { m with surfaces := mset m.surfaces n { c with ready := true, readyAt := now } }
      let s := (outsOf s.gens.active n).foldl (fun s o => bumpOut o 0x24 1 s) s
      s.post 0x0880 0 n (ceilDiv (s.up - c.since) tMs)

/-- LAYOUT_FLATTEN: the engine has flattened the layout of its level-7 item (R284). -/
def execLayoutFlatten (t : Time) (layout : Fin 256) (s : State) : Host.Outcome State Fault Refusal :=
  let s := s.advance t
  match flattening s layout.val with
  | some (i, b, p) => done (completeItem b p (surfaceReady layout.val i.input s))
  | none => done s

/-! Activation (R99, R284, R286, R295). -/

/-- What a layout's surface is made of: its block, the layers of its run, and the tables and sets that they use (R284). -/
def runKey (g : Generation) (layout : Nat) : Bytes × List (Nat × Bytes) × Map Bytes × Map Bytes :=
  let run := staticRun g layout
  (mgetD g.layouts layout [], run, mkeep g.gammas (fun k _ => run.any fun e => u8 e.2 0x22 == k / 4),
    mkeep g.scalers (fun k _ => run.any fun e => (if k / 2 % 2 = 0 then u8 e.2 0x20 else u8 e.2 0x21) == k / 4))

/-- Whether a replacement restarts an output: its canvas size or its bit depth changes (R295). -/
def outRestarts (old new : Generation) (o n : Bytes) : Bool := canvasOf old o != canvasOf new n || u8 o 1 != u8 n 1

/-- An output from its initial state (R99, R270). -/
def newOut (now : Time) : OutRun := { start := now }

/-- A surface whose flatten starts. -/
def newSurface (up : Time) : Surface := { since := up }

/-- The flatten of each surface that is not complete is enqueued (R284). -/
def enqueueFlattens (g : Generation) (l : List Nat) (s : State) : State :=
  l.foldl (fun s n => match mget s.rt.mallow.surfaces n with
    | some c => enqueueItem 37 (flattenItem g n c).descriptor none s
    | none => s) s

/-- Whether an output starts from its initial state at an activation (R99, R295). -/
def outStarts (old new : Generation) (o : Nat) (b : Bytes) (s : State) : Bool :=
  match mget s.rt.mallow.outs o, mget old.outs o with
  | some _, some p => outRestarts old new p b
  | _, _ => true

/-- A layout's surface at an activation: what it holds stays where its run has not changed, otherwise a flatten starts; one that has lost its
engine starts again (R284). -/
def nextSurface (old new : Generation) (n : Nat) (s : State) : Surface :=
  let place := fun (g : Generation) => (lowest (outsOf g n)).bind (mget g.outAt)
  match mget s.rt.mallow.surfaces n with
  | some c => if runKey old n = runKey new n ∧ (c.ready ∨ place old = place new) then c else newSurface s.up
  | none => newSurface s.up

/-- Composition at an activation: a frame in composition of an output that leaves, or starts again, is finished (R98, R99, R284, R286). -/
def activateOuts (old new : Generation) (s : State) : State :=
  let now := s.now
  let gone := s.rt.mallow.outs.filter fun e => e.2.composing.isSome && (match mget new.outs e.1 with
    | some b => outStarts old new e.1 b s
    | none => true)
  let outs := new.outs.map fun e =>
    if outStarts old new e.1 e.2 s then (e.1, newOut now)
    else
      let x := s.out e.1
      let x := { x with regions := mkeep x.regions fun k _ => mget old.regions (e.1 * 16 + k) == mget new.regions (e.1 * 16 + k) }
      (e.1, if u16 (mgetD old.outs e.1 []) 4 = u16 e.2 4 then x else { x with next := nextIndex x.start (u16 e.2 4) now })
  let used := (mkeys new.layouts).filter fun n => !(staticRun new n).isEmpty && !(outsOf new n).isEmpty
  let surfaces := used.map fun n => (n, nextSurface old new n s)
  let fresh := used.filter fun n => !(mgetD surfaces n {}).ready && mget s.rt.mallow.surfaces n != mget surfaces n
  let s := new.outAt.foldl (fun s e => if mget old.outAt e.1 = some e.2 then s else moveItems (0x4000 + e.1) e.2 s) s
  enqueueFlattens new fresh (s.modMallow fun m => { m with outs := outs, surfaces := surfaces, leaving := m.leaving ++ gone })

def execLayoutSet (r : Request) (s : State) : Host.Outcome State Fault Refusal := execCmd cmdLayoutSet r s
def execLayoutLayer (r : Request) (s : State) : Host.Outcome State Fault Refusal := execCmd cmdLayoutLayer r s
def execLayoutImage (r : Request) (s : State) : Host.Outcome State Fault Refusal := execCmd cmdLayoutImage r s
def execLayoutScaler (r : Request) (s : State) : Host.Outcome State Fault Refusal := execCmd cmdLayoutScaler r s
def execLayoutGamma (r : Request) (s : State) : Host.Outcome State Fault Refusal := execCmd cmdLayoutGamma r s
def execLayoutDelete (r : Request) (s : State) : Host.Outcome State Fault Refusal := execCmd cmdLayoutDelete r s
def execLayoutQuery (r : Request) (s : State) : Host.Outcome State Fault Refusal := execCmd cmdLayoutQuery r s
def execOutSet (r : Request) (s : State) : Host.Outcome State Fault Refusal := execCmd cmdOutSet r s
def execOutRegion (r : Request) (s : State) : Host.Outcome State Fault Refusal := execCmd cmdOutRegion r s
def execOutDelete (r : Request) (s : State) : Host.Outcome State Fault Refusal := execCmd cmdOutDelete r s
def execOutQuery (r : Request) (s : State) : Host.Outcome State Fault Refusal := execCmd cmdOutQuery r s
def execOutStats (r : Request) (s : State) : Host.Outcome State Fault Refusal := execCmd cmdOutStats r s
def execOutSignatures (r : Request) (s : State) : Host.Outcome State Fault Refusal := execCmd cmdOutSignatures r s

end Sys2Proof.Machine
end

