-- ==== Sys2Proof/Machine/Rec.lean ====
section
/-! DEFINITION. The REC commands and the rows of the recorder (R376 to R400). -/

namespace Sys2Proof.Machine

/-! Records and segments. -/

/-- RECORD_ARRIVE: the oldest record on its way reaches the recorder (R378). -/
def execRecordArrive (t : Time) (s : State) : Host.Outcome State Fault Refusal :=
  let s := s.advance t
  match s.rt.recorder.arriving with
  | [] => done s
  | x :: l =>
    let s := s.modRec fun r => { r with arriving := l }
    done (if s.rt.recorder.running then takeRecord x s else s)

/-- A REC.CLEAR takes effect (R390). -/
def applyClear (s : State) : State := if s.rt.recorder.clearing then startChain 2 s else s

/-- REC_CLEAR_APPLY: at a second boundary (R390). -/
def execRecClearApply (t : Time) (s : State) : Host.Outcome State Fault Refusal :=
  let s := s.advance t
  done (if s.now % tS = 0 ∧ s.rt.recorder.running then applyClear s else s)

/-- SEGMENT_OPEN: at a second boundary the segment of that second opens (R384); a second already begun opens no other (R388). -/
def execSegmentOpen (t : Time) (s : State) : Host.Outcome State Fault Refusal :=
  let s := s.advance t
  if s.now % tS = 0 ∧ s.rt.recorder.running then
    let s := applyClear s
    let sec := s.now / tS
    let due : Bool := match s.rt.recorder.lastOpen with
      | some k => decide (k < sec)
      | none => true
    done (if due ∧ s.rt.recorder.reserved.isNone then openRecSegment sec s else s)
  else done s

/-- SEGMENT_SEAL: 2 ms after its second the segment in progress seals, on an engine under duplicated computation; while the request queues
are disabled the request waits with its segment (R360, R368, R384). -/
def execSegmentSeal (r : CryptoRun) (s : State) : Host.Outcome State Fault Refusal :=
  let s := s.advance r.at_
  match s.rt.recorder.seg with
  | none => done s
  | some g =>
    done (if s.rt.recorder.running ∧ s.rt.sec.enabled ∧ (g.second + 1) * tS + 2 * tMs ≤ s.now then
      sealCurrent 0 (runOn r.engine.val r.mismatch.val s) else s)

/-! Commands (R392 to R399). -/

/-- DENIED_LIFECYCLE in DECOMMISSIONED (R392). -/
def recDenied (s : State) : List Fail := failIf (s.lifecycle == 4) .deniedLifecycle s.lifecycle

/-- REC.CONFIG (R394). -/
def cmdRecConfig : Cmd where
  code := 0x0B00
  len := len1 4
  block := some 32
  fails := fun r _ s => fldFails r.params [rng 0 1 0 1, msk 1 1 1, rsv 2 2] ++ recDenied s
  run := fun r _ s => okWith (s.modRec fun x => { x with modeNext := u8 r.params 0, segEvent := bit (u8 r.params 1) 0 })

/-- Range of the object of a selection. -/
def selObject (b : Bytes) : Fld := rng 2 2 0 (if u8 b 0 = 1 then 4095 else 8191)

/-- REC.SELECT (R393). -/
def cmdRecSelect : Cmd where
  code := 0x0B01
  len := len1 8
  gmode := .modify
  block := some 32
  fails := fun r g s =>
    let b := r.params
    let n := u16 b 2
    let stream := u8 b 0 == 1
    fldFails b [rng 0 1 0 1, rng 1 1 0 2, selObject b, msk 4 1 3, rsv 5 3] ++
    badIf (if stream then !isEncode g n else !mhas g.legs n) 2 ++ badIf (stream && u8 b 1 == 2) 1 ++
    badIf (if stream then u8 b 4 != 0 else u8 b 1 != 0 && u8 b 4 == 0) 4 ++ recDenied s
  run := fun r _ s =>
    let b := slice r.params 0 8
    let key := u8 b 0 * 65536 + u16 b 2
    okWith (s.stage fun g => { g with selections := if u8 b 1 = 0 then mdel g.selections key else mset g.selections key b })

/-- REC.QUERY (R393). -/
def cmdRecQuery : Cmd where
  code := 0x0B02
  len := len1 4
  gmode := .read
  block := some 32
  fails := fun r _ s => fldFails r.params [rng 0 1 0 1, rng 1 1 0 2, selObject r.params] ++ recDenied s
  run := fun r g s =>
    let k := u8 r.params 0
    okWith s (mgetD g.selections (k * 65536 + u16 r.params 2) (block 8 [(0, 1, k), (2, 2, u16 r.params 2), (4, 1, 1 - k)]))

/-- WRONG_STATE where the DRAM subsystem is out of service (R392). -/
def dramOut (s : State) : List Fail := failIf (s.rt.dram.fitted == 0) .wrongState 0xA

/-- REC.STATUS (R395). -/
def cmdRecStatus : Cmd where
  code := 0x0B03
  len := len1 0
  safe := true
  block := some 32
  fails := fun _ _ s => dramOut s
  run := fun _ _ s =>
    let x := s.seen.recorder
    okWith s (block 64 [(0, 8, x.chain), (8, 8, x.oldest), (0x10, 8, x.drain), (0x18, 8, x.sealedEnd), (0x20, 8, x.lastSeq),
      (0x28, 8, x.lastSecond), (0x30, 8, recSize s.rt.dram), (0x38, 1, x.mode),
      (0x39, 1, if !x.running then 2 else if x.missing.isSome then 1 else 0), (0x3C, 4, x.lost)])

/-- Bytes that a REC.READ copies (R396). -/
def readBytes (b : Bytes) (s : State) : Nat := Nat.min (u32 b 0x10) (s.rt.recorder.sealedEnd - u64 b 0)

/-- REC.READ (R387, R396). -/
def cmdRecRead : Cmd where
  code := 0x0B04
  len := len1 24
  safe := true
  block := some 32
  fails := fun r _ s =>
    let b := r.params
    fldFails b [(8, 8, fun v => v % 64 == 0), rng 0x10 4 64 67108864, rsv 0x14 4] ++ dramOut s ++
    badIf (decide (s.rt.recorder.sealedEnd < u64 b 0)) 0 ++ failIf (decide (u64 b 0 < s.rt.recorder.oldest)) .wrongState 1
  run := fun r _ s =>
    let b := r.params
    let n := readBytes b s
    let d := le 8 (u64 b 0) ++ le 4 n ++ zeros 4
    if n = 0 then okWith s d
    else
      let s := s.modRec fun x => { x with reads := x.reads ++ [(r.slot.val, u64 b 0, n)] }
      { status := .pending, data := d, st := s.addPending 0x0B04 r.slot.val r }

/-- REC_READ_DONE: the copy is complete, or a write of it failed, or the ring holds an uncorrectable line (R396, R577). -/
def execRecReadDone (t : Time) (slot : Fin 64) (failed : Bool) (s : State) : Host.Outcome State Fault Refusal :=
  let s := s.advance t
  match s.findPending 0x0B04 slot.val, s.rt.recorder.reads.find? fun x => x.1 == slot.val with
  | some p, some x =>
    let m := recErrors x.2.1 x.2.2 (s.modRec fun r => { r with reads := r.reads.erase x })
    let s := m.2
    if failed || m.1 then done (s.endPending p .internalFault 0x0B04)
    else
      let b := recRead s x.2.1 x.2.2
      done ({ s with hostMem := memWrite s.hostMem (u64 p.params 8) b }.endPending p .ok 0)
  | _, _ => done s

/-- REC.RELEASE (R397). -/
def cmdRecRelease : Cmd where
  code := 0x0B05
  len := len1 8
  block := some 32
  fails := fun r _ s => badIf (decide (s.rt.recorder.sealedEnd < u64 r.params 0)) 0 ++ recDenied s
  run := fun r _ s => okWith (s.modRec fun x => { x with drain := Nat.max x.drain (u64 r.params 0) })

/-- REC.VERIFY (R398). -/
def cmdRecVerify : Cmd where
  code := 0x0B06
  len := len1 48
  block := some 32
  fails := fun r _ s => badIf (!inHwin s.rt.dram (u64 r.params 0) (u64 r.params 8)) 8 ++ recDenied s
  run := fun r _ s => { status := .pending, st := s.addPending 0x0B06 r.slot.val r }

/-- What is wrong with a segment: 0 nothing, 1 malformed, 2 digest, 3 seal, 4 link (R380, R381, R398; log 49). -/
def verifySegment (key b link : Bytes) : Nat :=
  let body := u64 b 0x28
  let head := slice b 0 128
  if b.length < 160 ∨ u32 b 0 ≠ 0x4753524C ∨ u16 b 4 ≠ 1 ∨ b.length ≠ segEnd 0 body then 1
  else if slice (Config.sha256 (slice b 128 body)) 0 32 ≠ slice b 0x40 32 then 2
  else if slice (Config.hmac key head) 0 32 ≠ slice b (128 + body) 32 then 3
  else if allZero link = false ∧ slice b 0x60 32 ≠ link then 4
  else 0

/-- REC_VERIFY_DONE (R398, R577). -/
def execRecVerifyDone (t : Time) (slot : Fin 64) (s : State) : Host.Outcome State Fault Refusal :=
  let s := s.advance t
  match s.findPending 0x0B06 slot.val with
  | none => done s
  | some p =>
    let b := memRead s.rt.dram.mem (u64 p.params 0) (u64 p.params 8)
    let m := readErrors (u64 p.params 0) (u64 p.params 8) s
    let e := if m.1 then 2 else verifySegment (recorderKey s) b (slice p.params 0x10 32)
    let s := m.2
    done (if e = 0 then s.endPending p .ok 0 else s.endPending p .authFailed e)

/-- REC.MARK (R399). -/
def cmdRecMark : Cmd where
  code := 0x0B07
  len := lenIn 4 260
  block := some 32
  fails := fun r _ s => fldFails r.params [rsv 2 2] ++ recDenied s ++ failIf s.rt.recorder.seg.isNone .noResource
  run := fun r _ s =>
    okWith (takeRecord { type := 6, object := u16 r.params 0, time := s.now, data := slice r.params 4 (r.len.toNat - 4) } s)

/-- REC.CLEAR (R390, R394). -/
def cmdRecClear : Cmd where
  code := 0x0B08
  len := len1 0
  block := some 32
  fails := fun _ _ s => failIf (decide (3 ≤ s.lifecycle)) .deniedLifecycle s.lifecycle
  run := fun _ _ s => okWith (s.modRec fun x => { x with clearing := true })

/-- The recorder at an activation: what was gathered under a selection that changes is recorded (R98). -/
def activateRec (old new : Generation) (s : State) : State :=
  let codec := fun leg => u8 (mgetD old.legs leg []) 3
  let gone := fun leg => mget old.selections leg != mget new.selections leg || mget old.legs leg != mget new.legs leg
  let s := (mkeys s.rt.recorder.acc).foldl (fun s k =>
    let form := u8 (mgetD old.selections (k / 2) []) 1
    if gone (k / 2) then flushAcc (k / 2) (k % 2) (if form = 2 then 3 + k % 2 else 1 + k % 2) (codec (k / 2)) s else s) s
  (mkeys s.rt.recorder.runs).foldl (fun s k => if gone k then flushRun k (codec k) s else s) s

def execRecConfig (r : Request) (s : State) : Host.Outcome State Fault Refusal := execCmd cmdRecConfig r s
def execRecSelect (r : Request) (s : State) : Host.Outcome State Fault Refusal := execCmd cmdRecSelect r s
def execRecQuery (r : Request) (s : State) : Host.Outcome State Fault Refusal := execCmd cmdRecQuery r s
def execRecStatus (r : Request) (s : State) : Host.Outcome State Fault Refusal := execCmd cmdRecStatus r s
def execRecRead (r : Request) (s : State) : Host.Outcome State Fault Refusal := execCmd cmdRecRead r s
def execRecRelease (r : Request) (s : State) : Host.Outcome State Fault Refusal := execCmd cmdRecRelease r s
def execRecVerify (r : Request) (s : State) : Host.Outcome State Fault Refusal := execCmd cmdRecVerify r s
def execRecMark (r : Request) (s : State) : Host.Outcome State Fault Refusal := execCmd cmdRecMark r s
def execRecClear (r : Request) (s : State) : Host.Outcome State Fault Refusal := execCmd cmdRecClear r s

end Sys2Proof.Machine
end

