-- ==== Sys2Proof/Machine/TdmLine.lean ====
section
/-! DEFINITION. The framers and receivers of the TDM block (R469 to R478). -/

namespace Sys2Proof.Machine

/-! Pointers (R471). -/

/-- Bits of a pointer word that differ from another under a mask. -/
def differ (a b mask : Nat) : Nat := ((List.range 16).filter fun i => bit mask i && bit a i != bit b i).length

/-- A pointer interpreter after a pointer, and whether that one was an increment or a decrement. -/
structure PtrStep where
  ptr : Ptr
  inc : Bool := false
  dec : Bool := false

/-- The words of a pointer with the I or the D bits of its offset inverted: I bits are the odd of the ten offset bits from the top. -/
def iMask : Nat := 0x2AA
def dMask : Nat := 0x155

/-- A pointer is interpreted: its word, and how many offsets are valid (R471). An adjustment or new pointer of frame n lets the next
adjustment come in frame n + 3. DEDUCED: NDF is normal where at least 3 of its bits match 0b0110; a pointer is invalid where its offset is
not valid or its NDF neither normal nor enabled; a valid new offset that does not recur neither adds to a run of invalid pointers nor ends
one. -/
def Ptr.step (limit word : Nat) (p : Ptr) : PtrStep :=
  let value := word % 1024
  let ndf := decide (differ word 0x9000 0xF000 ≤ 1)
  let normal := decide (differ word 0x6000 0xF000 ≤ 1)
  let valid := decide (value < limit)
  let ones := if word = 0xFFFF then p.ones + 1 else 0
  let same := if normal && valid then (value, if p.same.1 = value then p.same.2 + 1 else 1) else (0, 0)
  let ndfs := if ndf then p.ndf + 1 else 0
  let fresh := { p with ones := ones, same := same, since := p.since + 1, ndf := ndfs }
  let settle : Ptr := { fresh with state := 0, offset := value, since := 1, invalid := 0, ndf := 0 }
  if p.state ≠ 0 then
    if 3 ≤ same.2 then { ptr := settle }
    else if p.state = 1 ∧ 3 ≤ ones then { ptr := { fresh with state := 2, invalid := 0, ndf := 0 } }
    else
      let bad := if word = 0xFFFF ∨ ((normal || ndf) && valid) then 0 else p.invalid + 1
      if p.state = 2 ∧ 8 ≤ bad then { ptr := { fresh with state := 1, invalid := 0 } } else { ptr := { fresh with invalid := bad } }
  else
    let i := differ value p.offset iMask
    let d := differ value p.offset dMask
    let inc := normal && decide (3 ≤ i) && decide (d ≤ 2)
    let dec := normal && decide (3 ≤ d) && decide (i ≤ 2)
    if 3 ≤ ones then { ptr := { fresh with state := 2, invalid := 0, ndf := 0 } }
    else if normal && valid && value == p.offset then { ptr := { fresh with invalid := 0 } }
    else if (inc || dec) && decide (3 ≤ p.since) then
      { ptr := { fresh with offset := (p.offset + (if inc then 1 else limit - 1)) % limit, since := 1, invalid := 0 }
        inc := inc, dec := dec }
    else if 8 ≤ ndfs then { ptr := { fresh with state := 1, invalid := 0, ndf := 0 } }
    else if ndf && valid then { ptr := { fresh with offset := value, since := 1, invalid := 0 } }
    else if 3 ≤ same.2 then { ptr := settle }
    else
      let bad := if normal && valid && !(inc || dec) then p.invalid else p.invalid + 1
      if 8 ≤ bad then { ptr := { fresh with state := 1, invalid := 0, ndf := 0 } } else { ptr := { fresh with invalid := bad } }

/-! Persistence. -/

/-- An indication seen or not in a frame. -/
def Run.see (on : Bool) (r : Run) : Run := if on then { on := r.on + 1, off := 0 } else { on := 0, off := r.off + 1 }

/-- A defect that n frames in a row raise, and m frames in a row without it clear. -/
def runDefect (line code n m : Nat) (r : Run) (s : State) : State :=
  if n ≤ r.on then setDefect line code true s else if m ≤ r.off then setDefect line code false s else s

/-! SDH frames (R470, R471, R476). -/

/-- The framer after a frame period in which the pattern recurs at given positions (R470). -/
def SdhPort.frame (l : List Nat) (up : Time) (p : SdhPort) : SdhPort :=
  let next := fun (i : Nat) => lowest (l.filter fun x => i ≤ x)
  match p.position, p.candidate with
  | some q, _ =>
    if l.contains q then { p with errored := 0 }
    else if p.errored + 1 < 4 then { p with errored := p.errored + 1 }
    else { p with position := none, errored := 0, candidate := next (q + 1), turned := up }
  | none, some q =>
    if l.contains q then { p with position := some q, candidate := none, errored := 0, turned := up }
    else { p with candidate := next (q + 1) }
  | none, none => { p with candidate := next 0 }

/-- LOS of a port follows its inputs; it clears 125 µs after both have gone (R476). -/
def portLos (port : Nat) (s : State) : State :=
  let p := s.sdhPort port
  let bad := p.losIn || p.silent
  let up := s.up
  let s := modSdh port (fun p => { p with quiet := if bad then none else some (p.quiet.getD up) }) s
  if bad then setDefect (sdhLine port) 0 true s
  else if p.quiet.getD up + 125 * tUs ≤ up then setDefect (sdhLine port) 0 false s
  else s

/-- LOF of a port: out of frame, or in frame again, for 3 ms (R476). -/
def portLof (port : Nat) (s : State) : State :=
  let p := s.sdhPort port
  if p.turned + 3 * tMs ≤ s.up then setDefect (sdhLine port) 1 p.position.isNone s else s

/-- Pointer states as defects. -/
def ptrDefects (line ais lop : Nat) (p : Ptr) (s : State) : State :=
  setDefect line lop (p.state == 1) (setDefect line ais (p.state == 2) s)

/-- An AU-4 of a frame (R469, R471, R476). -/
def auReceive (port a : Nat) (f : AuFrame) (s : State) : State :=
  let line := sdhLine port
  let p := s.sdhPort port
  let x := (p.aus.getD a {}).step 783 f.pointer.toNat
  let r := (p.hpRdi.getD a {}).see (f.g1.getLsbD 3)
  let s := modSdh port (fun p => { p with
    aus := p.aus.set a x.ptr, hpRdi := p.hpRdi.set a r, rei := bump p.rei (1 + a) f.b3 }) s
  let s := countLine line (0x20 + 4 * a) f.b3 (countLine line (0x30 + 2 * a) (b2n x.inc) (countLine line (0x38 + 2 * a) (b2n x.dec) s))
  runDefect line (12 + a) 5 5 r (ptrDefects line (4 + a) (8 + a) x.ptr s)

/-- A TU-12 whose multiframe ends in a frame (R469, R471, R476). -/
def tuReceive (port : Nat) (f : TuFrame) (s : State) : State :=
  let e := 252 * port + f.index
  let p := s.sdhPort port
  let x := (mgetD p.tus f.index {}).step 140 f.pointer.toNat
  let r := (mgetD p.lpRdi f.index {}).see (f.v5.getLsbD 0)
  let s := modSdh port (fun p => { p with
    tus := mset p.tus f.index x.ptr, lpRdi := mset p.lpRdi f.index r, rei := bump p.rei (8 + f.index) f.errors }) s
  let s := countLine e 0x30 f.errors (countLine e 0x34 (b2n (f.v5.getLsbD 5))
    (countLine e 0x38 (b2n x.inc) (countLine e 0x3A (b2n x.dec) s)))
  let s := if f.errors = 0 then s else s.modTdm fun t => { t with errored := bump t.errored e 1 }
  runDefect e 18 5 5 r (ptrDefects e 16 17 x.ptr s)

/-- The multiframe sequence in H4 of the AU-4s of a port (R476). -/
def h4Receive (port : Nat) (l : List AuFrame) (s : State) : State :=
  let p := s.sdhPort port
  let wrong := match p.h4 with
    | some h => l.any fun a => a.h4.toNat % 4 != h
    | none => false
  let r := p.lom.see wrong
  let next := match l with
    | a :: _ => some ((a.h4.toNat + 1) % 4)
    | [] => none
  runDefect (sdhLine port) 21 8 2 r (modSdh port (fun p => { p with lom := r, h4 := next }) s)

/-- S1 is taken when the same in 8 consecutive frames (R501). -/
def s1Receive (port v : Nat) (s : State) : State :=
  let p := s.sdhPort port
  let n := if p.s1Run.1 = v then p.s1Run.2 + 1 else 1
  let new := decide (8 ≤ n) && p.s1 != v
  (modSdh port (fun p => { p with s1Run := (v, n), s1 := if new then v else p.s1 }) s).postIf new 0x0D85 1 port v

/-- The section and path overhead of a frame. -/
def overheadReceive (port : Nat) (f : SdhFrame) (s : State) : State :=
  let line := sdhLine port
  let s := countLine line 8 f.b1 (countLine line 0xC f.b2 (countLine line 0x10 f.m1 s))
  let k := f.k2.toNat % 8
  let s := modSdh port (fun p => { p with
    msAis := p.msAis.see (k == 7), msRdi := p.msRdi.see (k == 6), rei := bump p.rei 0 f.b2 }) s
  let s := runDefect line 2 3 3 (s.sdhPort port).msAis s
  let s := runDefect line 3 3 3 (s.sdhPort port).msRdi s
  let s := s1Receive port (f.s1.toNat % 16) s
  let n := if u8 (sdhOn s port) 1 = 2 then 4 else 1
  let s := (f.aus.take n).zipIdx.foldl (fun s a => auReceive port a.2 a.1 s) s
  let s := h4Receive port (f.aus.take n) s
  f.tus.foldl (fun s x => if tribExists (u8 (sdhOn s port) 1) x.index && decide (x.index < 252) then tuReceive port x s else s) s

/-- Whether the TDM block receives. -/
def tdmReady (s : State) : Bool := s.domainReady 33 && !s.blockFailed 33 && s.rt.power.state == 0 && !s.boot.inReset.getLsbD 33

/-- SDH_FRAME_RECEIVE (R470, R471, R476). -/
def execSdhFrameReceive (t : Time) (port : Fin 4) (f : SdhFrame) (s : State) : Host.Outcome State Fault Refusal :=
  let s := s.advance t
  if tdmReady s && u8 (sdhOn s port.val) 1 != 0 then
    let up := s.up
    let s := portLos port.val (modSdh port.val (fun p => { p with silent := false }) s)
    let s := portLof port.val (modSdh port.val (SdhPort.frame f.patterns up) s)
    done (if (s.sdhPort port.val).position.isSome then overheadReceive port.val f s else s)
  else done s

/-- SDH_TRANSITION_LOSS (R476). -/
def execSdhTransitionLoss (t : Time) (port : Fin 4) (s : State) : Host.Outcome State Fault Refusal :=
  let s := s.advance t
  done (if tdmReady s && u8 (sdhOn s port.val) 1 != 0 then
    portLos port.val (modSdh port.val (fun p => { p with silent := true }) s) else s)

/-! Bits of E1 and T1 lines. -/

/-- AIS: fewer than 3 zeros in each of 2 consecutive periods of 512 bits (R476). -/
def aisBit (b : Bool) (l : Line) : Line :=
  let z := l.aisZeros + b2n (!b)
  if l.aisBits + 1 < 512 then { l with aisBits := l.aisBits + 1, aisZeros := z }
  else { l with aisBits := 0, aisZeros := 0, ais := l.ais.see (decide (z < 3)) }

/-- The bits of a number, the first received highest. -/
def bitsOf (v n : Nat) : List Bool := (List.range n).map fun i => bit v (n - 1 - i)

/-- What an E1 framer finds in a bit. -/
inductive Found where
  | aligned
  | lost
  | fasError
  /-- A frame ends: its bits, and whether it holds the frame alignment word. -/
  | frame (v : Nat) (fas : Bool)
  deriving DecidableEq, Repr

/-- The E1 framer takes a bit (R472): the frame alignment word is 0011011 in bits 2 to 8 of timeslot 0. -/
def e1Bit (b : Bool) (l : Line) : Line × List Found :=
  let sr := (l.sr * 2 + b2n b) % 256
  let word := sr % 128 == 0x1B
  let l := { l with sr := sr, cnt := l.cnt + 1, fresh := l.fresh + 1, buf := (l.buf * 2 + b2n b) % 2 ^ 256 }
  match l.phase with
  | 0 => (if word && decide (7 ≤ l.fresh) then { l with phase := 1, cnt := 0 } else l, [])
  | 1 => (if l.cnt = 250 then if b then { l with phase := 2 } else { l with phase := 0, fresh := 0 } else l, [])
  | 2 =>
    if l.cnt = 512 then
      if word then ({ l with phase := 3, cnt := 0, buf := sr, fasBad := 0 }, [.aligned]) else ({ l with phase := 0, fresh := 6 }, [])
    else (l, [])
  | _ =>
    if l.cnt = 248 then ({ l with buf := 0 }, [.frame l.buf true])
    else if l.cnt = 504 then ({ l with buf := 0 }, [.frame l.buf false])
    else if l.cnt = 512 then
      if word then ({ l with cnt := 0, fasBad := 0 }, [])
      else if l.fasBad + 1 < 4 then ({ l with cnt := 0, fasBad := l.fasBad + 1 }, [.fasError])
      else ({ l with phase := 0, fresh := 0, cnt := 0, fasBad := 0 }, [.fasError, .lost])
    else (l, [])

/-- A remainder of a polynomial division takes a bit. -/
def crcBit (width poly : Nat) (r : Nat) (b : Bool) : Nat :=
  let v := r * 2 + b2n b
  if v < 2 ^ width then v else Nat.xor v poly

/-- CRC-4 of G.704 takes a bit; CRC-6 takes a bit. -/
def crc4 (r : Nat) (b : Bool) : Nat := crcBit 4 0x13 r b
def crc6 (r : Nat) (b : Bool) : Nat := crcBit 6 0x43 r b

/-- The octets of a frame, from its bits. -/
def octetsOf (v n : Nat) : Bytes := (List.range n).map fun i => BitVec.ofNat 8 (v / 2 ^ (8 * (n - 1 - i)))

/-- A line loses its alignment and hunts again (R472, R475, R476). -/
def loseAlignment (e : Nat) (s : State) : State :=
  setDefect e 1 true (modE1 e (fun l => { l with phase := 0, fresh := 0, pos := none, mf := none, mfSeen := none, cas := none }) s)

/-- A line is aligned (R472, R475). -/
def gainAlignment (e : Nat) (s : State) : State :=
  let up := s.up
  setDefect e 1 false (modE1 e (fun l => { l with
    alignedAt := up, whole := false, mf := none, mfSeen := none, nfas := [], crcBefore := none, blocks := 0, badBlocks := 0, cas := none, last16 := 0 }) s)

/-- A received block of a CRC-4 or CRC-6 is judged; far more than noise loses the alignment (R472, R473). -/
def crcBlock (e : Nat) (bad : Bool) (s : State) : State :=
  let s := countLine e 0xC (b2n bad) s
  let l := s.line e
  let n := l.badBlocks + b2n bad
  let full := decide (1000 ≤ l.blocks + 1)
  let s := modE1 e (fun l => { l with
    blocks := if full then 0 else l.blocks + 1, badBlocks := if full then 0 else n, eBits := l.eBits ++ [!bad] }) s
  if full && decide (915 ≤ n) && kindOf s e == 1 then loseAlignment e s else s

/-- CRC-4 multiframe alignment: two signals 001011 in bit 1 of the not-FAS frames, 2 ms apart, within 8 ms of frame alignment (R473). -/
def seekMultiframe (e : Nat) (one : Bool) (s : State) : State :=
  let l := s.line e
  let h := (one :: l.nfas).take 6
  let signal := h == [true, true, false, true, false, false]
  let n := l.mfSeen.map (· + 2)
  let s := modE1 e (fun l => { l with nfas := h, mfSeen := if signal then some 0 else n }) s
  if signal && n == some 16 && l.mf.isNone && decide (s.up ≤ l.alignedAt + 8 * tMs) then
    setDefect e 19 false (modE1 e (fun l => { l with mf := some 12, crcBefore := none, whole := false, crc := 0 }) s)
  else s

/-- CRC-4 of a frame: its check bits belong to the block before (R473). -/
def crcFrame (e v : Nat) (s : State) : State :=
  let l := s.line e
  match l.mf with
  | none => s
  | some n =>
    let check := n % 2 == 0
    let first := bit v 255
    let cs := if check then l.crcBits * 2 % 16 + b2n first else l.crcBits
    let body := if check then v % 2 ^ 255 else v
    let r := (bitsOf body 256).foldl crc4 (if n % 8 = 0 then 0 else l.crc)
    let ended := decide (n % 8 = 7)
    let s := modE1 e (fun l => { l with mf := some ((n + 1) % 16), crcBits := cs, crc := r, whole := l.whole || n % 8 == 0 }) s
    let s := if n = 13 ∨ n = 15 then
        countLine e 0x10 (b2n (!first)) s else s
    if ended then
      let sum := (List.replicate 4 false).foldl crc4 r
      let s := modE1 e (fun l => { l with crcBefore := if l.whole then some sum else none }) s
      match l.crcBefore with
      | some c => crcBlock e (c != cs) s
      | none => s
    else s

/-- An ABCD code heard; it takes effect when the same in 2 consecutive multiframes of CAS (R474). -/
def abcd (e t v : Nat) (twice : Bool) (s : State) : State :=
  let l := s.line e
  let takes := (!twice || mget l.heard t == some v) && mgetD l.codes t 15 != v
  let s := modE1 e (fun l => { l with heard := mset l.heard t v, codes := if takes then mset l.codes t v else l.codes }) s
  s.postIf (takes && framing s e 4) 0x0D84 0 (32 * e + t) v

/-- CAS alignment is lost: received codes are held at 1111 (R474, R476). -/
def loseCas (e : Nat) (s : State) : State :=
  setDefect e 20 true (modE1 e (fun l => { l with cas := none, codes := [], heard := [] }) s)

/-- Timeslot 16 of a frame (R474). -/
def casFrame (e v16 : Nat) (s : State) : State :=
  let l := s.line e
  let s := modE1 e (fun l => { l with last16 := v16 }) s
  match l.cas with
  | none =>
    if v16 / 16 = 0 ∧ l.last16 ≠ 0 then
      setDefect e 20 false (modE1 e (fun l => { l with cas := some 1, casBad := 0, casOnes := b2n (v16 != 0) }) s)
    else s
  | some 0 =>
    if l.casOnes = 0 then loseCas e s
    else
      let bad := if v16 / 16 = 0 then 0 else l.casBad + 1
      if 2 ≤ bad then loseCas e s
      else modE1 e (fun l => { l with cas := some 1, casBad := bad, casOnes := b2n (v16 != 0) }) s
  | some n =>
    let s := modE1 e (fun l => { l with cas := some ((n + 1) % 16), casOnes := l.casOnes + b2n (v16 != 0) }) s
    abcd e (n + 16) (v16 % 16) true (abcd e n (v16 / 16) true s)

/-- A frame enters the slip store of its line, which holds two (R478). -/
def storeFrame (e : Nat) (b : Bytes) (s : State) : State :=
  let up := s.up
  modE1 e (fun l =>
    let q := l.store ++ [(b, up, false)]
    { l with store := q.drop (q.length - 2) }) s

/-- A frame of an aligned E1 (R473, R474, R476). -/
def e1Frame (e v : Nat) (fas : Bool) (s : State) : State :=
  let b := octetsOf v 32
  let s := if fas then s
    else
      let r := (s.line e).rai.see (bit v 253)
      runDefect e 3 3 3 r (modE1 e (fun l => { l with rai := r }) s)
  let s := if framing s e 0 then
      let s := crcFrame e v s
      if fas then s else seekMultiframe e (bit v 255) s
    else s
  let s := if framing s e 1 then casFrame e (u8 b 16) s else s
  storeFrame e b s

/-- What the framer finds takes effect. -/
def e1Found (e : Nat) (s : State) : Found → State
  | .aligned => gainAlignment e s
  | .lost => loseAlignment e s
  | .fasError => countLine e 8 1 s
  | .frame v fas => e1Frame e v fas s

/-- The bits of a period reach the framer one by one. -/
def e1Bits (e : Nat) (l : List Bool) (s : State) : State :=
  l.foldl (fun s b =>
    let r := e1Bit b (aisBit b (s.line e))
    r.2.foldl (e1Found e) (modE1 e (fun _ => r.1) s)) s

/-- AIS of a line. -/
def lineAis (e : Nat) (s : State) : State := runDefect e 2 2 2 (s.line e).ais s

/-- LOS of a PDH port follows its input; it clears 125 µs after the input does (R476). -/
def lineLos (e : Nat) (s : State) : State :=
  let l := s.line e
  let up := s.up
  let s := modE1 e (fun l => { l with quiet := if l.losIn then none else some (l.quiet.getD up) }) s
  if l.losIn then setDefect e 0 true s
  else if l.quiet.getD up + 125 * tUs ≤ up then setDefect e 0 false s else s

/-- The line at the other end of a transparent cross-connect (R480). -/
def transparentPeer (g : Generation) (e : Nat) : Option Nat :=
  (g.xcs.find? fun x => u8 x.2 0 == 2 && (u16 x.2 4 == e || 1008 + u16 x.2 6 == e)).map fun x =>
    if u16 x.2 4 = e then 1008 + u16 x.2 6 else u16 x.2 4

/-- Both TRIBs of a pair send the working TRIB's VC-12 (R481): the lines on which what an E1 number sends leaves. -/
def carriers (g : Generation) (e : Nat) : List Nat :=
  e :: match mget g.prots e with
    | some b => [u16 b 2]
    | none => []

/-- An unframed line sends bits (R480, R481). -/
def sendBits (e : Nat) (v : BitVec 256) (s : State) : State := (carriers s.gens.active e).foldl (fun s x => s.emit (.bits x v)) s

/-- E1_FRAME_RECEIVE: 256 bits of an E1 number, the first received highest (R472 to R474, R480). The bits of a protection pair are those of
the path that its selector delivers, under the working TRIB's number; the protecting TRIB has no line of its own (R481). -/
def execE1FrameReceive (t : Time) (e : Fin 1024) (v : BitVec 256) (s : State) : Host.Outcome State Fault Refusal :=
  let s := s.advance t
  let k := kindOf s e.val
  if !tdmReady s || k = 0 || k = 2 || protects s.gens.active e.val || (decide (e.val < 1008) && !(tribFails s (pathOf s e.val)).isEmpty) then done s
  else
    let s := if 1008 ≤ e.val then lineLos e.val s else s
    if k = 3 then
      done (match transparentPeer s.gens.active e.val with
        | some p => if defect s e.val 0 then s else sendBits p v s
        | none => s)
    else done (lineAis e.val (e1Bits e.val (bitsOf v.toNat 256) s))

/-! T1 (R475). -/

/-- The frame bit at a position of the n-th last period. -/
def t1Bit (l : List (BitVec 193)) (n pos : Nat) : Bool := (l.getD n 0).getLsbD (192 - pos)

/-- Whether the ESF pattern stands at a position in the multiframe that ended k periods ago. -/
def esfAt (l : List (BitVec 193)) (k pos : Nat) : Bool :=
  ((List.range 6).map fun i => t1Bit l (k + 4 * i) pos) == [true, true, false, true, false, false]

/-- Whether data-link bits, latest first, are the RAI pattern of 8 ones and 8 zeros. -/
def raiPattern (l : List Bool) : Bool :=
  l.length == 16 && (List.range 16).any fun k =>
    l == (List.range 16).map fun i => decide ((i + k) % 16 < 8)

/-- The bits of the frame that ended with the latest period: from a position of the period before to that position of the latest. -/
def t1Frame (l : List (BitVec 193)) (pos : Nat) : Nat :=
  let a := (l.getD 1 0).toNat % 2 ^ (193 - pos)
  let b := (l.getD 0 0).toNat / 2 ^ (193 - pos)
  a * 2 ^ pos + b

/-- The framing bits of a T1 frame: the CRC register and its received bits, the data link, and RAI (R475). -/
def t1Bits (e n : Nat) (f : Bool) (r : Nat) (s : State) : State :=
  let l := s.line e
  let cs := if n % 4 = 2 then l.crcBits * 2 % 64 + b2n f else l.crcBits
  let dl := if n % 2 = 1 then (f :: l.dataLink).take 16 else l.dataLink
  let present := if n % 2 = 1 then if raiPattern dl then l.raiBits + 1 else 0 else l.raiBits
  setDefect e 3 (decide (8 ≤ present))
    (modE1 e (fun l => { l with crc := r, crcBits := cs, dataLink := dl, raiBits := present, whole := l.whole || n == 1 }) s)

/-- The signalling bits of a T1 frame, in every sixth frame (R475). -/
def t1Signalling (e n : Nat) (octets : Bytes) (s : State) : State :=
  if framing s e 2 && n % 6 == 0 then
    (List.range 24).foldl (fun s (c : Nat) =>
      let h := (mgetD (s.line e).heard (c + 1) 0 * 2 + u8 octets c % 2) % 16
      if n = 24 then abcd e (c + 1) h false s
      else modE1 e (fun l => { l with heard := mset l.heard (c + 1) h }) s) s
  else s

/-- The check of the multiframe before against the bits of this one, after its last frame. -/
def t1Check (e r : Nat) (before : Option Nat) (s : State) : State :=
  let sum := (List.replicate 6 false).foldl crc6 r
  let cs := (s.line e).crcBits
  let s := modE1 e (fun l => { l with crcBefore := if l.whole then some sum else none }) s
  match before with
  | some c => crcBlock e (c != cs) s
  | none => s

/-- A framing bit of the alignment pattern in a wrong state counts; four wrong in a row lose alignment. -/
def t1Fas (e n : Nat) (f : Bool) (bad : Nat) (s : State) : State :=
  let want := [false, false, true, false, true, true].getD (n / 4 - 1) false
  if f = want then modE1 e (fun l => { l with fasBad := 0 }) s
  else
    let s := countLine e 8 1 s
    if bad + 1 < 4 then modE1 e (fun l => { l with fasBad := bad + 1 }) s
    else loseAlignment e (modE1 e (fun l => { l with fasBad := 0 }) s)

/-- A frame of an aligned T1, by its number in the multiframe: pattern, CRC-6, data link, robbed bits and payload (R475). -/
def t1FrameReceive (e n v : Nat) (s : State) : State :=
  let l := s.line e
  let f := bit v 192
  let body := v % 2 ^ 192 + 2 ^ 192
  let r := (bitsOf body 193).foldl crc6 (if n = 1 then 0 else l.crc)
  let octets := octetsOf (v % 2 ^ 192) 24
  let s := t1Signalling e n octets (t1Bits e n f r s)
  let s := if n = 24 then t1Check e r l.crcBefore s else s
  let s := storeFrame e ((0 : Byte) :: octets) s
  if n % 4 ≠ 0 then s else t1Fas e n f l.fasBad s

/-- T1_FRAME_RECEIVE: 193 bits of a PDH port, the first received highest (R475). -/
def execT1FrameReceive (t : Time) (n : Fin 16) (v : BitVec 193) (s : State) : Host.Outcome State Fault Refusal :=
  let s := s.advance t
  let e := 1008 + n.val
  if !tdmReady s || kindOf s e ≠ 2 then done s
  else
    let s := modE1 e (fun l => { l with hist := (v :: l.hist).take 48 }) (lineLos e s)
    let s := modE1 e (fun l => (bitsOf v.toNat 193).foldl (fun l b => aisBit b l) l) s
    let s := lineAis e s
    let l := s.line e
    match l.pos with
    | some p =>
      let k := l.frame
      let s := modE1 e (fun l => { l with frame := k % 24 + 1 }) s
      done (t1FrameReceive e k (t1Frame l.hist p) s)
    | none =>
      match if l.hist.length = 48 then (List.range 193).find? fun p => esfAt l.hist 0 p && esfAt l.hist 24 p else none with
      | some p => done (gainAlignment e (modE1 e (fun l => { l with pos := some p, frame := 24, fasBad := 0, crcBefore := none, heard := [] }) s))
      | none => done s

/-- CRC4_MULTIFRAME_TIMEOUT: no multiframe within 8 ms of alignment; the line searches again (R473, R476). -/
def execCrc4MultiframeTimeout (t : Time) (e : Fin 1024) (s : State) : Host.Outcome State Fault Refusal :=
  let s := s.advance t
  let l := s.line e.val
  done (if kindOf s e.val = 1 ∧ framing s e.val 0 ∧ l.phase = 3 ∧ l.mf.isNone ∧ l.alignedAt + 8 * tMs ≤ s.up then
    setDefect e.val 19 true (modE1 e.val (fun l => { l with phase := 0, fresh := 0, cas := none }) s) else s)

end Sys2Proof.Machine
end

