-- ==== Sys2Proof/Machine/TdmRun.lean ====
section
/-! DEFINITION. The timeslot switch, settings, protection and counters at work (R214, R215, R469, R473, R477 to R490). -/

namespace Sys2Proof.Machine

/-! Companding (R214): PRESUMED from G.711, which the spec names. -/

/-- A-law to 16-bit linear, scaled by 8. -/
def alawExpand (o : Nat) : Int :=
  let x := Nat.xor (o % 256) 0x55
  let e := x / 16 % 8
  let m := x % 16
  let v : Nat := if e = 0 then 2 * m + 1 else (2 * m + 33) * 2 ^ (e - 1)
  if 128 ≤ x then (8 * v : Nat) else -(8 * v : Nat)

/-- µ-law to 16-bit linear, scaled by 4. -/
def ulawExpand (o : Nat) : Int :=
  let x := 255 - o % 256
  let v : Nat := (2 * (x % 16) + 33) * 2 ^ (x / 16 % 8) - 33
  if 128 ≤ x then -(4 * v : Nat) else (4 * v : Nat)

/-- The highest power of two in a number, at most a limit. -/
def topBit : Nat → Nat → Nat
  | 0, _ => 0
  | n + 1, v => if 2 ^ (n + 1) ≤ v then n + 1 else topBit n v

/-- 16-bit linear to A-law. -/
def alawCompress (v : Int) : Nat :=
  let mag : Nat := (if v < 0 then (-v - 1) else v).toNat / 16
  let e := topBit 11 mag
  let c := if mag < 16 then mag else (e - 3) * 16 + (mag / 2 ^ (e - 4)) % 16
  Nat.xor (if v < 0 then c else c + 128) 0x55

/-- 16-bit linear to µ-law. -/
def ulawCompress (v : Int) : Nat :=
  let mag : Nat := Nat.min 0x1FFF ((if v < 0 then (-v - 1) else v).toNat / 4 + 33)
  let e := topBit 12 mag - 5
  let c := 255 - (e * 16 + mag / 2 ^ (e + 1) % 16) - 128
  if v < 0 then c else c + 128

def expand (law : Nat) (o : Nat) : Int := if law = 0 then alawExpand o else ulawExpand o
def compress (law : Nat) (v : Int) : Nat := if law = 0 then alawCompress v else ulawCompress v

/-! The switch (R477, R485 to R487). -/

/-- The octet of an input TSLOT in the frame that the switch took last; none while it is failed. -/
def inOctet (s : State) (ts : Nat) : Option Nat :=
  let l := s.line (ts / 32)
  if lineFailed s (ts / 32) || !l.takenOk then none else some (u8 l.taken (ts % 32))

/-- The idle octet of a TSLOT's line. -/
def idleOctet (s : State) (ts : Nat) : Nat := u8 (lineOn s (ts / 32)) 4

/-- What drives an output. -/
inductive Driver where
  | input (ts : Nat)
  | leg (l : Nat)
  | group (b : Bytes) (member : Nat)
  | idle
  deriving DecidableEq, Repr

/-- The connection of an output in a generation (R485). -/
def driverOf (g : Generation) (ts : Nat) : Driver :=
  match g.xcs.find? fun x => (xcDrives x.2).contains ts with
  | some x => .input (if u16 x.2 6 = ts then u16 x.2 4 else u16 x.2 6)
  | none =>
    match (tdmLegs g).find? fun e => legTslot e.2 == ts with
    | some e => .leg e.1
    | none =>
      match g.bypasses.find? fun e => (groupSlots e.2).contains ts with
      | some e => .group e.2 ((groupSlots e.2).findIdx (· == ts))
      | none => .idle

/-- The sum that a member of a bypass group hears (R214). -/
def bypassSum (s : State) (b : Bytes) (member : Nat) : Nat :=
  let others := (groupSlots b).zipIdx.filter fun x => x.2 != member
  let v := others.foldl (fun (a : Int) x => match inOctet s x.1 with
    | some o => a + expand (u8 b (6 + 4 * x.2)) o
    | none => a) 0
  compress (u8 b (6 + 4 * member)) (if 32767 < v then 32767 else if v < -32767 then -32767 else v)

/-- The octet that an output carries in a frame of the tick (R485, R488). -/
def outOctet (s : State) (frame ts : Nat) : Nat :=
  let idle := idleOctet s ts
  let bad : Bool := match mget s.rt.tdm.bad ts with
    | some t => decide (s.up < t)
    | none => false
  if bad then idle
  else match driverOf s.gens.active ts with
    | .input a => (inOctet s a).getD idle
    | .leg l => match mget s.rt.tdm.sending l with
      | some b => if b.isEmpty then idle else u8 b (frame % 8)
      | none => idle
    | .group b m => bypassSum s b m
    | .idle => idle

/-- Whether a line carries signalling: CAS of an E1, robbed bits of a T1. -/
def signals (s : State) (e : Nat) : Bool :=
  (kindOf s e == 1 && framing s e 1) || (kindOf s e == 2 && framing s e 2)

/-- The ABCD code received of a TSLOT; 1111 before one is in effect. -/
def codeOf (s : State) (ts : Nat) : Nat := mgetD (s.line (ts / 32)).codes (ts % 32) 15

/-- The ABCD code that an output carries (R477, R487). -/
def outCode (s : State) (ts : Nat) : Nat :=
  let idle := u8 (lineOn s (ts / 32)) 5
  match driverOf s.gens.active ts with
  | .input a => if signals s (a / 32) && !lineFailed s (a / 32) then codeOf s a else idle
  | .leg _ => mgetD s.rt.tdm.sent ts idle
  | _ => idle

/-- TSLOTs of the lines that are framed, timeslots of a T1 being its channels; a protecting TRIB has none of its own (R481). -/
def framedSlots (s : State) : List Nat :=
  (mkeys s.rt.tdm.lines).flatMap fun e => match if protects s.gens.active e then 0 else kindOf s e with
    | 1 => ((List.range 32).filter fun t => t != 0 && !(t == 16 && framing s e 1)).map (32 * e + ·)
    | 2 => (List.range 24).map fun c => 32 * e + c + 1
    | _ => []

/-! Slip stores (R478). -/

/-- A slip is counted, and reported at most once a second (R478, R501). -/
def slip (e off : Nat) (s : State) : State :=
  let l := s.line e
  let up := s.up
  let q := up :: l.slips.filter fun t => up < t + tS
  let report : Bool := match l.slipAt with
    | some t => decide (t + tS ≤ up)
    | none => true
  let s := countLine e off 1 (modE1 e (fun l => { l with slips := q, slipAt := if report then some up else l.slipAt }) s)
  s.postIf report 0x0D83 1 e q.length

/-- The switch takes a frame of a line at an internal frame start. -/
def takeFrame (e : Nat) (s : State) : State :=
  let l := s.line e
  let ready := l.store.filter fun f => decide (f.2.1 + 10 * tUs ≤ s.up)
  match ready.getLast? with
  | none => if l.taken.isEmpty || lineFailed s e then s else slip e 0x14 s
  | some f =>
    let s := modE1 e (fun l => { l with store := l.store.drop ready.length, taken := f.1, takenOk := !f.2.2 }) s
    if ready.length = 2 then slip e 0x18 s else s

/-! TDM legs. -/

/-- At a tick's first frame a leg has the eight octets of the tick before, unless its timeslot failed in one (R477), and sends those of
its last item. -/
def turnLeg (leg : Nat) (s : State) : State :=
  let g := mgetD s.rt.tdm.gather leg []
  let whole : Bytes := g.filterMap id
  let s := s.modAudio fun a => { a with legs := mupd a.legs leg fun l => { l with tdmIn := if whole.length = 8 then whole else [] } }
  let out := (mgetD s.rt.audio.legs leg {}).tdmOut
  s.modTdm fun t => { t with gather := mset t.gather leg [], sending := mset t.sending leg out }

/-- A leg takes the octet of its timeslot. -/
def feedLeg (leg ts : Nat) (s : State) : State :=
  let o := (inOctet s ts).map fun v => BitVec.ofNat 8 v
  s.modTdm fun t => { t with gather := mmod t.gather leg [] (· ++ [o]) }

/-! What lines send (R469, R473, R475, R476, R480). -/

/-- A framed or unframed line sends what goes with its timeslots on each TRIB that carries it (R481). -/
def sendOverhead (e : Nat) (f : Map Nat) (s : State) : State :=
  (carriers s.gens.active e).foldl (fun s x => s.emit (.overhead x f)) s

/-- The overhead that a framed line sends: RAI with automatic indication, and in frames 13 and 15 of its multiframe an E-bit. -/
def sendLine (k e : Nat) (s : State) : State :=
  let auto := framing s e 3
  let rai := auto && [0, 1, 2, 19].any fun c => defect s e c
  let ebit := auto && framing s e 0 && kindOf s e == 1 && (k % 16 == 13 || k % 16 == 15)
  let l := s.line e
  let s := if ebit then modE1 e (fun l => { l with eBits := l.eBits.drop 1 }) s else s
  sendOverhead e ((0, b2n rai) :: if ebit then [(1, b2n (l.eBits.headD true))] else []) s

/-- CRC-7 of G.707 takes a bit: x^7 + x^3 + 1. -/
def crc7 (r : Nat) (b : Bool) : Nat := crcBit 7 0x89 r b

/-- The 16-byte trace of 15 characters, its first byte a 1 and the CRC-7 of the trace with those seven bits 0 (R469). PRESUMED from G.707,
which the spec names: the CRC's polynomial and place. -/
def sdhTrace (chars : Bytes) : Nat :=
  let body := 0x80 * 2 ^ 120 + beNat (chars.take 15)
  let crc := (List.replicate 7 false).foldl crc7 ((bitsOf body 128).foldl crc7 0)
  body + crc * 2 ^ 120

/-- The overhead that a TRIB sends once a multiframe (R469, R481): pointer, J2, signal label, LP-RDI and LP-REI. The VC-12 of a protecting
TRIB is the working one's, its own indications those of its own path. -/
def sendTrib (k e : Nat) (s : State) : State :=
  if k % 4 ≠ 0 then s
  else
    let auto := framing s e 3
    let p := s.sdhPort (e / 252)
    let i := e % 252
    let label := if u8 (lineOn s e) 2 = 0 then 0 else 2
    (modSdh (e / 252) (fun p => { p with rei := mdel p.rei (8 + i) }) s).emit
      (.overhead e [(2, b2n (auto && !(tribFails s e).isEmpty)), (3, if auto then mgetD p.rei (8 + i) 0 else 0), (4, label),
        (5, 70), (6, sdhTrace (slice (sdhOn s (e / 252)) 4 15))])

/-- The overhead that an SDH port sends (R469): with S1, indications and J0, each AU-4's pointer of 522, C2 of 2 and J1. -/
def sendPort (port : Nat) (s : State) : State :=
  let b := sdhOn s port
  let p := s.sdhPort port
  let auto := bit (u8 b 3) 0
  let d := fun c => defect s (sdhLine port) c
  let down := d 0 || d 1 || d 2
  let n := if u8 b 1 = 2 then 4 else 1
  let count := fun i => if auto then mgetD p.rei i 0 else 0
  let aus := (List.range n).map fun a => (8 + a, b2n (auto && (down || d (4 + a) || d (8 + a))))
  let reis := (List.range n).map fun a => (12 + a, count (1 + a))
  (modSdh port (fun p => { p with rei := mkeep p.rei fun i _ => 8 ≤ i }) s).emit
    (.overhead (sdhLine port) ([(0, u8 b 2), (1, b2n (auto && down)), (2, count 0), (3, sdhTrace (slice b 4 15)), (4, 522), (5, 2)] ++ aus ++ reis))

/-- A transparent line whose source fails, or a port without a source, sends all ones (R480). -/
def sendClear (e : Nat) (s : State) : State :=
  let fails := fun x => defect s x 0 || (decide (x < 1008) && !(tribFails s (pathOf s x)).isEmpty)
  match transparentPeer s.gens.active e with
  | none => if 1008 ≤ e then s.emit (.bits e (-1)) else s
  | some x => if fails x then sendBits e (-1) s else s

/-- What an internal frame finds before it sends: losses of signal, and each ms a turn of the legs' blocks (R477). -/
def frameLosses (k : Nat) (ports lines : List Nat) (legs : List (Nat × Nat)) (s : State) : State :=
  let s := ports.foldl (fun s p => portLof p (portLos p s)) s
  let s := lines.foldl (fun s e => if 1008 ≤ e ∧ kindOf s e ≠ 0 then lineLos e s else s) s
  if k % 8 = 0 then legs.foldl (fun s l => turnLeg l.1 s) s else s

/-- The octets and codes of an internal frame leave (R477, R487). -/
def frameOut (k : Nat) (s : State) : State :=
  let begins := fun ts => k % (if kindOf s (ts / 32) = 2 then 24 else 16) = 0
  let s := s.modTdm fun t => { t with sent := t.written.foldl (fun m w => if begins w.1 then mset m w.1 w.2 else m) t.sent }
  let slots := framedSlots s
  let octets := slots.map fun ts => (ts, outOctet s k ts)
  let codes := (slots.filter fun ts => signals s (ts / 32)).map fun ts => (ts, outCode s ts)
  let copies := fun (m : Map Nat) => m.flatMap fun x => (carriers s.gens.active (x.1 / 32)).map fun e => (32 * e + x.1 % 32, x.2)
  s.emit (.tdm k (copies octets) (copies codes))

/-- Each port, tributary and line forms its frame, and each receive store gives one (R469, R477). -/
def frameTurn (k : Nat) (ports lines : List Nat) (s : State) : State :=
  let s := ports.foldl (fun s p => sendPort p s) s
  lines.foldl (fun s e =>
    let s := if e < 1008 then if tribExists (u8 (sdhOn s (e / 252)) 1) e then sendTrib k e s else s else s
    match if protects s.gens.active e then 0 else kindOf s e with
    | 1 | 2 => takeFrame e (sendLine k e s)
    | 3 => sendClear e s
    | _ => s) s

/-- TDM_INTERNAL_FRAME (R214, R215, R477 to R480, R485, R487): outputs carry what the switch took in the frame before. -/
def execTdmInternalFrame (t : Time) (s : State) : Host.Outcome State Fault Refusal :=
  let s := s.advance t
  if !tdmReady s || s.now % (125 * tUs) != 0 then done s
  else
    let k := s.now / (125 * tUs)
    let legs := (tdmLegs s.gens.active).map fun e => (e.1, legTslot e.2)
    let ports := (mkeys s.rt.tdm.ports).filter fun p => u8 (sdhOn s p) 1 != 0
    let lines := mkeys s.rt.tdm.lines
    done (legs.foldl (fun s l => feedLeg l.1 l.2 s) (frameTurn k ports lines (frameOut k (frameLosses k ports lines legs s))))

/-- TDM_MEMORY_ERROR (R488): a bad page word idles its output until firmware has rewritten it, within 1 ms. -/
def execTdmMemoryError (t : Time) (e : TdmError) (s : State) : Host.Outcome State Fault Refusal :=
  let s := s.advance t
  match e with
  | .corrected => done (s.modTdm fun t => { t with corrected := t.corrected + 1 })
  | .page ts =>
    let d := s.draw
    let until_ := s.up + d.1 % (tMs + 1)
    done ((d.2.modTdm fun t => { t with bad := mset t.bad ts.val until_ }).post 0x0D86 3 ts.val 0)
  | .slip e => done (modE1 e.val (fun l => { l with store := match l.store.reverse with
      | f :: q => (((f.1, f.2.1, true) :: q).reverse)
      | [] => [] }) s)

/-! Line inputs (R476). -/

/-- LOS_INPUT: lines 0 to 3 are the SDH ports' optics inputs, 4 to 19 those of PDH ports 0 to 15 (R476, R529). -/
def execLosInput (t : Time) (line : Fin 20) (on : Bool) (s : State) : Host.Outcome State Fault Refusal :=
  let s := s.advance t
  let src := if line.val < 4 then 8 + line.val else 12 + line.val
  let s := if on ∧ s.rt.time.freqSrc = src ∧ s.rt.time.freqPresent then freqLost s else s
  if line.val < 4 then
    let s := modSdh line.val (fun p => { p with losIn := on }) s
    done (if tdmReady s && u8 (sdhOn s line.val) 1 != 0 then portLos line.val s else s)
  else
    let e := 1004 + line.val
    let s := modE1 e (fun l => { l with losIn := on }) s
    done (if tdmReady s && kindOf s e != 0 then lineLos e s else s)

/-! Settings (R490). -/

/-- A line restarts under a setting: its defects go, and a framed one is out of alignment. -/
def restartLine (e : Nat) (b : Bytes) (s : State) : State :=
  let s := (List.range 29).foldl (fun s c => if c = 0 then s else setDefect e c false s) s
  let s := modE1 e (fun l => { block := b, losIn := l.losIn }) s
  let s := s.modTdm fun t => { t with written := mkeep t.written fun k _ => k / 32 != e, sent := mkeep t.sent fun k _ => k / 32 != e }
  if kindOf s e = 0 then setDefect e 0 false s else if kindOf s e = 3 then s else setDefect e 1 true s

/-- A setting of a port or line takes effect. -/
def applySetting (line : Nat) (b : Bytes) (s : State) : State :=
  if 0x10000 ≤ line then
    let p := line - 0x10000
    if u8 (sdhOn s p) 1 = u8 b 1 then modSdh p (fun x => { x with block := b }) s
    else
      let s := (List.range 29).foldl (fun s c => setDefect line c false s) s
      let up := s.up
      let s := modSdh p (fun x => { block := b, losIn := x.losIn, turned := up }) s
      let tribs := (mkeys s.rt.tdm.lines).filter fun e => e / 252 == p && e < 1008
      tribs.foldl (fun s e => restartLine e (lineOn s e) s) s
  else
    let old := lineOn s line
    if u8 old 2 = u8 b 2 ∧ u8 old 3 = u8 b 3 then modE1 line (fun l => { l with block := b }) s else restartLine line b s

/-- LINE_SETTING_APPLY: at a tick boundary the settings given before it take effect (R490). -/
def execLineSettingApply (t : Time) (s : State) : Host.Outcome State Fault Refusal :=
  let s := s.advance t
  if s.now % tMs = 0 then
    let w := s.rt.tdm.waiting
    let ports := w.filter fun x => decide (0x10000 ≤ x.1)
    let lines := w.filter fun x => decide (x.1 < 0x10000)
    done ((ports ++ lines).foldl (fun s x => applySetting x.1 x.2 s) (s.modTdm fun t => { t with waiting := [] }))
  else done s

/-! Protection (R482 to R484). -/

/-- A pair of the active generation. -/
def modProt (w : Nat) (f : Pair → Pair) (s : State) : State :=
  if mhas s.gens.active.prots w then s.modTdm fun t => { t with pairs := mmod t.pairs w {} f } else s

/-- Whether the latest multiframes of a working and a protecting VC-12, latest first, match at an offset: 4 consecutive ones are identical
in every byte, those of the protecting path x multiframes after those of the working one (R482). -/
def matchesAt (working protecting : List Bytes) (x : Int) : Bool :=
  let a := (working.drop x.toNat).take 4
  let b := (protecting.drop (-x).toNat).take 4
  a.length == 4 && a == b

/-- The offsets, in multiframes of 500 µs from −16 ms to +16 ms, at which the streams match (R482). -/
def matchOffsets (working protecting : List Bytes) : List Int :=
  ((List.range 65).map fun (i : Nat) => (i : Int) - 32).filter (matchesAt working protecting)

/-- PROT_ALIGN_SEARCH: the streams of an unaligned pair are searched, every 100 ms, for the one offset at which they match (R482). -/
def execProtAlignSearch (t : Time) (w : Fin 1008) (m : PairStreams) (s : State) : Host.Outcome State Fault Refusal :=
  let s := s.advance t
  let p := mgetD s.rt.tdm.pairs w.val {}
  let up := s.up
  if mhas s.gens.active.prots w.val && p.aligned.isNone && p.searched.all fun x => decide (x + 100 * tMs ≤ up) then
    done (match matchOffsets m.working m.protecting with
      | [x] => setDefect (pairLine w.val) 28 false (modProt w.val (fun p =>
          { p with aligned := some x, failedChecks := 0, searched := none, checked := up }) s)
      | _ => setDefect (pairLine w.val) 28 true (modProt w.val (fun p => { p with searched := some up }) s))
  else done s

/-- PROT_ALIGN_RECHECK: an aligned pair is checked once a second; 3 failed checks end its alignment (R482). -/
def execProtAlignRecheck (t : Time) (w : Fin 1008) (m : PairStreams) (s : State) : Host.Outcome State Fault Refusal :=
  let s := s.advance t
  let p := mgetD s.rt.tdm.pairs w.val {}
  let up := s.up
  if mhas s.gens.active.prots w.val ∧ p.checked + tS ≤ up then
    match p.aligned with
    | none => done s
    | some x =>
      if matchesAt m.working m.protecting x then done (modProt w.val (fun p => { p with failedChecks := 0, checked := up }) s)
      else if p.failedChecks + 1 < 3 then
        done (modProt w.val (fun p => { p with failedChecks := p.failedChecks + 1, checked := up }) s)
      else
        done (setDefect (pairLine w.val) 28 true (modProt w.val (fun p => { p with
          failedChecks := 0, aligned := none, searched := some up }) s))
  else done s

/-- PROT_HOLDOFF_EXPIRY: a condition that has persisted for the hold-off time takes effect (R484). -/
def execProtHoldoffExpiry (t : Time) (w : Fin 1008) (s : State) : Host.Outcome State Fault Refusal := done (judgePair w.val (s.advance t))

/-- WAIT_TO_RESTORE_EXPIRY (R484). -/
def execWaitToRestoreExpiry (t : Time) (w : Fin 1008) (s : State) : Host.Outcome State Fault Refusal :=
  let s := s.advance t
  match (mgetD s.rt.tdm.pairs w.val {}).restore with
  | some e => done (if e ≤ s.up then reselect w.val (modProt w.val (fun p => { p with restore := none }) s) else s)
  | none => done s

/-- SD_SECOND: at a second boundary the errored multiframes of the second are judged against each pair's threshold (R484). -/
def execSdSecond (t : Time) (s : State) : Host.Outcome State Fault Refusal :=
  let s := s.advance t
  if s.now % tS = 0 then
    let n := s.rt.tdm.errored
    let s := s.modTdm fun t => { t with errored := [] }
    done (s.gens.active.prots.foldl (fun s e =>
      let past := fun x => u16 e.2 0xA != 0 && decide (u16 e.2 0xA ≤ mgetD n x 0)
      judgePair e.1 (modProt e.1 (fun p => { p with degraded := [past e.1, past (u16 e.2 2)] }) s)) s)
  else done s

/-! Counters (R489). -/

/-- Offsets of the defect-second counters of a line, by defect code. -/
def secondsOf (line : Nat) : List (Nat × Nat) :=
  if 0x20000 ≤ line then [(28, 0x10)]
  else if 0x10000 ≤ line then [(0, 0x14), (1, 0x18), (2, 0x1C)]
  else [(0, 0x1C), (1, 0x20), (2, 0x24), (16, 0x28)]

/-- TDM_COUNTER_LATCH: at a second boundary every counter is latched, and defect seconds are counted (R489). -/
def execTdmCounterLatch (t : Time) (s : State) : Host.Outcome State Fault Refusal :=
  let s := s.advance t
  if s.now % tS = 0 then
    let s := s.rt.tdm.present.foldl (fun s x =>
      (secondsOf x.1).foldl (fun s c => countLine x.1 c.2 (b2n (bit x.2 c.1)) s) s) s
    let sec := s.now / tS
    done (s.modTdm fun t => { t with present := t.defects, latched := t.counts, second := sec })
  else done s

/-! Activation (R98, R99, R481, R484, R497). -/

/-- The TDM objects at an activation: pairs begin on working and not aligned; requests of pairs that leave end; the octets of legs and
codes of outputs that leave go. -/
def activateTdm (old new : Generation) (s : State) : State :=
  let kept := fun w => mget old.prots w == mget new.prots w
  let named := tdmLegs new
  let s := (mkeys s.rt.tdm.pairs).foldl (fun s w => if kept w && mhas new.prots w then s
    else [24, 25, 26, 27, 28].foldl (fun s c => markDefect (pairLine w) c false s) s) s
  let s := s.modTdm fun t => { t with
    pairs := new.prots.map fun e => (e.1, if kept e.1 then mgetD t.pairs e.1 {} else {})
    requests := mkeep t.requests fun w _ => mhas new.prots w
    gather := mkeep t.gather fun l _ => mhas named l, sending := mkeep t.sending fun l _ => mhas named l }
  judgePairs s

end Sys2Proof.Machine
end

