-- ==== Sys2Proof/Machine/Unit.lean ====
section
/-! DEFINITION. What a block's reset, and the loss of its power, leave (R601, R614, R624, R625, R634). -/

namespace Sys2Proof.Machine

/-- A Campion item that was lost: the slice at hand is not coded, or the picture not decoded (R145). -/
def workLost (v : Nat) (s : State) : State :=
  onStream v (fun s =>
    let x := s.vid v
    match x.coding with
    | some c =>
      let table := sliceTable c.taken.block
      let c' := { c with slice := c.slice + 1, row := c.row + (table.getD c.slice (0, 0)).2 }
      if c.slice + 1 = table.length then endPicture v c' c.spent 0 s else modVid v (fun x => { x with coding := some c' }) s
    | none => modVid v (fun x => { x with complete := x.complete.drop 1 }) s) s

/-- Whether an item is work of a video stream. -/
def Item.ofStream (i : Item) : Bool := decide (0x3000 ≤ i.flow) && decide (i.flow < 0x4000)

/-- An item that expired, was shed or was lost: a tick item's leg or conference repeats what it had, once for its tick, and a stream goes on
without the work (R126, R145, R175, R198). -/
def itemMissed (i : Item) (s : State) : State :=
  if i.ofStream then workLost (i.flow - 0x3000) s
  else if i.tickItem && !i.missed then
    if i.flow < 0x2000 then legMissed i.object s else if i.flow < 0x2800 then confMissed i.object s else s
  else s

/-- Tick items that a fault has ended without output, or sent back for a missed deadline, leave their objects as expired items do
(R142, R145). -/
def missLost (old s : State) : State :=
  (old.rt.clover.items.filter fun i => (i.2.tickItem || i.2.ofStream) && match mget s.rt.clover.items i.1 with
    | none => true
    | some j => j.missed && !i.2.missed).foldl (fun s i => itemMissed i.2 s) s

/-- A core fault at a position, with what it does to the object of a tick item (R142, R145). -/
def coreFails (b p cause : Nat) (s : State) : State := missLost s (coreFault b p cause false s)

/-- A core fault of cause 1 to 4, which the row counts from 0 (R142, R145). -/
def execCoreFault (t : Time) (b : Fin 16) (p : Fin 9) (cause : Fin 4) (s : State) : Host.Outcome State Fault Refusal :=
  done (coreFails b.val p.val (cause.val + 1) (s.advance t))

def execCampionEngineFault (t : Time) (e : Fin 9) (s : State) : Host.Outcome State Fault Refusal :=
  let s := s.advance t
  done (missLost s (campionFault (16 + e.val) 6 s))

def execCampionSliceWatchdog (t : Time) (e : Fin 9) (s : State) : Host.Outcome State Fault Refusal :=
  let s := s.advance t
  done (missLost s (campionFault (16 + e.val) 7 s))

/-- An item is dispatched; single-bit errors met on its reads are corrected and counted (R117, R141). -/
def execItemDispatch (t : Time) (b : Fin 36) (p : Fin 9) (corrected : Nat) (s : State) : Host.Outcome State Fault Refusal :=
  let s := s.advance t
  done (missLost s (dispatch b.val p.val (bumpFault 6 corrected s)))

/-- What an item has run takes effect with its completion: all of it, or only its state where its deadline had been missed (R138,
R142). -/
def applyWork (i : Item) (s : State) : State :=
  match i.work with
  | none => s
  | some (.leg x) => if i.missed then atTick (s.rt.clover.tick - 1) (legReplayed i.flow x) s else legItem i.flow x s
  | some .conf => if i.missed then atTick (s.rt.clover.tick - 1) (confReplayed (i.flow - 0x2000)) s else confItem (i.flow - 0x2000) s

/-- Whether an engine's item has work of its own that ends it: a picture, a slice, a frame or a flatten (R228, R269, R284). -/
def engineWork (s : State) (b : Nat) (i : Item) : Bool :=
  decide (16 ≤ b) && decide (b < 30) &&
  (if 0x3000 ≤ i.flow ∧ i.flow < 0x4000 then
      (s.vid (i.flow - 0x3000)).busy || s.rt.video.leaving.any fun e => e.1 == i.flow - 0x3000
    else if 0x4000 ≤ i.flow ∧ i.flow < 0x5000 then
      (s.out (i.flow - 0x4000)).composing.isSome || s.rt.mallow.leaving.any fun e => e.1 == i.flow - 0x4000
    else i.flow == noFlow && (match mget s.rt.mallow.surfaces i.object with
      | some c => !c.ready && c.mark == i.input
      | none => false))

/-- An item completes, an engine's with the row of its work, a core's by the instant before the end of its deadline tick: at that instant it is late (R15, R126, R138). -/
def execItemComplete (t : Time) (b : Fin 36) (p : Fin 9) (s : State) : Host.Outcome State Fault Refusal :=
  let s := s.advance t
  match s.rt.clover.running b.val p.val with
  | none => done s
  | some (_, i) =>
    done (if !s.coreClock || !coreDone s b.val p.val || engineWork s b.val i then s
      else if b.val < 16 ∧ i.past (endedTick s) then coreFails b.val p.val 4 s
      else applyWork i (completeItem b.val p.val s))

/-- The items in service on a block are released without output (R123, R625). -/
def loseItems (b : Nat) (s : State) : State :=
  (List.range 9).foldl (fun s p =>
    match s.rt.clover.running b p with
    | none => s
    | some (o, i) =>
      let up := s.up
      itemMissed i (stopCore b p (s.modClover (Clover.finishDead o i up)))) s

/-- The coding in progress of the streams at an engine place is given up. -/
def abandonCoding (place : Nat) (s : State) : State :=
  let here := fun v => mget s.gens.active.vidAt v == some place
  let s := s.rt.video.vids.foldl (fun s e => if here e.1 && isEncode s.gens.active e.1 then dropCodings e.1 s else s) s
  s.modVideo fun x => { x with leaving := x.leaving.filter fun e =>
    (e.2.coding.toList.map (·.taken.place) ++ e.2.queue.map (·.place)).all fun p => p != place }

/-- The frames in composition at an engine place are given up, and the frames before them are sent again (R152, R287). -/
def abandonFrames (place : Nat) (s : State) : State :=
  ((mkeys s.rt.mallow.outs).filter fun o => mget s.gens.active.outAt o == some place).foldl (fun s o => giveUpFrame o s) s

/-- The MACs lose their links and what they held; settings stay (R601, R614). -/
def resetMacs (s : State) : State :=
  let s := (List.range 4).foldl (fun s p => linkDown p 0 s) s
  let up := s.up
  s.modNet fun n =>
    { n with
      tsQueue := [], rate := (0, 0), nodes := [], redSeq := [], lanFault := [], ringOpen := [], stats := []
      lanHeard := mall n.lanHeard fun _ _ => up, ownHeard := mall n.ownHeard fun _ _ => up, supAt := mall n.supAt fun _ _ => up }

/-- The framers, slip stores and switch start again; settings stay, and the lines realign (R601, R614). -/
def resetTdm (s : State) : State :=
  let up := s.up
  let s := s.rt.tdm.ports.foldl (fun s e =>
    let s := (List.range 29).foldl (fun s c => setDefect (sdhLine e.1) c false s) s
    modSdh e.1 (fun x => { block := x.block, losIn := x.losIn, turned := up }) s) s
  let s := s.rt.tdm.lines.foldl (fun s e => restartLine e.1 (lineOn s e.1) s) s
  let s := s.modTdm fun t => { t with requests := [], written := [], sent := [], bad := [], gather := [], sending := [], counts := [] }
  activateTdm {} s.gens.active s

/-- Sorrel's tables are built again from the active generation (R614, R624). -/
def resetSorrel (s : State) : State := activateFwd {} s.gens.active (s.modFwd fun _ => {})

/-- What a block holds is lost: memories hold zeros, tables stand as initialised (R601, R614, R624, R634). -/
def clearBlock (b : Nat) (s : State) : State :=
  if b < 16 then s.modDsp fun d => { d with cores := mkeep d.cores fun k _ => k / 16 != b, shared := mdel d.shared b }
  else if b < 30 then
    match s.rt.fault.placeOf b with
    | some p => if b < 25 then abandonCoding p s else abandonFrames p s
    | none => s
  else if b = 30 then resetSorrel s
  else if b = 31 then s.modSec fun x => { x with waiting := [] }
  else if b = 32 then s.modRt fun r => { r with zip := [] }
  else if b = 33 then resetTdm s
  else if b = 34 then resetMacs s
  else s

/-- A block's reset: its items are lost, its contents go, and a reset of block 32 truncates the segment in progress (R614, R625). -/
def resetBlock (b : Nat) (s : State) : State :=
  let s := clearBlock b (loseItems ((s.rt.fault.placeOf b).getD b) s)
  if b = 32 ∧ s.rt.recorder.running ∧ s.rt.recorder.seg.isSome then recResume s else s

/-- A unit is re-initialised after its test (R634). -/
def clearUnit (b site : Nat) (s : State) : State :=
  if b < 16 then
    if site = 255 then s.modDsp fun d => { d with shared := mdel d.shared b }
    else s.modDsp fun d => { d with cores := mdel d.cores (b * 16 + site) }
  else if b = 31 then s
  else clearBlock b s

end Sys2Proof.Machine
end

