-- ==== Sys2Proof/Machine/CoreCtl.lean ====
section
/-! DEFINITION. The core control registers, DMA, enqueues and interrupts of a Yarrow core (R419, R423, R427, R430 to R432). -/

namespace Sys2Proof.Machine

/-! DMA (R427, R432, R633). -/

/-- Device addresses of the source bytes of a transfer, in order. -/
def DmaCh.sources (d : DmaCh) : List Int :=
  (List.range d.rows).flatMap fun (i : Nat) => (List.range d.len).map fun (j : Nat) => (d.src : Int) + i * d.sstride.toInt + j

/-- Device addresses of the destination bytes of a transfer, in order. -/
def DmaCh.targets (d : DmaCh) : List Int :=
  (List.range d.rows).flatMap fun (i : Nat) => (List.range d.len).map fun (j : Nat) => (d.dst : Int) + i * d.dstride.toInt + j

/-- Whether every value of a transfer lies in the range that R419 gives it. -/
def DmaCh.valid (d : DmaCh) : Bool :=
  decide (4 ≤ d.len) && decide (d.len ≤ 65536) && d.len % 4 == 0 && d.sstride.toNat % 4 == 0 && d.dstride.toNat % 4 == 0

/-- Ranges that DMA of a user core may read and write: first address and length (R432). -/
def userRanges (s : State) (b q : Nat) : List (Nat × Nat) :=
  (bankBase, 0x20000) :: (partBase s b, u64 (mgetD s.gens.active.partitions q []) 0x18) ::
    (clustersOf s.gens.active q).map fun c => (clusterBase + c * 0x100000, 0x80000)

/-- Whether rows of a transfer lie within one of several ranges each. -/
def rowsWithin (l : List (Nat × Nat)) (start : Nat) (stride : Int) (d : DmaCh) : Bool :=
  (List.range d.rows).all fun (i : Nat) =>
    let a := (start : Int) + i * stride
    l.any fun x => decide ((x.1 : Int) ≤ a) && decide (a + d.len ≤ (x.1 + x.2 : Nat))

/-- Whether a transfer of a core keeps to R432. -/
def dmaAllowed (s : State) (b : Nat) (c : Core) (d : DmaCh) : Bool :=
  match partitionOf s.gens.active b with
  | none => true
  | some q =>
    let both := userRanges s b q
    rowsWithin ((u64 c.desc 16, u32 c.desc 24) :: both) d.src d.sstride.toInt d && rowsWithin both d.dst d.dstride.toInt d

/-- The byte at a device address, and whether anything is there. -/
def sourceByte (s : State) (k : Nat) (a : Int) : Option Byte := if a < 0 then none else devRead s k a.toNat

/-- The cluster whose memory under test a device address lies in (R633). -/
def isolatedAt (s : State) (a : Int) : Option Nat :=
  let c := (a.toNat - clusterBase) / 0x100000
  if (clusterBase : Int) ≤ a ∧ c < 16 ∧ mhas s.rt.test.running (c * 256 + 255) then some c else none

/-- An access to an isolated unit is counted (R633). -/
def countIsolated (unit : Nat) (s : State) : State :=
  s.modTest fun t => { t with reports := mmod t.reports unit {} fun r => { r with isolated := r.isolated + 1 } }

def modCh (k ch : Nat) (f : DmaCh → DmaCh) (s : State) : State :=
  modCore k (fun c => { c with dma := c.dma.set ch (f (c.dma.getD ch {})) }) s

/-- GO: the range is checked and the transfer starts; no rows are done at once (R427). -/
def dmaGo (b p k ch : Nat) (s : State) : State :=
  let c := s.core k
  let d := c.dma.getD ch {}
  if !dmaAllowed s b c d then coreFails b p 3 s
  else if d.rows = 0 then modCh k ch (fun d => { d with done := true }) (if d.irq then raiseSource k ch s else s)
  else modCh k ch (fun d => { d with busy := true, snap := d.sources.map fun a => (sourceByte s k a).getD 0 }) s

/-- The bytes that a transfer writes: those its source held, free where the source changed, was nowhere, or was out of range; zeros for
64-byte lines that fail or are isolated. With it whether any line failed (R427, R633) (log 46). -/
def dmaData (s : State) (k draw : Nat) (failing : List Nat) (d : DmaCh) : Bytes × Bool :=
  let src := d.sources
  let same := d.valid && (src.map fun a => (sourceByte s k a).getD 0) == d.snap
  let bad := fun (a : Int) => failing.contains (a.toNat / 64) || (isolatedAt s a).isSome
  let data := src.zipIdx.map fun x =>
    if bad x.1 then 0
    else if same && (sourceByte s k x.1).isSome then d.snap.getD x.2 0
    else Config.loadedOctet draw x.2
  (data, src.any bad)

/-- The lines of DRAM that a transfer reads. -/
def dmaLines (s : State) (d : DmaCh) : List Nat :=
  ((d.sources.filter fun a => decide (0 ≤ a) && decide (a.toNat < s.rt.dram.fitted)).map fun a => a.toNat / 64).eraseDups

/-- A transfer completes: the lines of its source that the operand names, and those of DRAM in which an uncorrectable error stands, read as
zeros (R427, R577). -/
def dmaDone (k ch : Nat) (named : List Nat) (s : State) : State :=
  let d := (s.core k).dma.getD ch {}
  let e := (dmaLines s d).foldl (fun (r : List Nat × State) l =>
    let m := meetError l (if named.contains l then .several else .good) r.2
    (if m.1 then l :: r.1 else r.1, m.2)) ([], s)
  let failing := named ++ e.1
  let s := e.2
  let r := s.draw
  let x := dmaData s k r.1 failing d
  let touched := (d.sources.filterMap (isolatedAt s) ++ d.targets.filterMap (isolatedAt s)).eraseDups
  let s := touched.foldl (fun s c => countIsolated (c * 256 + 255) s) r.2
  let s := (d.targets.zip x.1).foldl (fun (s : State) w =>
    if w.1 < 0 ∨ (isolatedAt s w.1).isSome then s else devWrite k w.1.toNat w.2 s) s
  let s := modCh k ch (fun d => { d with busy := false, done := true, err := d.err || x.2, snap := [] }) s
  if d.irq then raiseSource k ch s else s

/-! Enqueues (R430, R431, R433). -/

/-- Why an enqueue of a user core is refused; none where it is not. -/
def refusal (g : Generation) (q : Nat) (d : Bytes) : Option Nat :=
  let target := u8 d 3
  let flow := u32 d 4
  let ordered := decide (0x8000 + 4096 * q ≤ flow) && decide (flow < 0x9000 + 4096 * q)
  if !(clustersOf g q).contains target then some 1
  else if flow = noFlow ∨ ordered then none
  else match userFlow g flow with
    | some (r, _, home) => if r ≠ q then some 2 else if home ≠ target then some 3 else none
    | none => some 2

/-- A refusal is counted and reported at most once a second (R431, R441). -/
def refuseEnqueue (b q reason : Nat) (s : State) : State :=
  let m := mgetD s.rt.dsp.images q {}
  let l := s.up :: m.recentRefusals.filter fun x => s.up < x + tS
  let report : Bool := match m.refusedAt with
    | some x => decide (x + tS ≤ s.up)
    | none => true
  let m := { m with refusals := m.refusals + 1, recentRefusals := l, refusedAt := if report then some s.up else m.refusedAt }
  (s.modDsp fun d => { d with images := mset d.images q m }).postIf report 0x0C81 2 b (reason + 256 * l.length)

/-- ENQ_GO (R430). -/
def enqueueGo (b p k : Nat) (s : State) : State :=
  let d := (s.core k).enq.flatMap fun w => le 2 w.toNat
  let no := match partitionOf s.gens.active b with
    | some q => (refusal s.gens.active q d).map fun r => (q, r)
    | none => none
  match no with
  | some (q, r) => refuseEnqueue b q r (modCore k (fun c => { c with refused := true, reason := r }) s)
  | none => enqueueItem b d (some (b, p)) (modCore k (fun c => { c with refused := false }) s)

/-! Writes (R419). -/

/-- A register of a DMA channel is written; while the channel is busy only the bits that clear by writing 1 are. -/
def dmaWrite (b p k ch reg : Nat) (v : Word24) (s : State) : State :=
  let d := (s.core k).dma.getD ch {}
  let n := v.toNat
  let part := fun (old i : Nat) => old - old / 2 ^ (24 * i) % 2 ^ 24 * 2 ^ (24 * i) + n * 2 ^ (24 * i)
  let top := fun (old : Nat) => old % 2 ^ 48 + n % 65536 * 2 ^ 48
  if reg = 11 then modCh k ch (fun d => { d with done := d.done && !bit n 1, err := d.err && !bit n 2 }) s
  else if d.busy then s
  else match reg with
    | 0 => modCh k ch (fun d => { d with src := part d.src 0 }) s
    | 1 => modCh k ch (fun d => { d with src := part d.src 1 }) s
    | 2 => modCh k ch (fun d => { d with src := top d.src }) s
    | 3 => modCh k ch (fun d => { d with dst := part d.dst 0 }) s
    | 4 => modCh k ch (fun d => { d with dst := part d.dst 1 }) s
    | 5 => modCh k ch (fun d => { d with dst := top d.dst }) s
    | 6 => modCh k ch (fun d => { d with len := n % 131072 }) s
    | 7 => modCh k ch (fun d => { d with rows := n % 65536 }) s
    | 8 => modCh k ch (fun d => { d with sstride := v }) s
    | 9 => modCh k ch (fun d => { d with dstride := v }) s
    | 10 =>
      let s := modCh k ch (fun d => { d with irq := bit n 1 }) s
      if bit n 0 then dmaGo b p k ch s else s
    | _ => s

/-- A doorbell raises source 4 on the named cores of a cluster (R419, R423). -/
def raiseDoorbells (b pos : Nat) (s : State) : State :=
  (List.range 9).foldl (fun s j => match if bit pos j then coreKey s b j else none with
    | some k => raiseSource k 4 s
    | none => s) s

/-- A core control register is written; an address between registers, or one that is read only, ignores it. -/
def ctrlWrite (b p off : Nat) (v : Word24) (s : State) : State :=
  match coreKey s b p with
  | none => s
  | some k =>
    if off = 0x12 then if v.getLsbD 0 then modCore k (fun c => { c with done := true }) s else s
    else if 0x20 ≤ off ∧ off < 0x30 then modCore k (fun c => { c with enq := c.enq.set (off - 0x20) (v.setWidth 16) }) s
    else if off = 0x30 then if v.getLsbD 0 then enqueueGo b p k s else s
    else if off = 0x40 then modCore k (fun c => { c with pend := c.pend &&& ~~~(v.setWidth 8) }) s
    else if off = 0x41 then modCore k (fun c => { c with en := v.setWidth 8 }) s
    else if off = 0x42 then raiseDoorbells b (v.toNat % 512) s
    else if off = 0x43 then modCore k (fun c => { c with ipc := v.setWidth 14 }) s
    else if off = 0x44 then modCore k (fun c => { c with isw := v }) s
    else if 0x80 ≤ off ∧ off < 0xC0 then dmaWrite b p k (off / 16 - 8) (off % 16) v s
    else s

/-- The register writes of an instruction take effect, while the core runs (R421). -/
def applyCtrl (b p k : Nat) (l : List (Nat × Word24)) (s : State) : State :=
  l.foldl (fun s w => if (s.core k).running then ctrlWrite b p w.1 w.2 s else s) s

/-- Whether a core stands at a write that does not complete (R130, R430). -/
def coreStalled (s : State) (b p : Nat) : Bool := s.rt.clover.stalled.any fun x => x.2.2 == some (b, p)

/-- Whether a core executes: it serves an item, has not declared it done, and does not stand at an enqueue. -/
def issuing (s : State) (b p : Nat) : Option Nat :=
  (coreKey s b p).bind fun k => if (s.core k).running && !(s.core k).done && !coreStalled s b p then some k else none

/-- A register write of an issuing core takes effect. -/
def ctrlEvent (b p off v : Nat) (s : State) : State :=
  match issuing s b p with
  | some _ => ctrlWrite b p off (BitVec.ofNat 24 v) s
  | none => s

/-- ITEM_CTRL.DONE is written (R419, R428). -/
def execItemCtrlDone (t : Time) (b : Fin 16) (p : Fin 9) (s : State) : Host.Outcome State Fault Refusal :=
  done (ctrlEvent b.val p.val 0x12 1 (s.advance t))

/-- ENQ_GO is written (R430). -/
def execEnqGo (t : Time) (b : Fin 16) (p : Fin 9) (s : State) : Host.Outcome State Fault Refusal :=
  done (ctrlEvent b.val p.val 0x30 1 (s.advance t))

/-- DOORBELL is written (R419). -/
def execDoorbellWrite (t : Time) (b : Fin 16) (p : Fin 9) (pos : BitVec 9) (s : State) : Host.Outcome State Fault Refusal :=
  done (ctrlEvent b.val p.val 0x42 pos.toNat (s.advance t))

/-- INT_PEND is written (R419). -/
def execIntPendClear (t : Time) (b : Fin 16) (p : Fin 9) (v : BitVec 8) (s : State) : Host.Outcome State Fault Refusal :=
  done (ctrlEvent b.val p.val 0x40 v.toNat (s.advance t))

/-- DMA_CTRL of a channel is written with GO at 1 (R427). -/
def execDmaCtrlGo (t : Time) (b : Fin 16) (p : Fin 9) (ch : Fin 4) (irq : Bool) (s : State) : Host.Outcome State Fault Refusal :=
  done (ctrlEvent b.val p.val (0x8A + 16 * ch.val) (1 + 2 * b2n irq) (s.advance t))

/-- DMA_STAT of a channel is written (R419). -/
def execDmaStatClear (t : Time) (b : Fin 16) (p : Fin 9) (ch : Fin 4) (clearDone clearErr : Bool) (s : State) :
    Host.Outcome State Fault Refusal :=
  done (ctrlEvent b.val p.val (0x8B + 16 * ch.val) (2 * b2n clearDone + 4 * b2n clearErr) (s.advance t))

/-- A transfer completes; the operand names the 64-byte lines of its source, by device address over 64, whose data is uncorrectable
(R427). -/
def execDmaDone (t : Time) (b : Fin 16) (p : Fin 9) (ch : Fin 4) (failing : List Nat) (s : State) :
    Host.Outcome State Fault Refusal :=
  let s := s.advance t
  done (match coreKey s b.val p.val with
    | some k => if ((s.core k).dma.getD ch.val {}).busy then dmaDone k ch.val failing s else s
    | none => s)

/-! Interrupts (R423, R424). -/

/-- The lowest pending and enabled source. -/
def takenSource (c : Core) : Option Nat := (List.range 8).find? fun i => (c.pend &&& c.en).getLsbD i

/-- A core enters the vector of a source with every earlier write landed. -/
def Core.enter (src : Nat) (c : Core) : Core :=
  let r := landAll c.late (landAll c.later c.regs)
  { c with
    regs := { r with sw := r.sw &&& ~~~(BitVec.ofNat 24 swIE) }, late := [], later := [], forward := []
    ipc := BitVec.ofNat 14 c.pc, isw := r.sw, pend := c.pend &&& ~~~(BitVec.ofNat 8 (2 ^ src)), pc := 2 * src }

/-- An interrupt is taken at an interruptible boundary (R423, R424). -/
def interruptEntry (b p : Nat) (s : State) : State :=
  match issuing s b p with
  | none => s
  | some k =>
    let c := s.core k
    if c.delay.isSome || c.repeat_.isSome then s
    else
      let s := applyCtrl b p k c.ctrlLate (modCore k (fun c => { c with ctrlLate := [] }) s)
      let c := s.core k
      let ie := swHas (landAll c.late (landAll c.later c.regs)).sw swIE
      if ie && (issuing s b p).isSome then
        match takenSource c with
        | some n => modCore k (Core.enter n) s
        | none => s
      else s

def execInterruptEntry (t : Time) (b : Fin 16) (p : Fin 9) (s : State) : Host.Outcome State Fault Refusal :=
  done (interruptEntry b.val p.val (s.advance t))

end Sys2Proof.Machine
end

