-- ==== Sys2Proof/Machine/Dsp.lean ====
section
/-! DEFINITION. User partitions: the DSP commands, image loads and activation (R433 to R441). -/

namespace Sys2Proof.Machine

/-- Whether the context pages of a partition fit: those homed on each of its clusters take at most 65,536 words (R433). -/
def pagesFit (flows pages clusters : Nat) : Bool := ceilDiv flows clusters * 2 * pages ≤ 65536

/-- A cluster on which a generation has placed a leg, with its routes, or a conference (R438). -/
def placesOn (g : Generation) (c : Nat) : Bool := (g.legAt ++ g.confAt).any fun e => e.2 == c

/-- DSP.PARTITION (R438). -/
def cmdDspPartition : Cmd where
  code := 0x0C00
  len := len1 32
  gmode := .modify
  fails := fun r _ s =>
    let b := r.params
    let q := u8 b 0
    let map := u16 b 2
    let mine := (List.range 16).filter fun c => bit map c
    let others := mdel s.gens.staged.partitions q
    let taken := others.find? fun e => u16 e.2 2 &&& map != 0
    let placed := mine.find? fun c => placesOn s.gens.active c || match s.gens.armed with
      | some a => placesOn a.gen c
      | none => false
    let total := mine.length + sum (others.map fun e => (clustersOf s.gens.staged e.1).length)
    fldFails b [rng 0 1 0 3, rsv 1 1, rng 4 2 0 4096, rng 6 2 0 1024, msk 8 1 1, rsv 9 7, (0x10, 8, fun v => v % 4096 == 0),
      (0x18, 8, fun v => v % 4096 == 0)] ++
    (if map = 0 then badIf (!mhas s.gens.staged.partitions q) 0
    else
      inUse (taken.map (·.1)) ++ inUse placed ++ failIf (decide (4 < total)) .capacityExceeded 1 ++
      failIf (!pagesFit (u16 b 4) (u16 b 6) mine.length) .capacityExceeded 2 ++
      badIf (u64 b 0x18 != 0 && !inHwin s.rt.dram (u64 b 0x10) (u64 b 0x18)) 0x18)
  run := fun r _ s =>
    let b := r.params
    okWith (s.stage fun g =>
      { g with partitions := if u16 b 2 = 0 then mdel g.partitions (u8 b 0) else mset g.partitions (u8 b 0) (slice b 0 32) })

/-- DSP.LOAD (R439). -/
def cmdDspLoad : Cmd where
  code := 0x0C01
  len := len1 16
  fails := fun r _ s =>
    let b := r.params
    fldFails b [rng 0 1 0 3, rsv 1 3, (8, 8, fun v => v % 64 == 0)] ++ badIf (!inHwin s.rt.dram (u64 b 8) (u32 b 4)) 8 ++
      failIf (s.lifecycle == 4) .deniedLifecycle 4
  run := fun r _ s =>
    let b := r.params
    let src := memRead s.rt.dram.mem (u64 b 8) (u32 b 4)
    let s := s.modDsp fun d => { d with loading := d.loading ++ [(r.slot.val, src)] }
    { status := .pending, st := s.addPending 0x0C01 r.slot.val r }

/-- Length of an image by its header (R434). -/
def imageLen (b : Bytes) : Nat := 128 + 2 * u16 b 0xE + 6 * u16 b 8 + 3 * (u16 b 0xA + u16 b 0xC)

/-- The image offset of the first bad field of a header, if any (R434, R439). -/
def badHeader (b : Bytes) : Option Nat :=
  let checks : List (Bool × Nat) := [(u32 b 0 == 0x4D49594C, 0), (u16 b 4 == 1, 4), (decide (u16 b 6 < 2), 6),
    (decide (16 ≤ u16 b 8) && decide (u16 b 8 ≤ 16384), 8), (decide (u16 b 0xA ≤ 16384), 0xA), (decide (u16 b 0xC ≤ 16384), 0xC),
    (decide (1 ≤ u16 b 0xE) && decide (u16 b 0xE ≤ 256), 0xE), (u32 b 0x10 == imageLen b && b.length == imageLen b, 0x10),
    (u64 b 0x18 == 0, 0x18), (bit (u16 b 6) 0 || allZero (slice b 0x20 96), 0x20)]
  (checks.find? fun x => !x.1).map (·.2)

/-- The digest of an image, its signature taken as zeros (R434). -/
def imageDigestOf (b : Bytes) : Bytes := Config.sha384 (putAt b 0x20 (zeros 96))

/-- Whether an image may be loaded: a signed one verifies; in FIELD_LOCKED it is signed (R434). -/
def imageTrusted (s : State) (b : Bytes) : Bool :=
  if bit (u16 b 6) 0 then
    !s.rt.mgmt.imageDigest.isEmpty && Config.signatureOk (imageDigestOf b) (slice b 0x20 96) s.rt.mgmt.imageDigest
  else s.lifecycle != 3

/-- DSP_LOAD_DONE: the image, free where its source changed, is checked and waits for its boundary (R435, R439; log 46). -/
def execDspLoadDone (t : Time) (slot : Fin 64) (s : State) : Host.Outcome State Fault Refusal :=
  let s := s.advance t
  match s.findPending 0x0C01 slot.val, s.rt.dsp.loading.find? fun x => x.1 == slot.val with
  | some c, some x =>
    let same := memRead s.rt.dram.mem (u64 c.params 8) (u32 c.params 4) == x.2
    let d := s.draw
    let b := if same then x.2 else (List.range x.2.length).map (Config.loadedOctet d.1)
    let s := if same then s else d.2
    let s := s.modDsp fun y => { y with loading := y.loading.erase x }
    match badHeader b with
    | some off => done (s.endPending c .badParam off)
    | none =>
      if imageTrusted s b then
        let up := s.up
        let s := s.modDsp fun y => { y with images := mmod y.images (u8 c.params 0) {} fun m => { m with waiting := some (b, up) } }
        done (s.endPending c .ok 0)
      else done (s.endPending c .authFailed 0)
  | _, _ => done s

/-- DSP.QUERY (R438). -/
def cmdDspQuery : Cmd where
  code := 0x0C02
  len := len1 4
  gmode := .read
  fails := fun r g _ => fldFails r.params [rng 0 1 0 3, rsv 1 3] ++ absentState (mhas g.partitions (u8 r.params 0))
  run := fun r g s => okWith s (mgetD g.partitions (u8 r.params 0) [])

/-- DSP.STATUS (R440). -/
def cmdDspStatus : Cmd where
  code := 0x0C03
  len := len1 4
  fails := fun r _ _ => fldFails r.params [rng 0 1 0 3, rsv 1 3]
  run := fun r _ s =>
    let q := u8 r.params 0
    let m := mgetD s.seen.dsp.images q {}
    let active := s.gens.active
    let on := m.stamp ≠ 0
    let b := m.inForce
    okWith s (block 32 [(0, 1, if m.waiting.isSome then 1 else if on then 2 else 0), (1, 1, (clustersOf active q).length),
      (2, 2, if on then u16 b 0xE else 0), (4, 4, if on then u32 b 0x14 else 0),
      (8, 16, if on then uN (imageDigestOf b) 0 16 else 0), (0x18, 4, m.refusals), (0x1C, 4, m.bad)])

/-- An image comes into force (R435). -/
def putImage (q : Nat) (b : Bytes) (s : State) : State :=
  let n := s.rt.dsp.stamps + 1
  imageEvent q (s.modDsp fun d => { d with
    stamps := n
    images := mmod d.images q {} fun m => { m with inForce := b, stamp := n, waiting := none } })

/-- IMAGE_ACTIVATE: at a boundary, images loaded at least 1 ms before come into force; a core reloads before its next item (R435). -/
def execImageActivate (t : Time) (s : State) : Host.Outcome State Fault Refusal :=
  let s := s.advance t
  if s.atBoundary then
    done (s.rt.dsp.images.foldl (fun s e => match e.2.waiting with
      | some w => if w.2 + tMs ≤ s.up then putImage e.1 w.1 s else s
      | none => s) s)
  else done s

/-- Waiting items of a cluster that leaves a partition expire (R126, R436). -/
def expireCluster (c : Nat) (s : State) : State :=
  (s.rt.clover.items.filter fun i => i.2.waits && i.2.target == c).foldl (fun s i =>
    let up := s.up
    s.modClover fun x => { x with stats := bump x.stats 0x10 }.finishDead i.1 i.2 up) s

/-- The partitions at an activation: a cluster that leaves one expires its items; one that joins one loads its image, and one that
joins none loads firmware, whose words nothing states (R432, R435, R436; log 72). -/
def activateDsp (old new : Generation) (s : State) : State :=
  let moved := (List.range 16).filter fun c => partitionOf old c != partitionOf new c
  let s := moved.foldl (fun s c => if (partitionOf old c).isSome then expireCluster c s else s) s
  let leaves := moved.filter fun c => (partitionOf new c).isNone
  let s := s.modDsp fun d => { d with cores := mall d.cores fun k x => if leaves.contains (k / 16) then { x with prog := [] } else x }
  let joined := moved.filter fun c => (partitionOf new c).isSome
  let s := joined.foldl (fun s c => s.modDsp fun d => { d with
    cores := mall d.cores fun k x => if k / 16 = c then { x with stamp := 0 } else x }) s
  (joined.filterMap fun c => partitionOf new c).eraseDups.foldl (fun s q => imageEvent q s) s

def execDspPartition (r : Request) (s : State) : Host.Outcome State Fault Refusal := execCmd cmdDspPartition r s
def execDspLoad (r : Request) (s : State) : Host.Outcome State Fault Refusal := execCmd cmdDspLoad r s
def execDspQuery (r : Request) (s : State) : Host.Outcome State Fault Refusal := execCmd cmdDspQuery r s
def execDspStatus (r : Request) (s : State) : Host.Outcome State Fault Refusal := execCmd cmdDspStatus r s

end Sys2Proof.Machine
end

