-- ==== Sys2Proof/Machine/Rtcp.lean ====
section
/-! DEFINITION. RTCP of legs, streams, relays and subscriptions (R187, R248, R251, R312, R313, R318). -/

namespace Sys2Proof.Machine

/-! Sending. -/

/-- A leg's RTCP as it leaves (R179, R187). -/
def sendLegRtcp (n : Nat) (b : Bytes) (launch : Time) (d : Bytes) (s : State) : State :=
  let off := b2n (!bit (u8 b 5) 4)
  sendMedia (u32 b 0x50) true false false
    { legOut s n b (rtcpOut n d) with launch := some launch, sport := u16 b 0x44 + off, dport := u16 b 0x46 + off } s

/-- The report block of the remote SSRC in use, where there is one. -/
def sourceBlocks (r : RtpRx) (clock : Nat) (up : Time) : List Bytes :=
  match r.ssrc with
  | some x => [reportBlock x r clock up]
  | none => []

/-- The RTP timestamp of a leg at the present instant: that of the frame in progress and what has passed of it; a tick whose item has run
is counted up to the instant. -/
def legTsNow (b : Bytes) (l : Leg) (s : State) : Nat :=
  let clock := legClock b
  let tick := s.rt.clover.tick
  let ran := (l.tx.headD (tick + 1, [])).1 == tick || l.missed.headD (tick + 1) == tick
  (l.ts + l.pos * clock + 4294967296 + s.now % tMs * clock / tMs - if ran then clock else 0) % 4294967296

/-- A leg's compound packet (R187). -/
def legReport (n : Nat) (b : Bytes) (more : Bytes) (s : State) : Bytes :=
  let l := s.leg n
  let info := if l.sentSince then
      some ({ ntp := ntpTime s, ts := legTsNow b l s, packets := l.sent.1 % 4294967296, octets := l.sent.2 % 4294967296 } : SenderInfo)
    else none
  compound (u32 b 0x48) info (sourceBlocks l.rtp (codecClock (u8 b 3)) s.up) (cnameLeg n) more

/-- Whether a leg has RTCP enabled. -/
def legRtcpOn (b : Bytes) : Bool := u8 b 2 == 0 && bit (u8 b 5) 3

/-- A leg's RTCP is due. A stopped send side sends nothing (R180). -/
def legRtcpSend (n : Nat) (b : Bytes) (s : State) : State :=
  if legRtcpOn b && decide ((s.leg n).rtcpAt ≤ s.up) then
    let d := s.draw
    let up := s.up
    let next := up + rtcpDelay (u8 b 0x59) d.1
    if (s.leg n).stopped then modLeg n (fun l => { l with rtcpAt := next }) d.2
    else modLeg n (fun l => { l with rtcpAt := next, sentSince := false, rtp := l.rtp.reported })
      (sendLegRtcp n b (boundaryAfter s.now) (legReport n b [] s) d.2)
  else s

/-- A leg that leaves the active generation sends one BYE at the boundary (R187). -/
def legBye (n : Nat) (b : Bytes) (s : State) : State :=
  if legRtcpOn b && !(s.leg n).stopped then sendLegRtcp n b s.now (legReport n b (byePacket (u32 b 0x48)) s) s else s

/-- The RTP timestamp of an encode stream at the present instant. -/
def vidTsNow (x : Vid) (now : Time) : Nat := (x.ts + (now - x.start) * 90 / tMs) % 4294967296

/-- Whether an encode stream sends to subscriptions only. -/
def copiesOnly (b : Bytes) : Bool := allZero (slice b 0x44 16)

/-- A decode stream sends receiver reports, an encode stream with a remote address of its own sender reports. -/
def vidRtcpSend (v : Nat) (b : Bytes) (s : State) : State :=
  let x := s.vid v
  let enc := isEncode s.gens.active v
  if decide (x.rtcpAt ≤ s.up) && !(enc && copiesOnly b) then
    let d := s.draw
    let info := if enc && x.sentSince then
        some ({ ntp := ntpTime s, ts := vidTsNow x s.now, packets := x.sent.1 % 4294967296, octets := x.sent.2 % 4294967296 } : SenderInfo)
      else none
    let pkt := compound (if enc then u32 b 0x58 else x.own) info (if enc then [] else sourceBlocks x.rtp 90 s.up) (cnameVid v) []
    let off := b2n (!bit (u8 b 0x67) 0)
    let s := sendMedia (u32 b 0x5C) true false false
      { flow := 0x3000 + v, port := u8 b 0x30, ip := u8 b 0x31, dscp := u8 b 0x32, src := slice b 0x34 16, dst := slice b 0x44 16
        vlan := u16 b 0x64, sport := u16 b 0x54 + off, dport := u16 b 0x56 + off, packet := rtcpOut (0x3000 + v) pkt } d.2
    let up := s.up
    modVid v (fun x => { x with rtcpAt := up + rtcpDelay (u8 b 0x66) d.1, sentSince := false, rtp := x.rtp.reported }) s
  else s

/-- A relay's receiver reports go to its sender (R318). -/
def relayRtcpSend (v : Nat) (b : Bytes) (s : State) : State :=
  let r := s.rt.fwd.relay v
  if r.rtcpAt ≤ s.up then
    let d := s.draw
    let off := b2n (!bit (u8 b 7) 3)
    let pkt := compound r.own none (sourceBlocks r.rtp 90 s.up) (cnameVid v) []
    let s := sendMedia (u32 b 0x34) true false true
      { flow := 0x80000 + v, port := u8 b 4, ip := u8 b 5, src := slice b 8 16, dst := slice b 0x18 16, vlan := u16 b 0x3C
        sport := u16 b 0x28 + off, dport := u16 b 0x2A + off, packet := rtcpOut (0x80000 + v) pkt } d.2
    let up := s.up
    modRelay v (fun r => { r with rtcpAt := up + rtcpDelay (u8 b 0x3E) d.1, rtp := r.rtp.reported }) s
  else s

/-- NTP time and RTP timestamp that a subscription's SR gives: the sender's last SR advanced by the time elapsed, or the encode
stream's own clock, both shifted by the subscription's offset (R315, R318). -/
def subClock (v : Nat) (x : Sub) (s : State) : Option (Nat × Nat) :=
  if mhas s.gens.active.relays v then
    (s.rt.fwd.relay v).sr.map fun r =>
      let e := s.up - r.2.2
      ((r.1 + e * 4294967296 / tS) % 2 ^ 64, (r.2.1 + e * 90 / tMs + x.tsOffset) % 4294967296)
  else some (ntpTime s, (vidTsNow (s.vid v) s.now + x.tsOffset) % 4294967296)

/-- A subscription's compound packet towards its receiver (R318). -/
def subRtcpSend (n : Nat) (b : Bytes) (s : State) : State :=
  let x := s.rt.fwd.sub n
  let v := u16 b 4
  if x.rtcpAt ≤ s.up then
    let d := s.draw
    let info := if x.sentSince then (subClock v x s).map fun c =>
        ({ ntp := c.1, ts := c.2, packets := x.sent.1 % 4294967296, octets := x.sent.2 % 4294967296 } : SenderInfo)
      else none
    let s := subRtcp n b (compound (u32 b 0x34) info [] (subCname s v) []) d.2
    let up := s.up
    modSub n (fun x => { x with rtcpAt := up + rtcpDelay (u8 b 0x44) d.1, sentSince := false }) s
  else s

/-- RTCP_SEND (R187, R248, R318): the interval drawn has passed. -/
def execRtcpSend (t : Time) (o : RtcpObject) (s : State) : Host.Outcome State Fault Refusal :=
  let s := s.advance t
  let g := s.gens.active
  done (match o with
    | .leg n => match mget g.legs n.val with
      | some b => legRtcpSend n.val b s
      | none => s
    | .vid v => match mget g.vids v.val with
      | some b => vidRtcpSend v.val b s
      | none => s
    | .relay v => match mget g.relays v.val with
      | some b => relayRtcpSend v.val b s
      | none => s
    | .sub n => match mget g.subs n.val with
      | some b => subRtcpSend n.val b s
      | none => s)

/-! Receiving. -/

/-- Report blocks of a report: 24 octets each. -/
def reportBlocks : Nat → Bytes → List Bytes
  | 0, _ => []
  | k + 1, b => if b.length < 24 then [] else b.take 24 :: reportBlocks k (b.drop 24)

/-- The block of a report, sent or received, about an SSRC. -/
def blockAbout (ssrc count : Nat) (b : Bytes) : Option Bytes :=
  (reportBlocks count b).find? fun x => beNat (slice x 0 4) == ssrc

/-- The round trip in µs that a report block shows: now − LSR − DLSR (RFC 3550). -/
def roundTripOf (s : State) (x : Bytes) : Option Nat :=
  let lsr := beNat (slice x 16 4)
  if lsr = 0 then none
  else some ((ntpMid (ntpTime s) + 2 * 4294967296 - lsr - beNat (slice x 20 4)) % 4294967296 * 1000000 / 65536)

/-- Sender's time in an SR's body: middle bits of its NTP time. -/
def srMid (b : Bytes) : Nat := beNat (slice b 6 4)

/-- The CNAME of an SDES body's first item. -/
def sdesCname (b : Bytes) : Option Bytes := if u8 b 4 = 1 then some (slice b 6 (u8 b 5)) else none

/-- Whether a part asks for a key picture: a PLI, or an FIR. -/
def asksKey (x : Nat × Nat × Bytes) : Bool := x.2.1 == 206 && (x.1 == 1 || x.1 == 4)

/-- A leg takes a part: an SR gives the time of the last report and the round trip (R187). -/
def legRtcpPart (n : Nat) (x : Nat × Nat × Bytes) (s : State) : State :=
  let b := mgetD s.gens.active.legs n []
  if x.2.1 = 200 then
    let up := s.up
    let rtt := (blockAbout (u32 b 0x48) x.1 (x.2.2.drop 24)).bind (roundTripOf s)
    modLeg n (fun l => { l with
      rtp := { l.rtp with lastSr := some (srMid x.2.2, up) }, roundTrip := rtt.getD l.roundTrip }) s
  else s

/-- A stream takes a part: a decode stream an SR, an encode stream a key request (R251). -/
def vidRtcpPart (v : Nat) (x : Nat × Nat × Bytes) (s : State) : State :=
  let up := s.up
  if isEncode s.gens.active v then if asksKey x then encodeKey v 1 s else s
  else if x.2.1 = 200 then modVid v (fun y => { y with rtp := { y.rtp with lastSr := some (srMid x.2.2, up) } }) s
  else s

/-- A relay takes a part: an SR of its sender, or its CNAME (R318). -/
def relayRtcpPart (v : Nat) (x : Nat × Nat × Bytes) (s : State) : State :=
  let up := s.up
  if x.2.1 = 200 then
    modRelay v (fun r => { r with
      rtp := { r.rtp with lastSr := some (srMid x.2.2, up) }
      sr := some (beNat (slice x.2.2 4 8), beNat (slice x.2.2 12 4), up) }) s
  else if x.2.1 = 202 then
    match sdesCname x.2.2 with
    | some c => modRelay v (fun r => { r with cname := c }) s
    | none => s
  else s

/-- A subscription takes a part from its receiver: reports, key requests, TMMBR; all other feedback is discarded (R318). -/
def subRtcpPart (n : Nat) (b : Bytes) (x : Nat × Nat × Bytes) (s : State) : State :=
  if x.2.1 = 200 ∨ x.2.1 = 201 then
    match blockAbout (u32 b 0x34) x.1 (x.2.2.drop (if x.2.1 = 200 then 24 else 4)) with
    | some y =>
      let rtt := roundTripOf s y
      modSub n (fun z => { z with
        rrLost := beNat (slice y 5 3), rrJitter := beNat (slice y 12 4) * 100 / 9, rtt := rtt.getD z.rtt }) s
    | none => s
  else if asksKey x then if bit (u8 b 7) 1 then keyRequest (u16 b 4) n 3 s else s
  else if x.2.1 = 205 ∧ x.1 = 3 then
    let w := beNat (slice x.2.2 12 4)
    takeTmmbr n (beNat (slice x.2.2 0 4)) (w / 2 ^ 9 % 2 ^ 17 * 2 ^ (w / 2 ^ 26)) s
  else s

/-- RTCP_RECEIVE: the oldest RTCP packet of an object is taken, part by part (R318). -/
def execRtcpReceive (t : Time) (o : RtcpObject) (s : State) : Host.Outcome State Fault Refusal :=
  let s := s.advance t
  let g := s.gens.active
  let key := 0x100000 + match o with
    | .leg n => n.val
    | .vid v => 0x3000 + v.val
    | .relay v => 0x80000 + v.val
    | .sub n => 0x90000 + n.val
  match if s.stalls 30 then (none, s) else popInbox key s with
  | (none, s) => done s
  | (some (_, f), s) =>
    let parts := rtcpParts (f.data.length / 4 + 1) f.data
    done (match o with
      | .leg n => if mhas g.legs n.val then parts.foldl (fun s x => legRtcpPart n.val x s) s else s
      | .vid v => if mhas g.vids v.val then parts.foldl (fun s x => vidRtcpPart v.val x s) s else s
      | .relay v => if mhas g.relays v.val then parts.foldl (fun s x => relayRtcpPart v.val x s) s else s
      | .sub n => match mget g.subs n.val with
        | some b => parts.foldl (fun s x => subRtcpPart n.val b x s) s
        | none => s)

end Sys2Proof.Machine
end

