-- ==== Sys2Proof/Machine/Gen.lean ====
section
/-! DEFINITION. Generations, the switch at a boundary, the tick boundary, and the resume after a warm reset (R84 to R113, R144, R154, R155). -/

namespace Sys2Proof.Machine

/-! Numbers and roles (R86, R87). -/

/-- The next number after one, skipping 0 and numbers that hold a role (R86). -/
def numberAfter (roles : List Nat) : Nat → Nat → Nat
  | 0, n => n
  | k + 1, n =>
    let m := if n = 4294967295 then 1 else n + 1
    if roles.contains m then numberAfter roles k m else m

/-- Numbers that hold a role. -/
def Gens.roles (g : Gens) : List Nat :=
  [g.active.number, g.staged.number] ++ (g.previous.map (·.number)).toList ++ (g.armed.map (·.gen.number)).toList

/-- A new staged generation opens as a copy of another (R86, R87). -/
def Gens.openStaged (base : Generation) (g : Gens) : Gens :=
  let n := numberAfter g.roles 5 g.highest
  { g with staged := { base with number := n, changes := 0 }, highest := n }

/-! Preparation and arming (R90 to R96). -/

/-- The earliest boundary: the first at least 250 µs after preparation ends (R94). -/
def earliest (now : Time) : Time := boundaryAt (now + 250 * tUs)

/-- Domains of the blocks that a generation places work on are woken (R601). -/
def wakePlaced (g : Generation) (s : State) : State :=
  (List.range 36).foldl (fun s b => if (placedOn s g b).isSome then wakeDomain b s else s) s

/-- A generation is armed for a boundary and a new staged one opens; a raise starts its voltage change (R90, R95, R96, R102, R595). -/
def arm (code : Nat) (rollback : Bool) (g : Generation) (boundary : Time) (r : Request) (s : State) : Reply :=
  let up := raises s g
  let s := s.addPending code 0 r
  let s := s.modGens fun x => Gens.openStaged g
    { x with armed := some { gen := g, boundary := boundary, rollback := rollback, slot := r.slot.val, hostSeq := r.hostSeq.toNat, waitPower := up } }
  let s := wakePlaced g (if up then writeVoltage (setPoint g) true s else s)
  { status := .pending, gen := some g.number, st := s
    data := le 4 g.number ++ le 4 s.gens.staged.number ++ timeBytes boundary }

/-- A generation is admitted and armed, or the first failing limit is reported (R91, R95). -/
def prepare (code : Nat) (rollback : Bool) (g : Generation) (boundary : Time) (r : Request) (s : State) : Reply :=
  match admitGen s g with
  | .ok g => arm code rollback g boundary r s
  | .error e =>
    { status := .capacityExceeded, detail := e.code, st := s
      data := le 2 e.code ++ zeros 2 ++ le 4 e.obj ++ le 4 e.demand ++ le 4 e.limit }

/-- The boundary that a GEN.COMMIT asks for (R94). -/
def commitBoundary (p : Bytes) (now : Time) : Time :=
  if u8 p 0 = 0 then earliest now else Nat.max (boundaryAt (timeAt p 8)) (earliest now)

/-! Commands (R93 to R107). -/

/-- GEN.STATUS (R106). -/
def cmdGenStatus : Cmd where
  code := 0x0200
  len := len1 0
  safe := true
  run := fun _ _ s =>
    let g := s.gens
    let prev : Nat := match g.previous with
      | some p => p.number
      | none => 0
    let armed : Nat × Bytes := match g.armed with
      | some a => (a.gen.number, timeBytes a.boundary)
      | none => (0, zeros 16)
    let snap : Nat × Bytes := match s.snap with
      | some n => (1, timeBytes n.boundary)
      | none => (0, zeros 16)
    okWith s (le 4 g.active.number ++ le 4 prev ++ le 4 g.staged.number ++ le 4 armed.1 ++ timeBytes g.activeSince ++ armed.2 ++
      le 4 g.staged.changes ++ le 1 snap.1 ++ zeros 3 ++ snap.2)

/-- GEN.COMMIT (R90 to R96, R276). -/
def cmdGenCommit : Cmd where
  code := 0x0201
  len := len1 24
  gmode := .modify
  fails := fun r g s =>
    let p := r.params
    let timed := u8 p 0 == 1
    fldFails p ([rng 0 1 0 1, rng 1 1 0 1, rsv 2 6] ++ if timed then timeFlds 8 else []) ++
    badIf (timed && decide (s.now + 86400 * tS < timeAt p 8)) 8 ++
    failIf s.gens.armed.isSome .wrongState 2 ++
    failIf (timed && u8 p 1 == 0 && decide (boundaryAt (timeAt p 8) < earliest s.now)) .wrongState 3 ++
    failIf (showsLoading g s) .wrongState 9
  run := fun r g s => prepare 0x0201 false g (commitBoundary r.params s.now) r s

/-- GEN.ROLLBACK (R102). -/
def cmdGenRollback : Cmd where
  code := 0x0202
  len := len1 4
  gmode := .modify
  fails := fun r _ s =>
    fldFails r.params [rng 0 1 0 1, rsv 1 3] ++ failIf s.gens.previous.isNone .wrongState 1 ++
    failIf s.gens.armed.isSome .wrongState 2 ++ failIf (s.gens.staged.changes != 0 && u8 r.params 0 == 0) .wrongState 4
  run := fun r _ s =>
    match s.gens.previous with
    | some p => prepare 0x0202 true { p with changes := 0 } (earliest s.now) r s
    | none => failWith s (.wrongState, 1)

/-- GEN.DISCARD (R101). -/
def cmdGenDiscard : Cmd where
  code := 0x0203
  len := len1 0
  gmode := .modify
  run := fun _ _ s => okWith (s.modGens fun g =>
    let base := (g.armed.map (·.gen)).getD g.active
    { g with staged := { base with number := g.staged.number, changes := 0 } })

/-- A raise is taken back: the voltage returns to the point in force, after a raise in progress; one that has not been written is not
(R594, R595). -/
def cancelRaise (a : Armed) (s : State) : State :=
  if raises s a.gen then
    match s.rt.power.volt with
    | some v => s.modPower fun p => { p with queued := if v.raising then some (p.point, false) else none }
    | none => writeVoltage s.rt.power.point false s
  else s

/-- GEN.CANCEL (R100). -/
def cmdGenCancel : Cmd where
  code := 0x0204
  len := len1 0
  fails := fun _ _ s =>
    match s.gens.armed with
    | none => [(.wrongState, 5)]
    | some a => failIf a.rollback .wrongState 0xC
  run := fun _ _ s =>
    match s.gens.armed with
    | none => failWith s (.wrongState, 5)
    | some a =>
      let s := cancelRaise a (returnChanges a s)
      okWith (match s.findPending 0x0201 0 with
        | some p => s.endPending p .wrongState 6
        | none => s)

/-- GEN.SNAPSHOT (R105). -/
def cmdGenSnapshot : Cmd where
  code := 0x0205
  len := len1 4
  fails := fun r _ s =>
    fldFails r.params [rng 0 1 0 1, rsv 1 3] ++ failIf (u8 r.params 0 == 1 && s.snap.isNone) .wrongState 7
  run := fun r _ s =>
    if u8 r.params 0 = 0 then
      okWith { s with snap := some {
        rt := s.latch, stats := s.latchStats, gen := s.gens.active, left := s.latch, leftStats := s.latchStats
        boundary := s.latchAt, expires := s.up + 10 * tS } }
        (timeBytes s.latchAt)
    else okWith { s with snap := none }

def execGenStatus (r : Request) (s : State) : Host.Outcome State Fault Refusal := execCmd cmdGenStatus r s
def execGenCommit (r : Request) (s : State) : Host.Outcome State Fault Refusal := execCmd cmdGenCommit r s
def execGenRollback (r : Request) (s : State) : Host.Outcome State Fault Refusal := execCmd cmdGenRollback r s
def execGenDiscard (r : Request) (s : State) : Host.Outcome State Fault Refusal := execCmd cmdGenDiscard r s
def execGenCancel (r : Request) (s : State) : Host.Outcome State Fault Refusal := execCmd cmdGenCancel r s
def execGenSnapshot (r : Request) (s : State) : Host.Outcome State Fault Refusal := execCmd cmdGenSnapshot r s

/-- A snapshot held for 10 s is released; the event has the time of the last boundary (R105, R108). -/
def execSnapshotExpiry (t : Time) (s : State) : Host.Outcome State Fault Refusal :=
  let s := s.advance t
  match s.snap with
  | some n => done (if n.expires ≤ s.up then
      { s with snap := none }.raiseAt (s.now / tMs * tMs) { code := 0x0282, sev := 1, obj := 0, detail := 0 } else s)
  | none => done s

/-! The switch (R98, R99, R102, R108). -/

/-- Orphans that still have no engine (R153). -/
def keepOrphans (g : Generation) (f : FaultBlk) : FaultBlk :=
  let left := fun (o : Nat) =>
    let at_ := if o < 0x20000 then mget g.vidAt (o - 0x10000) else mget g.outAt (o - 0x20000)
    match at_ with
    | some p => !mhas f.places p
    | none => false
  { f with orphans := f.orphans.filter left }

/-- Every engine switches from one generation to another (R98). -/
def switchEngines (old new : Generation) (s : State) : State :=
  let s := activateOuts old new (activateVideo old new (activateAudio old new s))
  let s := dropImages (activateTdm old new (activateDsp old new (activateRec old new (activateFwd old new s))))
  (switchPoint new s).modFault (keepOrphans new)

/-- The roles after an activation: a rollback leaves no previous generation (R98, R102). -/
def Gens.activated (a : Armed) (now : Time) (g : Gens) : Gens :=
  { g with active := a.gen, previous := if a.rollback then none else some g.active, armed := none, activeSince := now }

/-- The armed generation becomes active (R98, R102, R108). -/
def activate (a : Armed) (s : State) : State :=
  let old := s.gens.active
  let leaving := (rtpLegs old).filter fun e => !mhas a.gen.legs e.1
  let s := leaving.foldl (fun s e => legBye e.1 e.2 s) s
  let now := s.now
  let s := switchEngines old a.gen (s.modGens (Gens.activated a now))
  let s := if a.rollback then s.post 0x0281 2 a.gen.number old.number else s.post 0x0280 1 a.gen.number old.number
  match s.findPending (if a.rollback then 0x0202 else 0x0201) 0 with
  | some p => s.endPending p .ok 0
  | none => s

/-- At a boundary, what is armed for it or for an earlier one activates, once its power is good (R97, R595). -/
def activateDue (s : State) : State :=
  match s.gens.armed with
  | some a => if a.boundary ≤ s.now ∧ !a.waitPower then activate a s else s
  | none => s

/-- Whether media runs: booted, in Run. -/
def mediaRuns (s : State) : Bool := s.booted && s.rt.power.state == 0

/-! Journal and warm resume (R109, R154, R155, R389, R435). -/

/-- Part of a memory, addressed from 0. -/
def memPart (m : Mem) (a n : Nat) : Mem := (m.filter fun c => a ≤ c.1 && c.1 < a + n).map fun c => (c.1 - a, c.2)

/-- User flows of a generation with their home cluster, and their page as byte address in cluster memory and length. -/
def userPages (s : State) (g : Generation) : List (Nat × Nat × Nat × Nat) :=
  g.partitions.flatMap fun e => (List.range (u16 e.2 4)).filterMap fun f =>
    let flow := 0xC000 + 4096 * e.1 + f
    (userFlow g flow).map fun u => (flow, u.2.2, 4 * ((contextPages s g flow).1 - 0x20000), 4 * u16 e.2 6)

/-- Each context's current page and selector are copied (R154). -/
def copyJournal (s : State) : State :=
  let a := s.rt.audio
  let j : Journal := { legs := a.legs, confs := a.confs, vids := s.rt.video.vids, outs := s.rt.mallow.outs }
  let pages := (userPages s s.gens.active).foldl (fun (m : Map Mem) p =>
    let x := memPart (mgetD s.rt.dsp.shared p.2.1 []) p.2.2.1 p.2.2.2
    if x.isEmpty then m else mset m p.1 x) []
  let s := { s with journal := j }
  let tick := s.now / tMs
  (s.modFault fun f => { f with journal := f.selectors, journalTick := some tick }).modDsp fun d => { d with pages := pages }

/-- One copy is made in each period of 16 ticks; periods are counted from tick 0 (R154; log 172). -/
def execContextJournalCopy (t : Time) (s : State) : Host.Outcome State Fault Refusal :=
  let s := s.advance t
  done (if mediaRuns s && s.rt.fault.journalTick.map (· / 16) != some (s.now / tMs / 16) then copyJournal s else s)

/-- A leg's context from the journal: its jitter buffer is empty, as before a first packet (R155). -/
def Leg.resumed (l : Leg) : Leg := { l with frames := [], rxState := .waiting, anchor := none, lastTs := none, dropIn := none, insert := false }

/-- Legs, conferences and routes from the journal. -/
def resumeAudio (g : Generation) (s : State) : State :=
  let j := s.journal
  let s := s.modAudio fun a => { a with
    confs := g.confs.map fun e => (e.1, (mget j.confs e.1).getD
      { inRamp := memberRamps g e.1 true (fun m => (memberGains m).1) [], outRamp := memberRamps g e.1 true (fun m => (memberGains m).2) [] })
    routes := g.routes.map fun e =>
      let v := gainOf (sN e.2 6 2)
      (e.1, { g0 := v, g1 := v }, e.2, false) }
  g.legs.foldl (fun s e =>
    match mget j.legs e.1 with
    | some l => modLeg e.1 (fun _ => l.resumed) s
    | none => startLeg e.1 e.2 s) s

/-- A context restarts with the picture that the slice records show unfinished, and holds no buffer but that picture's (R24, R155). -/
def Vid.resumed (live : Option Vid) (x : Vid) : Vid :=
  let x := { x with coding := none, queue := [], complete := [], assembling := [], held := [] }
  match live with
  | some l => if l.coding.isSome then { x with coding := l.coding, queue := l.queue, next := l.next, start := l.start, seq := l.seq, ts := l.ts } else x
  | none => x

/-- The slices of unfinished pictures go to Clover again, at level 0 (R155). -/
def resumeCoding (v : Nat) (s : State) : State :=
  match (s.vid v).coding with
  | none => s
  | some c =>
    let s := holdBuffer true c.taken.holds s
    (List.range ((sliceTable c.taken.block).length - c.slice)).foldl (fun s _ =>
      s.modClover (Clover.accept { sliceItem v c.taken with level := 0, replayed := true, port := 36 } s.up)) s

/-- Streams and outputs from the journal, with the pictures that the slice records show unfinished; every run is flattened again (R155,
R284). -/
def resumeVideo (g : Generation) (s : State) : State :=
  let j := s.journal
  let live := s.rt.video.vids
  let s := g.vids.foldl (fun s e =>
    match mget j.vids e.1 with
    | some v => s.modVideo fun x => { x with vids := mset x.vids e.1 (v.resumed (mget live e.1)) }
    | none => modVid e.1 (Vid.resumed (mget live e.1)) (startVid g e.1 s)) s
  let now := s.now
  let up := s.up
  let used := (mkeys g.layouts).filter fun n => !(staticRun g n).isEmpty && !(outsOf g n).isEmpty
  let s := (s.modMallow fun m => { m with
    outs := g.outs.map fun e => (e.1, { (mget j.outs e.1).getD (newOut now) with composing := none, held := [] })
    leaving := [], surfaces := used.map fun n => (n, newSurface up) }).modVideo fun x => { x with leaving := [] }
  enqueueFlattens g used ((mkeys g.vids).foldl (fun s v => resumeCoding v s) s)

/-- User contexts from the journal, and the images of the partitions in use (R154, R435). -/
def resumeDsp (g : Generation) (s : State) : State :=
  let s := s.modFault fun f => { f with selectors := f.journal }
  let s := (userPages s g).foldl (fun s p => s.modDsp fun d => { d with
    shared := mmod d.shared p.2.1 [] fun m => (mgetD d.pages p.1 []).foldl (fun m c => memSet m (p.2.2.1 + c.1) c.2) m }) s
  (mkeys g.partitions).foldl (fun s q => imageEvent q s) s

/-- At the first boundary after a warm boot the active generation is reactivated (R109, R155). -/
def warmResume (s : State) : State :=
  let g := s.gens.active
  let now := s.now
  let n := sum (s.rt.fault.openSlices.map (·.2))
  let s := (s.modGens fun x => { x with activeSince := now, reactivate := false }).post 0x0280 1 g.number g.number
  let s := resetSorrel (resumeDsp g (resumeVideo g (resumeAudio g s)))
  bumpFault 16 n ((recResume s).post 0x0489 1 0 n)

/-! The tick boundary (R111, R126, R129, R149). -/

/-- Items whose deadline tick has ended: waiting ones expire, and those in service on a core are core faults of cause 4; the objects of
tick items miss the tick (R126, R142). -/
def checkDeadlines (s : State) : State :=
  let ended := endedTick s
  let late := (s.rt.clover.items.filter fun i => i.2.waits && i.2.past ended).map (·.2)
  let s := late.foldl (fun s i => itemMissed i s) (expireItems ended s)
  (s.rt.clover.items.filter fun i => i.2.serving && i.2.past ended).foldl (fun s i =>
    match i.2.state with
    | .inService b p => if b < 16 then coreFails b p 4 s else s
    | _ => s) s

def execItemDeadline (s : State) : Host.Outcome State Fault Refusal :=
  let s := s.advance (nextBoundary s)
  done (if mediaRuns s then checkDeadlines s else s)

/-- The tick's items are injected; one that finds no reserve entry, and every one while injection is stalled, is missed (R113, R129).
None is injected while CORE_CLK stands (R591). -/
def injectAll (s : State) : State :=
  let c := s.rt.clover
  let items := tickItems s s.gens.active c.tick
  if !s.coreClock then s
  else if s.now < c.nextInject then items.foldl (fun s i => itemMissed i s) s
  else
    items.foldl (fun s i => if s.rt.clover.reserveOf 1000 < 16384 then injectItem i s else itemMissed i (injectItem i s))
      (s.modClover fun c => { c with nextInject := s.now + tMs })

/-- Legs that are shed miss the tick (R149). -/
def missShed (s : State) : State :=
  (s.rt.fault.clusters.flatMap fun c => c.2.shedLegs).foldl (fun s l => legMissed l s) s

/-- The tick interrupt of running cores (R423). -/
def tickSources (s : State) : State :=
  s.modDsp fun d => { d with cores := mall d.cores fun _ c => if c.running then { c with pend := c.pend ||| 0x20#8 } else c }

/-- Runtime state and statistics are latched, with the time in back-pressure and that of full FIFOs counted up to here (R104, R134,
R564). -/
def latchAll (s : State) : State :=
  let up := s.up
  let s := (s.modClover (Clover.countPressure up)).modRt fun r => { r with hsp := mall r.hsp fun _ p => p.countFull up }
  { s with latch := s.rt, latchAt := s.now, latchStats := s.senak.stats }

/-- What begins at a boundary with media running (R98, R109, R111, R142, R149, R596). -/
def beginTick (s : State) : State :=
  let s := checkDeadlines s
  let s := activateDue (if s.gens.reactivate then warmResume s else s)
  let now := s.now
  let s := s.modClover fun c => { c with tick := now / tMs }
  let s := missShed (beginFrames (startPictures (injectAll s)))
  let s := (List.range 4).foldl sapTick (trackIdle (countShed (startTests s)))
  let idle := !s.gens.active.holds && !s.rt.clover.dispatched
  tickSources ((s.modPower fun p => { p with idle := idle }).modClover fun c => { c with dispatched := false })

/-- The boundary at which the counter stands is taken; with media stopped it only activates and latches (R97, R104, R111). -/
def takeBoundary (s : State) : State :=
  let now := s.now
  let s := s.modClover fun c => { c with lastBoundary := some now }
  latchAll (if mediaRuns s then beginTick s else if s.booted then activateDue s else s)

def execTickBoundary (s : State) : Host.Outcome State Fault Refusal := done (takeBoundary (s.advance (nextBoundary s)))

/-- GEN_ACTIVATE: the counter reaches the first boundary at or after the armed one that has not been taken, and it is taken: deadlines of
the tick that ends are checked first, and the items of the tick that begins follow (R97, R98, R111). -/
def execGenActivate (s : State) : Host.Outcome State Fault Refusal :=
  match s.gens.armed with
  | some a =>
    if a.waitPower then done s
    else
      let s := s.advance (boundaryAt (Nat.max s.now a.boundary))
      done (takeBoundary (s.advance (nextBoundary s)))
  | none => done s

/-! Errors in cluster memory (R144). -/

/-- An object of an atomic flow restarts from its initial state (R99, R144). -/
def restartObject (flow : Nat) (s : State) : State :=
  let g := s.gens.active
  let now := s.now
  if flow < 0x2000 then
    match mget g.legs flow with
    | some b => startLeg flow b s
    | none => s
  else if flow < 0x2800 then
    let n := flow - 0x2000
    if mhas g.confs n then modConf n (fun _ => {
      inRamp := memberRamps g n true (fun m => (memberGains m).1) [], outRamp := memberRamps g n true (fun m => (memberGains m).2) [] }) s
    else s
  else if flow < 0x4000 then
    let v := flow - 0x3000
    if mhas g.vids v then startVid g v (dropCodings v s) else s
  else if flow < 0x5000 then modOut (flow - 0x4000) (fun _ => newOut now) (giveUpFrame (flow - 0x4000) s)
  else
    match (userPages s g).find? fun p => p.1 == flow with
    | some p => s.modDsp fun d => { d with shared := mmod d.shared p.2.1 [] fun m => memClear m p.2.2.1 p.2.2.2 }
    | none => s

/-- The object of an atomic flow. -/
def flowObject (flow : Nat) : Nat :=
  if flow < 0x2000 then flow else if flow < 0x3000 then flow - 0x2000 else if flow < 0x4000 then flow - 0x3000
  else if flow < 0x5000 then flow - 0x4000 else flow % 4096

/-- WARM_RESUME: the warm resume, at the first boundary after a warm boot. The operand names the flows whose context in JOURNAL is
uncorrectable: each restarts from its initial state (R155, R577). -/
def execWarmResume (r : ReadBack) (s : State) : Host.Outcome State Fault Refusal :=
  let s := s.advance r.at_
  done (if s.atBoundary ∧ mediaRuns s ∧ s.gens.reactivate then
    r.bad.foldl (fun s f => (restartObject f s).post 0x0488 3 (flowObject f) f) (warmResume s) else s)

/-- An uncorrectable error in cluster memory, in an input block or a context page of the item in service (R144). -/
def clusterUe (b p : Nat) (page : Bool) (s : State) : State :=
  let s := bumpFault 5 1 s
  match s.rt.clover.running b p with
  | none => s
  | some (o, i) =>
    let up := s.up
    let s := stopCore b p (s.modClover (Clover.finishDead o i up))
    if page then (restartObject i.flow s).post 0x0488 3 i.object i.flow else itemMissed i s

def execClusterMemoryUe (t : Time) (b : Fin 16) (p : Fin 9) (page : Bool) (s : State) : Host.Outcome State Fault Refusal :=
  done (clusterUe b.val p.val page (s.advance t))

end Sys2Proof.Machine
end

