-- ==== Sys2Proof/Machine/Reset.lean ====
section
/-! DEFINITION. What each kind of reset reaches (R48, R367, R560, R610 to R615). -/

namespace Sys2Proof.Machine

/-! The endpoint (R48, R367, R560, R612). -/

/-- BAR0 registers, mailbox slots and doorbells return to their reset values; the backlog and its loss marker stay, and a command that has
been taken runs on (R612). -/
def Senak.endpointReset (h : Senak) : Senak :=
  { h with
    scratch := 0, devFault := 0, ready := false, dwinBase := 0, dwinErr := 0, busy := 0, done := 0, irq := 0, doorbells := [], mbxErr := 0
    slots := [], heldWrites := [], evq := { backlog := h.evq.backlog, marker := h.evq.marker } }

/-- BAR0, user pages and host stream ports at any reset that reaches the endpoint. -/
def resetBar0 (s : State) : State :=
  ((s.modSenak Senak.endpointReset).modSec fun x => { x with user := [] }).modRt fun r => { r with hsp := [] }

/-- Configuration space and MSI-X state; the link's training stays. -/
def Pcie.reset (p : Pcie) : Pcie := { linkUp := p.linkUp, rate := p.rate, width := p.width, held := p.held }

/-- Ring copies in progress end (R396, R612). -/
def endReads (s : State) : State :=
  let s := (s.senak.pending.filter fun p => p.code == 0x0B04).foldl (fun s p => s.endPending p .internalFault 0x0B04) s
  s.modRec fun r => { r with reads := [] }

/-- An endpoint reset; one that a boot in progress outreaches ends with that boot (R612, R613). -/
def endpointReset (s : State) : State :=
  ((endReads (resetBar0 s)).modPcie Pcie.reset).modBoot fun b =>
    { b with endpointResets := satAdd 4294967295 b.endpointResets 1, endpointOnly := b.phase == .running }

/-! Firmware slots (R669). -/

/-- A reset during a write leaves its slot not verifying. -/
def spoilWrites (s : State) : State :=
  (s.senak.pending.filter fun p => p.code == 0x1504).foldl (fun s p =>
    s.modMgmt fun m => { m with slots := mupd m.slots p.obj fun x => { x with good := false } }) s

/-! Output pins (R615). -/

/-- Pins at the start of a cold reset: outputs low, ALERT_N and THERMTRIP_N released, UART transmit high. -/
def coldPins (s : State) : State := [(0, false), (1, false), (2, true), (3, true), (4, false), (5, false), (6, true)].foldl
  (fun s p => s.setPin p.1 p.2) s

/-- Pins at the start of a warm reset: SyncE outputs low, THERMTRIP_N released, UART transmit high, the others as they were. -/
def warmPins (s : State) : State := [(3, true), (4, false), (5, false), (6, true)].foldl (fun s p => s.setPin p.1 p.2) s

/-! Cold reset (R614). -/

/-- What Harebell keeps through a cold reset: OTP, flash, the retained log. -/
def Mgmt.cold (m : Mgmt) : Mgmt :=
  { lifecycle := m.lifecycle, otp := m.otp, otpBad := m.otpBad, rootKey := m.rootKey, imageDigest := m.imageDigest, macs := m.macs
    rollback := m.rollback, slots := m.slots, running := m.running, asTrial := m.asTrial, config := m.config, copies := m.copies
    log := m.log, logNext := m.logNext, mirroredThrough := m.mirroredThrough, mirror := m.mirror, tripped := m.tripped, image := m.image }

/-- Everything starts again: what stays is OTP, flash, the retained log, host memory, the elapsed clock and the state of the
reference clocks; DRAM reads as unwritten (R580, log 12). -/
def coldState (s : State) : State :=
  let s := spoilWrites s
  coldPins { pending := s.pending, free := s.free, wire := s.wire, hostMem := s.hostMem
             boot := { coldResets := s.boot.coldResets, cfgCode := s.boot.cfgCode, band := s.boot.band, pins := s.boot.pins }
             senak := { pcie := { held := s.senak.pcie.held } }
             rt := { time := { up := s.rt.time.up }, mgmt := s.rt.mgmt.cold
                     power := { unlocked := s.rt.power.unlocked, refclkOk := s.rt.power.refclkOk, temps := s.rt.power.temps }
                     test := { everSet := s.rt.test.everSet } } }

/-! Warm reset (R614). -/

/-- Senak at a warm reset: the endpoint's registers, the backlog, the mask and every pending command go (R60, R68, R78, R80). -/
def Senak.warm (h : Senak) : Senak :=
  { pcie := { h.pcie.reset with bme := h.pcie.bme, d0 := h.pcie.d0 } }

/-- The generations at a warm reset: a new staged one opens, and nothing is armed (R109). -/
def Gens.warm (g : Gens) : Gens := Gens.openStaged g.active { g with armed := none, reactivate := false }

/-- Clover's store is emptied; the ticks already injected stay so (R113, R137). -/
def Clover.warm (c : Clover) : Clover := { nextInject := c.nextInject, tick := c.tick, lastBoundary := c.lastBoundary }

/-- Positions, spares and stand-ins stay; fenced units await the boot's self-test (R622). -/
def FaultBlk.warm (f : FaultBlk) : FaultBlk :=
  { f with
    clusters := mall f.clusters fun _ c => { c with toTest := [], ended := [], loaded := c.claim.isSome, shedLegs := [], shedRoutes := [], shedTicks := 0 }
    enginesEnded := [], selectors := [], injections := [], stats := [] }

/-- The power sequencer at a warm reset: the point in force and the thermal state stay (R615). -/
def Power.warm (p : Power) : Power :=
  { p with
    state := 0, idle := false, volt := none, queued := none, powerGood := true, powered := 0, waking := [], idleSince := [], wakes := 0
    longest := 0, request := none, wakeAt := none }

/-- Media blocks at a warm reset: what JOURNAL and DRAM hold stays, the rest goes (R154, R155, R614). -/
def Runtime.warm (r : Runtime) : Runtime :=
  { r with
    clover := r.clover.warm, fault := r.fault.warm, power := r.power.warm
    test := { r.test with out := [], running := [] }
    time := { r.time with queues := [] }
    mallow := { r.mallow with
      images := mall r.mallow.images fun _ i => { i with loading := none }, outs := mall r.mallow.outs fun _ o => { o with composing := none } }
    audio := { saps := mall r.audio.saps fun _ p => { p with stopped := true } }
    sec := { r.sec with enabled := false, mismatches := 0, stats := [], waiting := [], crypts := [], user := [] }
    fwd := {}, net := { r.net with inbox := [] }
    video := { r.video with grabs := [] }
    recorder := { r.recorder with running := false, reads := [] }
    dsp := { r.dsp with cores := [], shared := [], loading := [] }
    hsp := [], zip := [] }

/-- A servo locked to PTP loses its source while Uzogan restarts (R533). -/
def losePtp (s : State) : State := if s.rt.time.phaseSrc = 1 ∧ s.rt.time.phasePresent then phaseLost s else s

/-- The start of a warm reset. -/
def warmState (s : State) : State :=
  let s := losePtp (warmPins (spoilWrites s))
  let s := resetTdm (resetMacs (s.modRt Runtime.warm))
  { s.modBoot fun b => { b with inReset := -1, pendingRelease := [], causes := 0, endpointOnly := false } with
    senak := s.senak.warm, gens := s.gens.warm, snap := none }

end Sys2Proof.Machine
end

