-- ==== Sys2Proof/Machine/Test.lean ====
section
/-! DEFINITION. Self-test by command, the health map and its commands (R630 to R645). -/

namespace Sys2Proof.Machine

/-- Sites that TEST.RUN and TEST.REPORT take for a block (R642, R643). -/
def testSiteOk (b site : Nat) : Bool := site == 255 || (if b < 16 then site < 9 else if b = 31 then site < 3 else site == 0)

/-- Whether the self-test of a fenced core or engine runs (R146, R150). -/
def fencedTest (s : State) (b site : Nat) : Bool :=
  let c := s.rt.fault.cluster b
  if b < 16 then c.fenced.contains site && !mhas c.toTest site && !mhas c.ended site
  else decide (b < 30) && s.rt.fault.enginesFenced.contains b && !mhas s.rt.fault.enginesEnded b

/-- Whether a site is under test, alone or with its block (R640). -/
def testRuns (s : State) (b site : Nat) : Bool :=
  s.rt.test.running.any (fun e => e.1 / 256 == b && (e.1 % 256 == site || e.1 % 256 == 255 || site == 255)) ||
    (if b < 16 then site != 255 && fencedTest s b site else fencedTest s b 0)

/-- Units that a test of a site covers: the key store is tested at a cold boot only (R630, R642). -/
def testUnits (b site : Nat) : List Nat :=
  if b < 16 then if site = 255 then List.range 9 ++ [255] else [site]
  else if b = 31 then if site = 255 then List.range 3 else [site]
  else [0]

/-- TEST.RUN (R640, R642). -/
def cmdTestRun : Cmd where
  code := 0x1400
  len := len1 4
  safe := true
  fails := fun r _ s =>
    let b := u8 r.params 0
    let site := u8 r.params 1
    fldFails r.params [rng 0 1 0 34, (1, 1, fun v => decide (34 < b) || testSiteOk b v), rng 2 1 1 3, rsv 3 1] ++
    failIf (decide (2 ≤ s.lifecycle)) .deniedLifecycle s.lifecycle ++
    failIf (!s.senak.quiesced.contains b) .wrongState 1 ++ failIf (testRuns s b site) .objectInUse b
  run := fun r _ s =>
    let k := u8 r.params 0 * 256 + u8 r.params 1
    { status := .pending
      st := (s.addPending 0x1400 k r).modTest fun t => { t with running := mset t.running k (r.slot.val, r.hostSeq.toNat) } }

/-- A unit's test under TEST.RUN ends: it is re-initialised, and one that fails leaves service (R634, R637, R639). -/
def runUnit (b : Nat) (kinds : Nat) (r : List UnitTest) (s : State) (site : Nat) : State :=
  let u : UnitTest := (r.find? fun u => u.site.val == site).getD { site := Fin.ofNat 256 site, result := 0 }
  let s := clearUnit b site (endUnitTest b 4 (bit kinds 0) (bit kinds 1) u s)
  if unitFailed b u s then
    let s := degrade b (dropSite b site s)
    if 30 ≤ b ∧ b ≠ 31 then s.modBoot fun x => { x with inReset := x.inReset ||| (1#36 <<< b) } else s
  else s

/-- The result of a test of several units: a logic failure before a memory failure (R642). -/
def runResult (b : Nat) (units : List Nat) (s : State) : Nat :=
  let l := units.map fun u => (mgetD s.rt.test.reports (b * 256 + u) {}).result
  if l.contains 1 then 1 else if l.contains 2 then 2 else 0

/-- A commanded self-test ends. The units reported name which of a block's tests it is; a test of a whole cluster waits for those of
its fenced cores (R640, R642, R645). -/
def execTestRunEnd (t : Time) (b : Fin 36) (r : List UnitTest) (s : State) : Host.Outcome State Fault Refusal :=
  let s := s.advance t
  let b := b.val
  let mine := s.rt.test.running.filter fun e => e.1 / 256 == b
  let named := mine.find? fun e => e.1 % 256 == 255 || (r.any fun u => u.site.val == e.1 % 256)
  match (if named.isSome then named else mine.head?) with
  | none => done s
  | some (k, _) =>
    let site := k % 256
    let units := testUnits b site
    match s.findPending 0x1400 k with
    | none => done s
    | some p =>
      if site = 255 ∧ b < 16 ∧ (List.range 9).any (fencedTest s b) then done s
      else
        let s := units.foldl (runUnit b (u8 p.params 2) r) s
        let res := runResult b units s
        let s := s.modTest fun x => { x with running := mdel x.running k }
        done ((s.post 0x1480 1 b (site * 256 + res)).endPending p .ok res)

/-- The health map is written to flash, or the write fails and the copy in Harebell memory governs (R637). -/
def execHealthMapWrite (t : Time) (ok : Bool) (s : State) : Host.Outcome State Fault Refusal :=
  let s := s.advance t
  let x := s.rt.test
  done (if x.unwritten.isEmpty then s
    else if ok then (s.writeFlash fun c => { c with health := x.health }).modTest fun x => { x with unwritten := [] }
    else s.post 0x1482 3 0 x.unwritten.length)

/-- TEST.REPORT (R643). -/
def cmdTestReport : Cmd where
  code := 0x1401
  len := len1 4
  safe := true
  fails := fun r _ _ =>
    let b := u8 r.params 0
    fldFails r.params [rng 0 1 0 34, (1, 1, fun v => decide (34 < b) || testSiteOk b v), rsv 2 2]
  run := fun r _ s =>
    let b := u8 r.params 0
    let site := if 16 ≤ b ∧ b ≠ 31 then 0 else u8 r.params 1
    let x := mgetD s.seen.test.reports (b * 256 + site) {}
    okWith s (block 32 [(0, 1, x.origin), (1, 1, x.result), (2, 1, x.element), (4, 8, x.signature), (0xC, 8, x.expected),
      (0x14, 4, x.patterns), (0x18, 4, x.address), (0x1C, 4, x.isolated)])

/-- TEST.HEALTH (R644). -/
def cmdTestHealth : Cmd where
  code := 0x1402
  len := len1 0
  safe := true
  run := fun _ _ s =>
    let x := s.seen.test
    okWith s (block 80 ((x.health.filter fun e => e.1 < 36).map (fun e => (2 * e.1, 2, e.2)) ++ [(0x48, 4, x.everSet)]))

/-- TEST.HEALTH_CLEAR (R637, R644): the sites stay out of service until the next reset, those that the map alone kept out too. -/
def cmdTestHealthClear : Cmd where
  code := 0x1403
  len := len1 4
  safe := true
  fails := fun r _ s =>
    fldFails r.params [rng 0 1 0 34, rsv 1 3] ++ failIf (decide (2 ≤ s.lifecycle)) .deniedLifecycle s.lifecycle
  run := fun r _ s =>
    let b := u8 r.params 0
    okWith (s.modTest fun x =>
      let sites := (List.range 9).filter fun i => bit (mgetD x.health b 0) i
      { x with
        health := mdel x.health b
        out := if (mgetD x.health b 0) = 0 then x.out else mset x.out b (mgetD x.out b 0 ||| mgetD x.health b 0)
        unwritten := (x.unwritten.filter fun k => k / 256 != b) ++ sites.map (b * 256 + ·) })

def execTestRun (r : Request) (s : State) : Host.Outcome State Fault Refusal := execCmd cmdTestRun r s
def execTestReport (r : Request) (s : State) : Host.Outcome State Fault Refusal := execCmd cmdTestReport r s
def execTestHealth (r : Request) (s : State) : Host.Outcome State Fault Refusal := execCmd cmdTestHealth r s
def execTestHealthClear (r : Request) (s : State) : Host.Outcome State Fault Refusal := execCmd cmdTestHealthClear r s

end Sys2Proof.Machine
end

