-- ==== Sys2Proof/Machine/Boot.lean ====
section
/-! DEFINITION. Reset sources, boots, block reset and their commands (R566, R567, R591, R592, R610 to R629, R646, R647, R653 to R657). -/

namespace Sys2Proof.Machine

/-! Boot records (R651, R653). -/

/-- A record that enters the log whatever the threshold. -/
def logRecord (e : Event) (s : State) : State :=
  let e := { e with time := s.now }
  let up := s.up
  s.modMgmt (Mgmt.logEvent e up)

/-- A record that enters the log whatever the threshold, and the ring by the mask. -/
def bootRecord (e : Event) (s : State) : State :=
  let s := if s.rt.mgmt.threshold ≤ e.sev then s else logRecord e s
  s.raise e

/-! Firmware slots and behaviour levels (R5, R655, R656, R661). -/

/-- The slot that a cold boot takes, whether as a trial, and the FW_REVERTED detail of a return; none where neither verifies. -/
def chooseSlot (m : Mgmt) (chosenReads : Bool) : Option (Nat × Bool × Nat) :=
  let first := m.config.trial.getD m.config.confirmed
  let other := 1 - first
  if chosenReads && m.slotValid first then
    some (first, m.config.trial.isSome, if m.asTrial && m.config.trial.isNone then 2 else 0)
  else if m.slotValid other then some (other, false, 3)
  else none

/-- An image starts: the level that the flash selects comes into force, or level 3 where the image lacks it (R5, R661). -/
def startImage (x : FwSlot) (s : State) : State :=
  let sel := s.rt.mgmt.config.level
  let has := bit x.levels (sel - 1)
  let s := s.modMgmt fun m => { m with image := x, level := if has then sel else 3 }
  s.postIf (!has) 0x1587 3 0 sel

/-- The boot ROM runs a slot. -/
def runSlot (i : Nat) (trial : Bool) (s : State) : State :=
  startImage (mgetD s.rt.mgmt.slots i {}) (s.modMgmt fun m => { m with running := i, asTrial := trial, recovered := false, flashHeld := false })

/-! Cold boot (R616, R618, R621, R646, R647, R653, R656). -/

/-- The flash configuration at a boot, and its loss (R647). -/
def loadConfig (ok : Bool) (s : State) : State :=
  if ok then
    let best := leastBy (fun (e : Nat × Nat × FlashConfig) => 2 ^ 64 - e.2.1) s.rt.mgmt.copies
    s.modMgmt fun m => { m with config := match best with
      | some e => e.2.2
      | none => {} }
  else (s.modMgmt fun m => { m with config := {}, copies := [] }).post 0x1588 3 0 0

/-- The log where its retention copy is lost (R653). -/
def rebuildLog (kept : Bool) (s : State) : State :=
  if kept then s else s.modMgmt fun m => { m with log := mall m.mirror fun _ e => { event := e, mirrored := true } }

/-- A sensor that a trip latched is logged (R603, R653). -/
def logTrip (s : State) : State :=
  match s.rt.mgmt.tripped with
  | some t => (logRecord { code := 0x1586, sev := 4, obj := t, detail := 0 } s).modMgmt fun m => { m with tripped := none }
  | none => s

/-- The ROM's choice among the slots, or UART recovery (R618, R646, R656). -/
def romBoot (b : ColdBoot) (s : State) : State :=
  match if bit s.boot.band 3 && b.flashBig then chooseSlot s.rt.mgmt b.slotOk else none with
  | none => s.modBoot fun x => { x with phase := .recovery }
  | some (i, trial, ret) =>
    let s := runSlot i trial s
    let s := if trial then s.writeFlash fun c => { c with trial := none } else s
    s.postIf (ret != 0) 0x1583 3 i ret

/-- A cold boot from the state that the reset left, with the code of its source (R610, R621). -/
def coldBoot (b : ColdBoot) (code : Nat) (s : State) : State :=
  let up := s.up
  let s := s.modBoot fun x => { x with
    phase := .booting false, lastReset := if s.rt.mgmt.tripped.isSome then 6 else code, cfgCode := b.cfgCode.val, band := b.cfgCode.val / 4
    resetEnd := up, uzoganAt := up, coldResets := satAdd 4294967295 x.coldResets 1, waitRefclk := !s.rt.power.refclkOk }
  let s := s.modPcie fun p => { p with held := !b.perstHigh }
  let s := loadConfig b.flashOk (rebuildLog b.logKept s)
  let s := s.modTest fun t => { t with health := s.rt.mgmt.config.health }
  romBoot b (logTrip (s.post 0x0A86 2 0 1))

/-- What the board shows at a cold reset that the device itself makes: the band and flash as before. -/
def sameBoard (s : State) : ColdBoot :=
  { cfgCode := Fin.ofNat 64 s.boot.cfgCode, perstHigh := !s.senak.pcie.held }

/-- A cold reset that the device itself makes (R78, R610). -/
def selfCold (code : Nat) (s : State) : State := coldBoot (sameBoard s) code (coldState s)

/-! Warm boot (R622). -/

/-- A warm boot: the running slot is verified again, and a level that differs from the one in force discards the generations. -/
def warmBoot (imageOk : Bool) (code : Nat) (s : State) : State :=
  let up := s.up
  let old := s.level
  let s := s.modBoot fun x => { x with
    phase := .booting true, lastReset := code, resetEnd := up, uzoganAt := up, warmResets := satAdd 4294967295 x.warmResets 1
    otpLoaded := false, waitRefclk := !s.rt.power.refclkOk
    causes := if s.rt.dram.fitted = 0 then 2 else 0 }
  let m := s.rt.mgmt
  let good := imageOk && (m.recovered || m.slotValid m.running)
  let other := 1 - m.running
  let s := if good then startImage m.image s
    else if m.slotValid other then (runSlot other false s).post 0x1583 3 other 3
    else s.modBoot fun x => { x with phase := .recovery }
  if s.level = old then s
  else { s.modBoot fun x => { x with causes := x.causes ||| 4 } with gens := {} }

/-- A warm reset with its boot; before the first READY after a cold reset it is carried out as a cold one (R613). -/
def warmReset (code : Nat) (s : State) : State :=
  if s.boot.readyOnce then warmBoot true code (warmState s) else selfCold code s

/-- Whether the device takes reset sources: it is neither held nor in Off. -/
def resettable (s : State) : Bool := s.boot.phase != .held && s.rt.power.state != 4

/-! PORST_N and WRST_N (R610, R611). -/

/-- Whether a low level of some ns is taken: under 100 ns ignored, from 1 µs on taken, between them as it may be (R611). -/
def pulseTaken (low : Nat) (s : State) : Bool × State :=
  if low < 100 then (false, s) else if 1000 ≤ low then (true, s) else let d := s.draw; (d.1 % 2 == 1, d.2)

def execPorstNAssert (t : Time) (low : Nat) (s : State) : Host.Outcome State Fault Refusal :=
  let p := pulseTaken low (s.advance t)
  done (if p.1 then coldState p.2 else p.2)

/-- The rise of PORST_N starts the cold boot (R621). -/
def execPorstNRelease (t : Time) (b : ColdBoot) (s : State) : Host.Outcome State Fault Refusal :=
  let s := s.advance t
  done (if s.boot.phase = .held ∧ s.rt.power.state ≠ 4 then coldBoot b 0 s else s)

/-- The start of a warm reset that WRST_N holds; before the first READY it is a cold one (R611, R613). -/
def execWrstNAssert (t : Time) (low : Nat) (s : State) : Host.Outcome State Fault Refusal :=
  let s := s.advance t
  if resettable s then
    let p := pulseTaken low s
    if p.1 then done ((if s.boot.readyOnce then warmState p.2 else coldState p.2).modBoot fun b => { b with phase := .warmHeld })
    else done p.2
  else done s

/-- The warm boot begins when WRST_N rises (R611, R622). -/
def execWrstNRelease (t : Time) (imageOk : Bool) (s : State) : Host.Outcome State Fault Refusal :=
  let s := s.advance t
  done (if s.boot.phase = .warmHeld then
    if s.boot.readyOnce then warmBoot imageOk 1 s else coldBoot (sameBoard s) 1 s
  else s)

/-- The delay of a SYS.RESET has passed (R78). -/
def execSysResetDelayExpiry (t : Time) (s : State) : Host.Outcome State Fault Refusal :=
  let s := s.advance t
  match s.senak.resetAt with
  | some (k, e) => done (if e ≤ s.up then if k = 1 then selfCold 3 s else warmReset 2 s else s)
  | none => done s

/-- The watchdog fires (R592, R611). -/
def execWatchdogExpiry (t : Time) (s : State) : Host.Outcome State Fault Refusal :=
  let s := s.advance t
  done (if resettable s ∧ s.boot.phase ≠ .warmHeld then warmReset 4 s else s)

/-- REFCLK has held lock for 10 ms: the boot goes on, and the servo starts again (R592). -/
def execRefclkLockHeld (t : Time) (s : State) : Host.Outcome State Fault Refusal :=
  let s := s.advance t
  done (if s.rt.power.refclkOk then s
    else servoTo .freeRun ((s.modPower fun p => { p with refclkOk := true, unlocked := mdel (mdel p.unlocked 8) 9 }).modBoot fun b =>
      { b with waitRefclk := false }))

/-- The PLLs that clock a block, numbered as PWR.STATUS (R591). -/
def pllsOf (b : Nat) : List Nat :=
  if b < 16 then [0, 1] else if b < 25 then [2] else if b < 33 then [3] else if b = 33 then [6] else if b = 34 then [5] else [7]

/-- Whether a block's clock holds lock. -/
def clocked (s : State) (b : Nat) : Bool := (pllsOf b).all fun p => !mhas s.rt.power.unlocked p

/-! PCI Express (R43, R599, R612). -/

/-- An event of PCI Express acts as its setting says: 0 PERST_N, 1 hot reset, 2 link-down (R612, R629). -/
def pcieEvent (i : Nat) (s : State) : State :=
  if s.rt.power.state = 3 ∨ s.rt.power.state = 4 ∨ s.boot.phase = .held ∨ s.boot.phase = .warmHeld then s
  else
    let warm := bit s.rt.mgmt.config.pcieActions i
    (if warm then warmReset 5 s else endpointReset s).post 0x1383 2 0 (i + 1 + 256 * b2n warm)

/-- The link is down. -/
def linkLost (s : State) : State := s.modPcie fun p => { p with linkUp := false, rate := 0, width := 0 }

def execPerstNAssert (t : Time) (s : State) : Host.Outcome State Fault Refusal :=
  let s := s.advance t
  done ((linkLost (pcieEvent 0 s)).modPcie fun p => { p.reset with held := true, linkUp := false, rate := 0, width := 0 })

/-- A received hot reset. -/
def execPcieHotReset (t : Time) (s : State) : Host.Outcome State Fault Refusal :=
  let s := s.advance t
  done (if s.senak.pcie.linkUp then pcieEvent 1 s else s)

/-- The link goes down, which in Deep sleep and Off resets nothing (R599). -/
def pcieDown (s : State) : State := if s.senak.pcie.linkUp then pcieEvent 2 (linkLost s) else s

def execPcieLinkDown (t : Time) (s : State) : Host.Outcome State Fault Refusal := done (pcieDown (s.advance t))

/-- The link has trained: below 8 GT/s ×8 it stays down; what waited is sent (R43, R44). -/
def execPcieLinkUp (t : Time) (rate width : Nat) (s : State) : Host.Outcome State Fault Refusal :=
  let s := s.advance t
  let w := Nat.min width (if bit s.boot.band 2 then 16 else 8)
  done (if s.boot.phase = .held ∨ s.senak.pcie.held ∨ s.rt.power.state = 3 ∨ s.rt.power.state = 4 then s
    else if 8 ≤ rate ∧ 8 ≤ w ∧ clocked s 35 then (s.modPcie fun p => { p with linkUp := true, rate := rate, width := w }).releaseVectors
    else linkLost s)

/-! OTP and DRAM (R566, R567, R574, R619). -/

/-- A load of the OTP shadows ends; the third failure in a row ends loading (R619, R623). -/
def execOtpLoadEnd (t : Time) (crcOk : Bool) (s : State) : Host.Outcome State Fault Refusal :=
  let s := s.advance t
  let b := s.boot
  let loading : Bool := match b.phase with
    | .booting _ => true
    | .recovery => true
    | _ => false
  done (if !loading || b.otpLoaded || b.causes.getLsbD 0 then s
    else if crcOk then s.modBoot fun b => { b with otpLoaded := true, otpFailures := 0 }
    else
      let n := Nat.min 3 (b.otpFailures + 1)
      (s.modBoot fun b => { b with otpFailures := n, causes := if n = 3 then b.causes ||| 1 else b.causes }).post 0x1381 2 0 n)

/-- The rate of the channels: the highest supported one that every DIMM reaches, at most 4000 MT/s with two DIMMs on a channel (R566). -/
def dramRate (two : Bool) (rate : Nat) : Nat :=
  if two then 4000 else if 4800 ≤ rate then 4800 else if 4400 ≤ rate then 4400 else 4000

/-- Fitted bytes of a population (R566). -/
def dramFitted (p : Nat) : Nat := 2 ^ (38 + b2n (bit p 0) + b2n (bit p 1) + b2n (bit p 2))

/-- DRAM stays out of service (R567). -/
def dramFails (state channel step : Nat) (s : State) : State :=
  let s := s.modDram fun d => { d with state := state, failing := if state = 1 then channel else 0xFF, fitted := 0, trained := false }
  let s := s.modBoot fun b => { b with causes := b.causes ||| 2, trained := true }
  s.post 0x1184 4 (if state = 1 then channel else 0xFF) step

/-- Training ends (R566, R567, R574). -/
def execDramTraining (t : Time) (r : TrainResult) (s : State) : Host.Outcome State Fault Refusal :=
  let s := s.advance t
  if s.boot.phase = .booting false ∧ s.boot.trained = false then
    match r with
    | .refused => done (dramFails 2 0xFF 0 s)
    | .failed c st => done (dramFails 1 c.val (st.val + 1) s)
    | .trained p rate =>
      if rate < 4000 then done (dramFails 2 0xFF 0 s)
      else
        let p := p.toNat
        done ((s.modDram fun d => { d with
          state := 0, failing := 0xFF, population := BitVec.ofNat 4 p, fitted := dramFitted p, speed := dramRate (bit p 0) rate, trained := true
          masks := s.rt.mgmt.config.masks, sizes := s.rt.mgmt.config.regions }).modBoot fun b => { b with trained := true })
  else done s

/-! Boot self-test (R622, R630, R635, R636, R638). -/

/-- Whether a unit was fenced at the warm reset and awaits its test (R622). -/
def awaitsWarmTest (s : State) (b site : Nat) : Bool :=
  if b < 16 then (s.rt.fault.cluster b).fenced.contains site && !mhas (s.rt.fault.cluster b).ended site
  else if b < 30 then site == 0 && s.rt.fault.enginesFenced.contains b && !mhas s.rt.fault.enginesEnded b
  else b == 31 && s.rt.sec.fenced.toNat.testBit site

/-- A fenced unit's logic test ends at a warm boot. -/
def warmUnitEnd (b : Nat) (r : UnitTest) (s : State) : State :=
  let site := r.site.val
  let s := endUnitTest b 2 true false r s
  let bad := unitFailed b r s
  if b = 31 then if bad then s else s.modSec fun x => { x with fenced := x.fenced &&& ~~~(1#3 <<< site) }
  else
    let c := s.rt.fault.cluster b
    let p := if bad then 0xFF else if b < 16 then c.nextPlace else 0
    let s := bumpFault (if bad then 15 else 14) 1 s
    let s := if b < 16 then modCluster b (fun c => { c with ended := c.ended ++ [(site, if bad then none else some p)] }) s
      else s.modFault fun f => { f with enginesEnded := mset f.enginesEnded b (!bad) }
    s.post 0x0482 (if bad then 3 else 1) b (site * 2 ^ 24 + p * 65536 + b2n bad)

/-- Whether a block and site name a unit of R630. -/
def isUnit (b site : Nat) : Bool :=
  if b < 16 then site < 9 || site == 255 else if b = 31 then site < 3 || site == 255 else b < 35 && site == 0

def execBootSelftestUnitEnd (t : Time) (b : Fin 36) (r : UnitTest) (s : State) : Host.Outcome State Fault Refusal :=
  let s := s.advance t
  let b := b.val
  let site := r.site.val
  if s.lifecycle = 4 ∨ !isUnit b site then done s
  else match s.boot.phase with
    | .booting false =>
      done (if s.unusable b site || mhas s.rt.test.reports (b * 256 + site) then s else endUnitTest b 1 true true r s)
    | .booting true => done (if awaitsWarmTest s b site then warmUnitEnd b r s else s)
    | _ => done s

/-! READY (R621 to R623, R638, R639). -/

/-- The sites take their places at the end of a cold boot's self-test; one security engine in service alone raises KEY.DEGRADED (R370, R638,
R639). -/
def assignSites (s : State) : State :=
  let ok := fun b site => !s.unusable b site
  let cam := assignEngines (fun e => ok e 0) 16 8 24
  let mal := assignEngines (fun e => ok e 0) 25 4 29
  let bad := (List.range 3).foldl (fun m e => if ok 31 e then m else m + 2 ^ e) 0
  let left := ((List.range 3).filter (ok 31)).length
  let s := (s.modSec fun x => { x with fenced := BitVec.ofNat 3 bad }).modFault fun f => { f with
    clusters := (List.range 16).map fun c => (c, assignCluster (ok c)), places := cam.1 ++ mal.1, spares := cam.2 ++ mal.2 }
  (s.rt.fault.clusters.foldl (fun s c => s.postIf c.2.degraded 0x0484 3 c.1 (clusterLimit s.rt.fault s.rt.power.point c.1)) s).postIf
    (left == 1) 0x0A84 4 0 1

/-- A block's release is requested: it is carried out at once, or deferred until its PLL has lock (R620). -/
def requestRelease (b : Nat) (s : State) : State :=
  let up := s.up
  let c := clocked s b
  s.modBoot fun x =>
    if c then { x with inReset := x.inReset &&& ~~~(1#36 <<< b), pendingRelease := mdel x.pendingRelease b }
    else { x with inReset := x.inReset ||| (1#36 <<< b), pendingRelease := if mhas x.pendingRelease b then x.pendingRelease else mset x.pendingRelease b up }

/-- Blocks are released but for failed single ones; after an OTP failure only the endpoint is (R619, R621, R639). -/
def releaseBlocks (s : State) : State :=
  (List.range 36).foldl (fun s b =>
    if b = 35 then requestRelease b s
    else if s.boot.causes.getLsbD 0 || (30 ≤ b && s.blockFailed b) then s
    else requestRelease b s) s

/-- Domains powered at the end of a boot: all but the engines held as spares (R600). -/
def bootDomains (s : State) : State :=
  s.modPower fun p => { p with powered := (List.range 36).foldl (fun m b => if s.rt.fault.spares.contains b then m else m ||| (1#36 <<< b)) 0 }

/-- DEV_STATUS.READY sets, with the events and records of the boot (R82, R623, R653). -/
def setReady (s : State) : State :=
  let up := s.up
  let safe := s.boot.causes != 0
  let s := s.modSenak fun h => { h with ready := true, safeBoot := safe }
  let s := s.modBoot fun b => { b with phase := .running, readyOnce := true, bootMs := (up - b.resetEnd) / tMs }
  let s := (s.modSec fun x => { x with enabled := !safe }).postIf safe 0x1380 4 0 s.boot.causes.toNat
  let s := bootRecord { code := 0x1585, sev := 1, obj := 0, detail := s.boot.lastReset } s
  alertUpdate (s.post 0x0181 1 0 s.boot.lastReset)

/-- The end of a cold boot (R621). -/
def readyCold (s : State) : State :=
  let s := deriveInternal (bootDomains (releaseBlocks (assignSites s)))
  let s := setReady s
  if s.senak.safeBoot || s.lifecycle == 4 then s else startChain 1 s

/-- The end of a warm boot (R622): outside safe boot the active generation is reactivated at the next boundary. -/
def readyWarm (s : State) : State :=
  let s := setReady (bootDomains (releaseBlocks s))
  let safe := s.senak.safeBoot
  s.modGens fun g => { g with reactivate := !safe }

/-- The device has finished a boot, or its endpoint a reset (R612, R621, R622). -/
def execDeviceReady (t : Time) (s : State) : Host.Outcome State Fault Refusal :=
  let s := s.advance t
  let otp := s.boot.otpLoaded || s.boot.causes.getLsbD 0
  match s.boot.phase with
  | .booting false => done (if otp && (s.boot.trained || s.boot.causes.getLsbD 0) && !s.boot.waitRefclk then readyCold s else s)
  | .booting true => done (if otp && !s.boot.waitRefclk then readyWarm s else s)
  | .running =>
    done (if s.boot.endpointOnly && !s.senak.pcie.held then
      (((s.modSenak fun h => { h with ready := true }).modBoot fun b => { b with endpointOnly := false, lastReset := 5 })).post 0x0181 1 0 5
    else s)
  | _ => done s

/-! Release and block reset (R620, R624, R625). -/

/-- A deferred release is carried out once lock has held (R620). -/
def execBlockRelease (t : Time) (b : Fin 36) (s : State) : Host.Outcome State Fault Refusal :=
  let s := s.advance t
  match mget s.boot.pendingRelease b.val with
  | some since =>
    if clocked s b.val then
      done ((requestRelease b.val s).postIf (decide (tMs < s.up - since)) 0x1382 1 b.val ((s.up - since) / tUs))
    else done s
  | none => done s

/-- BOOT.STATUS (R627). -/
def cmdBootStatus : Cmd where
  code := 0x1300
  len := len1 0
  safe := true
  run := fun _ _ s =>
    let b := s.boot
    let rec_ := s.rt.mgmt.recovered
    let choices := b2n (decide (2 ≤ s.lifecycle) || bit b.band 0) + 2 * b2n (rec_ || bit b.band 1) + 4 * b2n (bit b.band 2) +
      8 * b2n (!rec_ && bit b.band 3)
    okWith s (block 48 [(0, 1, b.lastReset), (1, 1, b.cfgCode), (2, 1, b.band), (3, 1, choices), (4, 1, b.causes.toNat), (5, 1, b.otpFailures),
      (6, 1, s.rt.mgmt.config.pcieActions), (8, 4, b.bootMs), (0xC, 4, b.coldResets), (0x10, 4, b.warmResets), (0x14, 4, b.endpointResets),
      (0x18, 8, b.pendingRelease.foldl (fun m e => m + 2 ^ e.1) 0), (0x20, 8, b.inReset.toNat)])

/-- BOOT.PCIE_SET (R612, R628). -/
def cmdBootPcieSet : Cmd where
  code := 0x1301
  len := len1 4
  safe := true
  fails := fun r _ _ => fldFails r.params [msk 0 1 7, rsv 1 3]
  run := fun r _ s => okWith (s.writeFlash fun c => { c with pcieActions := u8 r.params 0 })

/-- BOOT.BLOCK_RESET (R624, R625, R640). -/
def cmdBootBlockReset : Cmd where
  code := 0x1302
  len := len1 4
  safe := true
  fails := fun r _ s => fldFails r.params [rng 0 1 0 34, rsv 1 3] ++ failIf (s.underTest (u8 r.params 0)) .wrongState 1
  run := fun r _ s =>
    let b := u8 r.params 0
    let s := resetBlock b (wakeDomain b (s.addPending 0x1302 b r))
    let s := s.modSenak fun h => { h with stopped := if h.stopped.contains b then h.stopped else h.stopped ++ [b] }
    { status := .pending, st := if (30 ≤ b && s.blockFailed b) || s.boot.causes.getLsbD 0 then s else requestRelease b s }

/-- The block has been released and its tables initialised (R624). -/
def execBlockResetDone (t : Time) (b : Fin 36) (s : State) : Host.Outcome State Fault Refusal :=
  let s := s.advance t
  if s.domainReady b.val && !mhas s.boot.pendingRelease b.val then
    done ((s.senak.pending.filter fun p => p.code == 0x1302 && p.obj == b.val).foldl (fun s p => s.endPending p .ok 0) s)
  else done s

/-! Trials and recovery (R656, R657). -/

/-- A trial that is not ready 5 s after Uzogan started gives way to the confirmed slot within the same boot (R656). -/
def execTrialReadyTimeout (t : Time) (s : State) : Host.Outcome State Fault Refusal :=
  let s := s.advance t
  let m := s.rt.mgmt
  if s.boot.phase = .booting false ∧ m.asTrial ∧ s.boot.uzoganAt + 5 * tS ≤ s.up then
    let c := m.config.confirmed
    let up := s.up
    if m.slotValid c then done (((runSlot c false s).modBoot fun b => { b with uzoganAt := up }).post 0x1583 3 c 1)
    else done (s.modBoot fun b => { b with phase := .recovery })
  else done s

/-- An image arrives in UART recovery: it is answered and run, or refused (R655, R657). -/
def execUartImageReceive (t : Time) (image : Bytes) (s : State) : Host.Outcome State Fault Refusal :=
  let s := s.advance t
  let x := FwSlot.ofImage image
  if s.boot.phase = .recovery then
    if x.good ∧ s.rt.mgmt.rollback ≤ x.security then
      let up := s.up
      let old := s.level
      let warm := s.boot.readyOnce
      let s := startImage x (s.modMgmt fun m => { m with recovered := true, flashHeld := true, asTrial := false })
      let s := (s.emit (.board 1 0x06)).modBoot fun b => { b with phase := .booting warm, uzoganAt := up }
      done (if warm ∧ s.level ≠ old then { s.modBoot fun b => { b with causes := b.causes ||| 4 } with gens := {} } else s)
    else done (s.emit (.board 1 0x15))
  else done s

/-- A gap of more than 1 s between bytes: reception starts again, and no image has been received (R657). -/
def execUartRxGapTimeout (t : Time) (s : State) : Host.Outcome State Fault Refusal := done (s.advance t)

def execBootStatus (r : Request) (s : State) : Host.Outcome State Fault Refusal := execCmd cmdBootStatus r s
def execBootPcieSet (r : Request) (s : State) : Host.Outcome State Fault Refusal := execCmd cmdBootPcieSet r s
def execBootBlockReset (r : Request) (s : State) : Host.Outcome State Fault Refusal := execCmd cmdBootBlockReset r s

end Sys2Proof.Machine
end

