-- ==== Sys2Proof/Machine/Sys.lean ====
section
/-! DEFINITION. The SYS commands and the quiescing of blocks (R75 to R82). -/

namespace Sys2Proof.Machine

/-- SYS.NOP (R76). -/
def cmdSysNop : Cmd where
  code := 0x0100
  len := lenIn 0 992
  safe := true
  run := fun r _ s => okWith s (slice r.params 0 r.len.toNat)

/-- SYS.INFO (R77). -/
def cmdSysInfo : Cmd where
  code := 0x0101
  len := len1 0
  safe := true
  run := fun _ _ s =>
    let f := s.rt.fault
    okWith s (block 64 [(0, 4, 0x00010004), (4, 4, s.rt.mgmt.image.version), (8, 2, 0x4810), (0xA, 1, 0xB0), (0xB, 1, s.level),
      (0xC, 1, s.lifecycle), (0xD, 1, b2n Config.gradeI), (0x10, 2, coresInService f), (0x12, 2, sparesHeld f),
      (0x14, 1, f.campions.length), (0x15, 1, b2n (s.spareHeld 24)), (0x16, 1, f.mallows.length), (0x17, 1, b2n (s.spareHeld 29)),
      (0x18, 8, s.rt.dram.fitted), (0x20, 4, deviceLimit f s.gens.active s.rt.power.point), (0x24, 4, coreMHz s.rt.power.point),
      (0x28, 8, Config.deviceId.toNat)])

/-- A SYS.RESET waits out its delay; of two the earlier acts, on a tie the wider (R78, R613). -/
def earlierReset (o : Option (Nat × Time)) (n : Nat × Time) : Option (Nat × Time) :=
  match o with
  | none => some n
  | some o => if n.2 < o.2 ∨ (n.2 = o.2 ∧ o.1 < n.1) then some n else some o

/-- SYS.RESET (R78). -/
def cmdSysReset : Cmd where
  code := 0x0102
  len := len1 8
  safe := true
  fails := fun r _ _ => fldFails r.params [rng 0 1 0 1, rsv 1 3, rng 4 4 100 1000000]
  run := fun r _ s =>
    let e := s.up + u32 r.params 4 * tUs
    okWith (s.modSenak fun h => { h with resetAt := earlierReset h.resetAt (u8 r.params 0, e) })

/-- The command completes with OK, then SYS.RESET_NOTICE is posted (R78, R82). -/
def execSysReset (r : Request) (s : State) : Host.Outcome State Fault Refusal :=
  let d := u32 r.params 4
  done ((runCmd cmdSysReset r s).postIf (cmdSysReset.passes r s) 0x0184 2 0
    (u8 r.params 0 * 16777216 + if 16777214 < d then 0xFFFFFF else d))

/-- SYS.EVENT_MASK (R80). -/
def cmdSysEventMask : Cmd where
  code := 0x0104
  len := len1 32
  safe := true
  fails := fun r _ _ => fldFails r.params ([rsv 0 1] ++ (span 1 21).map (fun g => rng g 1 0 5) ++ [rsv 0x16 10])
  run := fun r _ s =>
    let m := slice r.params 0 32
    okWith (s.modSenak fun h => { h with mask := if allZero m then [] else m })

/-- SYS.STATS (R81, R104, R105); a 4-byte count is given modulo 2^32 (log 164). -/
def cmdSysStats : Cmd where
  code := 0x0105
  len := len1 4
  safe := true
  fails := fun r _ _ => fldFails r.params [rng 0 1 0 1, rsv 1 3]
  run := fun r _ s =>
    let base := match s.snap with
      | some n => n.leftStats
      | none => s.latchStats
    let less := clearMax (· == 0xC) base
    let d := block 32 (s.seenStats.map fun e => (e.1, if e.1 = 0 ∨ e.1 = 0x10 then 8 else 4, e.2))
    okWith (if u8 r.params 0 = 1 then
      { s.modSenak fun h => { h with stats := less h.stats } with
        latchStats := less s.latchStats, snap := s.snap.map fun n => { n with leftStats := less n.leftStats } }
      else s) d

/-! Quiesce (R79). -/

/-- A waiting quiesce ends. -/
def endQuiesce (b : Nat) (q : Quiesce) (st : Status) (detail : Nat) (s : State) : State :=
  let s := s.modSenak fun h => { h with quiesce := h.quiesce.erase (b, q) }
  match s.senak.pending.find? fun p => p.code == 0x0103 && p.obj == b && p.slot == q.slot && p.hostSeq == q.hostSeq with
  | some p => s.endPending p st detail
  | none => s

/-- Quiesces that wait on a block. -/
def quiescing (s : State) (b : Nat) : List Quiesce := (s.senak.quiesce.filter fun e => e.1 == b).map (·.2)

/-- Whether no item and no operation runs on a block. -/
def blockIdle (s : State) (b : Nat) : Bool :=
  !s.engaged b && (List.range 9).all fun p => (s.rt.clover.running ((s.rt.fault.placeOf b).getD b) p).isNone

/-- A job that had waited runs once Clover dispatches to its block again. -/
def runWaiting (b : Nat) (s : State) : State :=
  if b = 32 ∧ !s.senak.stopped.contains 32 ∧ !mhas s.senak.quiesce 32 then
    s.modRt fun r => { r with zip := mall r.zip fun _ z => { z with waiting := false } }
  else s

/-- SYS.QUIESCE (R79, R640). -/
def cmdSysQuiesce : Cmd where
  code := 0x0103
  len := len1 8
  safe := true
  fails := fun r _ s =>
    let b := u8 r.params 0
    let resume := u8 r.params 1 == 1
    fldFails r.params ([rng 0 1 0 34, rng 1 1 0 1, rsv 2 2] ++ if resume then [] else [rng 4 4 1000 1000000]) ++
    failIf (resume && s.underTest b) .wrongState 1 ++
    (if resume then [] else inUse (placedOn s s.gens.active b))
  run := fun r _ s =>
    let b := u8 r.params 0
    if u8 r.params 1 = 0 then
      let q : Quiesce := { deadline := s.up + u32 r.params 4 * tUs, slot := r.slot.val, hostSeq := r.hostSeq.toNat }
      { status := .pending, st := ((runWaiting b s).addPending 0x0103 b r).modSenak fun h => { h with quiesce := h.quiesce ++ [(b, q)] } }
    else
      let s := (quiescing s b).foldl (fun s q => endQuiesce b q .objectInUse 0xFFFF s) s
      okWith (s.modSenak fun h => { h with
        stopped := h.stopped.filter fun x => x != b, quiesced := h.quiesced.filter fun x => x != b })

/-- The block is idle: its quiesces end with OK, and it carries no work until a resume (R79). -/
def execQuiesceIdle (t : Time) (b : Fin 36) (s : State) : Host.Outcome State Fault Refusal :=
  let s := s.advance t
  let b := b.val
  let qs := quiescing s b
  if qs ≠ [] ∧ blockIdle s b then
    let s := s.modSenak fun h => { h with
      stopped := if h.stopped.contains b then h.stopped else h.stopped ++ [b]
      quiesced := if h.quiesced.contains b then h.quiesced else h.quiesced ++ [b] }
    done (qs.foldl (fun s q => endQuiesce b q .ok 0 s) s)
  else done s

/-- The timeout of a quiesce passes first: the block resumes (R79). -/
def execQuiesceTimeout (t : Time) (b : Fin 36) (s : State) : Host.Outcome State Fault Refusal :=
  let s := s.advance t
  done (((quiescing s b.val).filter fun q => decide (q.deadline ≤ s.up)).foldl
    (fun s q => endQuiesce b.val q .objectInUse 0xFFFF s) s)

def execSysNop (r : Request) (s : State) : Host.Outcome State Fault Refusal := execCmd cmdSysNop r s
def execSysInfo (r : Request) (s : State) : Host.Outcome State Fault Refusal := execCmd cmdSysInfo r s
def execSysQuiesce (r : Request) (s : State) : Host.Outcome State Fault Refusal := execCmd cmdSysQuiesce r s
def execSysEventMask (r : Request) (s : State) : Host.Outcome State Fault Refusal := execCmd cmdSysEventMask r s
def execSysStats (r : Request) (s : State) : Host.Outcome State Fault Refusal := execCmd cmdSysStats r s

end Sys2Proof.Machine
end

