-- ==== Sys2Proof/Machine/PowerRows.lean ====
section
/-! DEFINITION. Device states, domains, loss of lock, temperature samples and supplies (R591, R592, R596 to R603, R677). -/

namespace Sys2Proof.Machine

/-! Device states (R596 to R599). -/

/-- The device moves to a state, which PWR.STATE_CHANGE reports (R609). -/
def powerState (n : Nat) (s : State) : State :=
  let o := s.rt.power.state
  (s.modPower fun p => { p with state := n }).post 0x1280 1 0 (o * 256 + n)

/-- The network and line interfaces are no longer driven (R597). -/
def stopLines (s : State) : State := bitsPin ((List.range 4).foldl (fun s p => linkDown p 0 s) s)

/-- Entry to Sleep: clocks stop, DRAM goes to self-refresh, VDD_CORE to its lowest (R596 to R598). -/
def enterSleep (s : State) : State :=
  let s := (powerState 2 s).modPower fun p => { p with volt := none, queued := none, powerGood := true, vddCore := 620, idle := false }
  stopLines ((s.modDram fun d => { d with selfRefresh := true }).emit (.board 0 620))

/-- The wake from Sleep: VDD_CORE returns to the point in force, DRAM leaves self-refresh, the lines restart (R597, R598). -/
def wakeSleep (s : State) : State :=
  let mv := coreMv s.rt.power.point
  let s := (powerState 0 s).modPower fun p => { p with vddCore := mv }
  bitsPin ((resetTdm s).modDram fun d => { d with selfRefresh := false }) |>.emit (.board 0 mv)

/-- A demand in Sleep wakes the device (R598, R690). -/
def wakeIfAsleep (s : State) : State := if s.rt.power.state = 2 then wakeSleep s else s

/-- A BAR0 or BAR2 request has its effect where it reaches the device; in Sleep it wakes the device first (R690). -/
def State.hosted (f : State → State) (s : State) : State := if s.reachable then f (wakeIfAsleep s) else s

/-- What Deep sleep and Off leave of the blocks outside AON: nothing; settings outside the generations stay (R596, R597). -/
def mediaOff (s : State) : State :=
  let s := s.modRt fun r => { r.warm with
    fault := { r.fault with selectors := [], injections := [] }, power := { r.power with powered := 0, waking := [], idleSince := [], idle := false }
    test := r.test, time := { r.time with queues := [] } }
  let s := resetTdm (resetMacs s)
  let s := (linkLost (resetBar0 s)).modPcie Pcie.reset
  { s with snap := none }

/-- Entry to Deep sleep, 10 ms after its command (R598). -/
def enterDeepSleep (s : State) : State :=
  let s := mediaOff (zeroise 2 s)
  bitsPin ((powerState 3 s).modDram fun d => { d with selfRefresh := true })

/-- The supplies go: Off keeps only the WAKE_N logic (R596, R599). -/
def enterOff (s : State) : State :=
  let s := (powerState 4 (mediaOff (zeroise 3 s))).modDram fun d => { d with mem := [], fitted := 0 }
  bitsPin ((s.modBoot fun b => { b with phase := .held }).emit (.board 2 0))

/-- The wake from Deep sleep (R578, R598). -/
def wakeDeepSleep (s : State) : State :=
  let s := (powerState 0 (s.modPower fun p => { p with wakeAt := none })).modDram fun d => { d with selfRefresh := false }
  let s := deriveInternal (bootDomains s)
  let safe := s.senak.safeBoot
  let s := (s.modSec fun x => { x with enabled := !safe }).modSenak fun h => { h with ready := true }
  bitsPin (s.post 0x0181 1 0 s.boot.lastReset)

/-- PWR.STATE (R598, R606). -/
def cmdPwrState : Cmd where
  code := 0x1203
  len := len1 24
  safe := true
  fails := fun r _ s =>
    let n := u8 r.params 0
    let g := s.gens
    let held := g.active.holds || g.staged.holds || (match g.armed with
      | some a => a.gen.holds
      | none => false)
    fldFails r.params ([oneOf 0 1 [0, 2, 3, 4], rsv 1 7] ++ timeFlds 8) ++
    badIf (n == 3 && !allZero (slice r.params 8 16) && decide (timeAt r.params 8 < s.now + tS)) 8 ++
    failIf ((n == 2 || n == 3) && held) .wrongState 1 ++ failIf (n != 0 && g.armed.isSome) .wrongState 2
  run := fun r _ s =>
    let n := u8 r.params 0
    let up := s.up
    if n = 4 ∨ (n = 3 ∧ s.rt.power.state = 0) then
      okWith (s.modPower fun p => { p with
        request := some (n, up + 10 * tMs)
        wakeAt := if n = 3 ∧ !allZero (slice r.params 8 16) then some (timeAt r.params 8) else none })
    else okWith s

/-- The command completes first; Sleep is then entered, or left for Run (R598). -/
def execPwrState (r : Request) (s : State) : Host.Outcome State Fault Refusal :=
  let t := runCmd cmdPwrState r s
  let n := u8 r.params 0
  done (if cmdPwrState.passes r s then
      if n = 2 ∧ t.rt.power.state = 0 then enterSleep t else if n = 0 then wakeIfAsleep t else t
    else t)

/-- The 10 ms of a Deep sleep or Off request have passed (R598). -/
def execPowerDownDelayExpiry (t : Time) (s : State) : Host.Outcome State Fault Refusal :=
  let s := s.advance t
  match s.rt.power.request with
  | some (n, e) =>
    done (if e ≤ s.up then
      let s := s.modPower fun p => { p with request := none }
      if n = 3 then enterDeepSleep s else enterOff s
    else s)
  | none => done s

/-- WAKE_N is low for some ns: it counts from 1 µs on, in Off at once, where the board restores the supplies and holds PORST_N (R598, R599). -/
def execWakeNAssert (t : Time) (low : Nat) (s : State) : Host.Outcome State Fault Refusal :=
  let s := s.advance t
  let n := s.rt.power.state
  done (if n = 4 then coldState s
    else if low < 1000 then s
    else if n = 3 then wakeDeepSleep s else wakeIfAsleep s)

/-- The wake time of PWR.STATE has come (R598). -/
def execDeepSleepTimedWake (t : Time) (s : State) : Host.Outcome State Fault Refusal :=
  let s := s.advance t
  match s.rt.power.wakeAt with
  | some w => done (if s.rt.power.state = 3 ∧ w ≤ s.now then wakeDeepSleep s else s)
  | none => done s

/-- An access of the host wakes the device from Sleep (R598, R690). -/
def execSleepWakeAccess (t : Time) (_a : WakeAccess) (s : State) : Host.Outcome State Fault Refusal :=
  done ((s.advance t).hosted id)

/-- A BAR2 access; in Sleep it wakes the device first (R50, R690). -/
def execBar2Access (a : Bar2) (s : State) : Host.Outcome State Fault Refusal := done (s.hosted (bar2 a))

/-- PERST_N rises: the endpoint's release, or the wake from Deep sleep (R598, R599, R612). -/
def execPerstNRelease (t : Time) (s : State) : Host.Outcome State Fault Refusal :=
  let s := (s.advance t).modPcie fun p => { p with held := false }
  done (if s.rt.power.state = 3 then wakeDeepSleep s else s)

/-! Domains (R600, R601). -/

/-- An auto domain that has been idle for the set point's time is switched off (R600). -/
def execDomainIdleOff (t : Time) (b : Fin 36) (s : State) : Host.Outcome State Fault Refusal :=
  let s := s.advance t
  let b := b.val
  let p := s.rt.power
  let g := s.gens.active
  match mget p.idleSince b with
  | none => done s
  | some i =>
    done (if p.state = 0 ∧ s.domainReady b ∧ heldOn g b = false ∧ domainBusy s b = false ∧ staysOn s b = false ∧ s.underTest b = false ∧
        i + u16 g.power 2 * tMs ≤ s.up then
      (clearBlock b s).modPower fun p => { p with powered := p.powered &&& ~~~(1#36 <<< b), idleSince := mdel p.idleSince b }
    else s)

/-- A waking domain is ready (R601, R608). -/
def execDomainReady (t : Time) (b : Fin 36) (s : State) : Host.Outcome State Fault Refusal :=
  let s := s.advance t
  match mget s.rt.power.waking b.val with
  | none => done s
  | some w =>
    let us := ceilDiv (s.up - w) tUs
    done (s.modPower fun p => { p with
      waking := mdel p.waking b.val, wakes := satAdd 4294967295 p.wakes 1, longest := Nat.max p.longest (Nat.min 4294967295 us) })

/-! PLLs (R591, R592). -/

/-- A block stops with its clock and is held in reset; items in service on a cluster stay until their deadline (R591). -/
def stopBlock (s : State) (b : Nat) : State :=
  let up := s.up
  let s := if b < 16 then clearBlock b s else resetBlock b s
  s.modBoot fun x => { x with
    inReset := x.inReset ||| (1#36 <<< b), pendingRelease := if mhas x.pendingRelease b then x.pendingRelease else mset x.pendingRelease b up }

/-- A PLL loses lock: its blocks are held in reset until the lock returns (R591). -/
def loseLock (p : Nat) (s : State) : State :=
  if mhas s.rt.power.unlocked p then s
  else
    let up := s.up
    let s := (s.modPower fun x => { x with unlocked := mset x.unlocked p up }).postIf (decide (p < 8)) 0x1286 3 p 0
    let s := ((List.range 36).filter fun b => b != 35 && (pllsOf b).contains p && !s.boot.inReset.getLsbD b).foldl stopBlock s
    alertUpdate (if p = 7 then pcieDown s else s)

/-- A PLL that REFCLK feeds and an outside clock does not (R591). -/
def refPlls : List Nat := [0, 1, 2, 3, 4, 5, 8, 9]

/-- REFCLK fails: every PLL that it feeds loses lock (R592). -/
def refclkFails (s : State) : State :=
  refPlls.foldl (fun s p => loseLock p s) (s.modPower fun p => { p with refclkOk := false })

/-- A clock monitor declares loss of lock; that of AON or of the time synthesiser is a failure of REFCLK (R591, R592). -/
def execPllLossOfLock (t : Time) (p : Fin 10) (s : State) : Host.Outcome State Fault Refusal :=
  let s := s.advance t
  done (if s.rt.power.state = 4 ∨ s.boot.phase = .held then s
    else if 8 ≤ p.val then refclkFails s else loseLock p.val s)

/-- A clock monitor declares lock: its blocks are then released by BLOCK_RELEASE; without REFCLK nothing that it feeds locks (R591, R592). -/
def execPllLock (t : Time) (p : Fin 10) (s : State) : Host.Outcome State Fault Refusal :=
  let s := s.advance t
  match mget s.rt.power.unlocked p.val with
  | none => done s
  | some since =>
    done (if !s.rt.power.refclkOk && refPlls.contains p.val then s
      else
        let us := Nat.min 4294967295 ((s.up - since) / tUs)
        alertUpdate ((s.modPower fun x => { x with unlocked := mdel x.unlocked p.val }).postIf (decide (p.val < 8)) 0x1287 1 p.val us))

/-! Temperature (R602, R603). -/

/-- A sensor at or above 125 °C in this sample and the one before. -/
def trippedBy (p : Power) (temps : List Int) : Option Nat :=
  (List.range 16).find? fun i => p.tripOnce.getLsbD i && decide (1250 ≤ temps.getD i 0)

/-- A trip: THERMTRIP_N low, every clock stopped, DRAM and the key store lost, Off until the next cold boot (R343, R580, R603). -/
def thermalTrip (i : Nat) (s : State) : State :=
  let s := s.modMgmt fun m => { m with tripped := some i }
  enterOff ((s.modPower fun p => { p with thermtrip := true, request := none, wakeAt := none, volt := none, queued := none }).setPin 3 false)

/-- The 16 sensors are sampled (R602). -/
def execThermalSample (t : Time) (temps : List Int) (s : State) : Host.Outcome State Fault Refusal :=
  let s := s.advance t
  if s.rt.power.state = 4 ∨ s.boot.phase = .held then done s
  else
    let l := (List.range 16).map fun i => temps.getD i (s.rt.power.temps.getD i 0)
    match trippedBy s.rt.power l with
    | some i => done (thermalTrip i (s.modPower fun p => { p with temps := l }))
    | none =>
      let hot := (List.range 16).foldl (fun (m : BitVec 16) i => if 1250 ≤ l.getD i 0 then m ||| (1#16 <<< i) else m) 0
      done (judgeThermal (s.modPower fun p => { p with temps := l, tripOnce := hot }))

/-! Supplies (R677). -/

/-- A supply is lost with PORST_N high: DRAM and the staged generation are lost (R677). -/
def execPowerSupplyLoss (t : Time) (s : State) : Host.Outcome State Fault Refusal :=
  let s := s.advance t
  done ({ (s.modDram fun d => { d with mem := [] }).modGens fun g =>
    { g with staged := { g.active with number := g.staged.number, changes := 0 } } with journal := {} })

end Sys2Proof.Machine
end

