-- ==== Sys2Proof/Machine/Bar0.lean ====
section
/-! DEFINITION. Reads and writes of BAR0 (R45 to R47), and the rows of its registers, user pages and host stream ports (R49, R54, R64,
R365, R559). -/

namespace Sys2Proof.Machine

/-! The map (R45, R49, R54, R64, R365, R559). -/

def pageBase : Nat := 0x100000
def hspBase : Nat := 0x200000

/-- Whether an offset lies in a user page or a host stream port control block. -/
def inBlock (off : Nat) : Bool :=
  (pageBase ≤ off && off < pageBase + 0x10000) || (hspBase ≤ off && off < hspBase + 0x4000)

/-- The offsets of a port's registers (R559). -/
def hspRegs : List Nat := [0, 4, 8, 0xC, 0x10, 0x20, 0x24, 0x28, 0x2C, 0x30, 0x34, 0x40, 0x44]

/-- Whether a register stands at an aligned offset; every other is reserved. -/
def isRegister (off : Nat) : Bool :=
  off < 0x1C || (0x1000 ≤ off && off < 0x1024) || (0x2000 ≤ off && off < 0x2018) || (0x4000 ≤ off && off < 0x4400) ||
  (0x5000 ≤ off && off < 0x5008) ||
  (pageBase ≤ off && off < pageBase + 0x10000 && (off % 0x1000 < 0x44 || 0x800 ≤ off % 0x1000)) ||
  (hspBase ≤ off && off < hspBase + 0x4000 && hspRegs.contains (off % 0x100))

/-! User pages and host stream ports (R47). -/

/-- A write of a register of a port (R559). -/
def hspWrite (h off : Nat) (v : BitVec 32) (s : State) : State :=
  match off with
  | 0 => writeHspBase false false h v s
  | 4 => writeHspBase false true h v s
  | 8 => writeHspSize false h v s
  | 0xC => writeHspTail false h v s
  | 0x20 => writeHspBase true false h v s
  | 0x24 => writeHspBase true true h v s
  | 0x28 => writeHspSize true h v s
  | 0x2C => writeHspTail true h v s
  | 0x44 => writeHspErr h v s
  | _ => s

/-- A write of a block reaches its register. -/
def blockApply (off : Nat) (v : BitVec 32) (s : State) : State :=
  if off < hspBase then pageWrite ((off - pageBase) / 0x1000) (off % 0x1000) v.toNat s
  else hspWrite ((off - hspBase) / 0x100) (off % 0x100) v s

/-- The domain that holds a block: SEC for a page, PCIE for a port. -/
def blockDomain (off : Nat) : Nat := if off < hspBase then 31 else 35

/-- Whether the domain of a block is ready; its clock stops in Sleep (R47, R596). -/
def blockReady (off : Nat) (s : State) : Bool :=
  s.rt.power.state == 0 && s.domainReady (blockDomain off) && !s.boot.inReset.getLsbD (blockDomain off)

/-- An access to a block that is not ready starts the wake (R47, R598). -/
def demandBlock (off : Nat) (s : State) : State := wakeDomain (blockDomain off) s

/-- A write to a block: applied, or held behind those that wait (R47). -/
def blockWrite (off : Nat) (v : BitVec 32) (s : State) : State :=
  if blockReady off s && s.senak.heldWrites.isEmpty then blockApply off v s
  else demandBlock off (s.modSenak fun h => { h with heldWrites := h.heldWrites ++ [⟨off, v.toNat⟩] })

/-- A read of a block that is not ready (R47). -/
def blockUnread (off : Nat) (s : State) : State := demandBlock off ((s.readOut 0xFFFFFFFF).devFault 5)

/-- The oldest held write is applied once its domain is ready (R47). -/
def execHeldBar0WriteApply (t : Time) (s : State) : Host.Outcome State Fault Refusal :=
  let s := s.advance t
  match s.senak.heldWrites with
  | [] => done s
  | w :: l =>
    done (if blockReady w.off s then blockApply w.off (BitVec.ofNat 32 w.value) (s.modSenak fun h => { h with heldWrites := l }) else s)

def execPgCtrlGo (t : Time) (u : Fin 16) (v : BitVec 32) (s : State) : Host.Outcome State Fault Refusal :=
  done ((s.advance t).hosted (blockWrite (pageBase + u.val * 0x1000) (v ||| 1)))

def execPgStatusDoneClear (u : Fin 16) (v : BitVec 32) (s : State) : Host.Outcome State Fault Refusal :=
  done (s.hosted (blockWrite (pageBase + u.val * 0x1000 + 0xC) v))

/-- A read of PG_ERR answers the count and clears it (R365). -/
def execPgErrRead (u : Fin 16) (s : State) : Host.Outcome State Fault Refusal :=
  done (s.hosted fun s =>
    let off := pageBase + u.val * 0x1000 + 0x40
    if blockReady off s then modPage u.val (fun p => { p with err := 0 }) (s.readOut (mgetD s.rt.sec.user u.val {}).err)
    else blockUnread off s)

def execHspInTailWrite (h : Fin 64) (v : BitVec 32) (s : State) : Host.Outcome State Fault Refusal :=
  done (s.hosted (blockWrite (hspBase + h.val * 0x100 + 0xC) v))
def execHspOutTailWrite (h : Fin 64) (v : BitVec 32) (s : State) : Host.Outcome State Fault Refusal :=
  done (s.hosted (blockWrite (hspBase + h.val * 0x100 + 0x2C) v))
def execHspSizeWrite (h : Fin 64) (out : Bool) (v : BitVec 32) (s : State) : Host.Outcome State Fault Refusal :=
  done (s.hosted (blockWrite (hspBase + h.val * 0x100 + (if out then 0x28 else 8)) v))
def execHspErrClear (h : Fin 64) (v : BitVec 32) (s : State) : Host.Outcome State Fault Refusal :=
  done (s.hosted (blockWrite (hspBase + h.val * 0x100 + 0x44) v))

/-! The rows of single registers (R49, R54, R64). -/

def execDwinBaseWrite (v : BitVec 32) (s : State) : Host.Outcome State Fault Refusal := done (s.hosted (writeDwinBase v))

/-- A read of DWIN_ERR answers the count and clears it (R9). -/
def execDwinErrRead (s : State) : Host.Outcome State Fault Refusal :=
  done (s.hosted fun s => (s.readOut s.senak.dwinErr).modSenak fun h => { h with dwinErr := 0 })

def execDevFaultClear (v : BitVec 32) (s : State) : Host.Outcome State Fault Refusal := done (s.hosted (writeDevFault v))

/-- The vector's mask bit is cleared (R44). -/
def execMsixVectorUnmask (v : Fin 64) (s : State) : Host.Outcome State Fault Refusal :=
  done (s.hosted fun s => writeMsix (4 * v.val + 3) (msixWord s.senak.pcie (4 * v.val + 3) / 2 * 2) s)

def execMbxRing (t : Time) (v : BitVec 32) (s : State) : Host.Outcome State Fault Refusal := done (s.hosted (ringDoorbell t v))

def execMbxDoneClear (hi : Bool) (v : BitVec 32) (s : State) : Host.Outcome State Fault Refusal :=
  done (s.hosted (writeMbxDone hi v))

def execMbxErrRead (s : State) : Host.Outcome State Fault Refusal :=
  done (s.hosted fun s => (s.readOut s.senak.mbxErr).modSenak fun h => { h with mbxErr := 0 })

def execEvqSizeWrite (v : BitVec 32) (s : State) : Host.Outcome State Fault Refusal := done (s.hosted (writeEvqSize v))
def execEvqBaseWrite (hi : Bool) (v : BitVec 32) (s : State) : Host.Outcome State Fault Refusal := done (s.hosted (writeEvqBase hi v))
def execEvqHeadWrite (v : BitVec 32) (s : State) : Host.Outcome State Fault Refusal := done (s.hosted (writeEvqHead v))

def execEvqLostRead (s : State) : Host.Outcome State Fault Refusal :=
  done (s.hosted fun s => (s.readOut s.senak.evq.lost).modEvq fun q => { q with lost := 0 })

/-! Registers (R9, R45, R46). -/

/-- A write of MBX_IRQ_LO or MBX_IRQ_HI (R54). -/
def writeMbxIrq (hi : Bool) (v : BitVec 32) (s : State) : State :=
  s.modSenak fun h => { h with irq := if hi then v ++ h.irq.extractLsb' 0 32 else h.irq.extractLsb' 32 32 ++ v }

/-- A 32-bit write of BAR0: read-only and reserved offsets ignore it (R9, R45). -/
def regWrite (off : Nat) (v : BitVec 32) (s : State) : State :=
  if inBlock off then blockWrite off v s
  else if 0x4000 ≤ off ∧ off < 0x4400 then writeMsix ((off - 0x4000) / 4) v.toNat s
  else match off with
    | 0x0008 => writeDevFault v s
    | 0x000C => s.modSenak fun h => { h with scratch := v }
    | 0x0014 => writeDwinBase v s
    | 0x1000 => ringDoorbell s.now v s
    | 0x100C => writeMbxDone false v s
    | 0x1010 => writeMbxDone true v s
    | 0x1014 => writeMbxIrq false v s
    | 0x1018 => writeMbxIrq true v s
    | 0x2000 => writeEvqBase false v s
    | 0x2004 => writeEvqBase true v s
    | 0x2008 => writeEvqSize v s
    | 0x200C => writeEvqHead v s
    | _ => s

/-- The mailbox slots, in bytes of BAR0. -/
def slotBase : Nat := 0x10000

/-- Whether an offset lies in the slots. -/
def inSlots (off : Nat) : Bool := slotBase ≤ off && off < slotBase + 0x10000

/-- A 32-bit word written at an aligned offset: into the slots, or to a register (R45, R46). -/
def wordWrite (off : Nat) (v : BitVec 32) (s : State) : State :=
  if inSlots off then s.modSenak fun h => { h with slots := memWrite h.slots (off - slotBase) (le 4 v.toNat) } else regWrite off v s

/-- Successive 32-bit writes, the lower address first (R46). -/
def regWrites (off : Nat) : List (BitVec 32) → State → State
  | [], s => s
  | v :: l, s => regWrites (off + 4) l (wordWrite off v s)

/-- The 32-bit words of a write. -/
def dataWords (data : Bytes) : List (BitVec 32) := (List.range (data.length / 4)).map fun i => BitVec.ofNat 32 (u32 data (4 * i))

/-- The part of a write that falls into the slots, which take any size and alignment (R46). -/
def slotWrite (off : Nat) (data : Bytes) (s : State) : State :=
  s.modSenak fun h => { h with
    slots := memWrite h.slots (off - slotBase) ((data.drop (slotBase - off)).take (slotBase + 0x10000 - Nat.max off slotBase)) }

/-- A write of BAR0: aligned words go to slots and registers, the lower first; of any other write the slots take their part, and a
register that it touches ignores it (R46). -/
def bar0Write (off : Nat) (data : Bytes) (s : State) : State :=
  if inSlots off then slotWrite off data s
  else if off % 4 = 0 ∧ data.length % 4 = 0 then regWrites off (dataWords data) s
  else
    let s := if isRegister (off / 4 * 4) || isRegister ((off + data.length - 1) / 4 * 4) then s.devFault 4 else s
    if off < slotBase ∧ slotBase < off + data.length then slotWrite off data s else s

def execBar0RegisterWrite (off : Nat) (data : Bytes) (s : State) : Host.Outcome State Fault Refusal := done (s.hosted (bar0Write off data))

/-! Reads (R9, R45 to R47, R49, R54, R64, R559). -/

/-- The registers of chapter 2 by offset, as a read shows them; write-only and reserved ones read 0. -/
def senakRegs (s : State) : Map Nat :=
  let h := s.senak
  let q := h.evq
  let lo := fun (v : BitVec 64) => (v.extractLsb' 0 32).toNat
  let hi := fun (v : BitVec 64) => (v.extractLsb' 32 32).toNat
  [(0x0000, 0x4810 * 2 ^ 16 + 0xB0 * 2 ^ 8 + s.level * 2 ^ 4),
    (0x0004, b2n h.ready + 2 * b2n h.safeBoot + 4 * b2n h.preparing.isSome + s.lifecycle * 2 ^ 4 + s.rt.mgmt.running * 2 ^ 8 +
      s.boot.lastReset * 2 ^ 12 + (if s.rt.power.state = 2 then 2 else b2n s.rt.power.idle) * 2 ^ 16),
    (0x0008, h.devFault.toNat), (0x000C, h.scratch.toNat), (0x0010, s.rt.mgmt.image.version), (0x0014, h.dwinBase.toNat), (0x0018, h.dwinErr),
    (0x1004, lo h.busy), (0x1008, hi h.busy), (0x100C, lo h.done), (0x1010, hi h.done), (0x1014, lo h.irq), (0x1018, hi h.irq),
    (0x101C, h.doorbells.length), (0x1020, h.mbxErr),
    (0x2000, (q.base.extractLsb' 0 20).toNat * 2 ^ 12), (0x2004, (q.base.extractLsb' 20 32).toNat),
    (0x2008, q.log2 + q.holdoff * 2 ^ 8 + b2n q.en * 2 ^ 31), (0x200C, q.head), (0x2010, q.tail + b2n q.phase * 2 ^ 16), (0x2014, q.lost)]

/-- The registers of one direction of a host stream port: base, size, tail and head words (R559). -/
def ringWord (d : HspDir) (off : Nat) : Nat :=
  match off with
  | 0 => (d.base.extractLsb' 0 20).toNat * 2 ^ 12
  | 4 => (d.base.extractLsb' 20 32).toNat
  | 8 => d.log2 + b2n d.en * 2 ^ 31
  | 0xC => d.tail
  | 0x10 => d.head + b2n d.phase * 2 ^ 16
  | _ => 0

/-- A register of a host stream port (R559). -/
def hspRead (p : HspPort) (off : Nat) : Nat :=
  if off < 0x14 then ringWord p.inb off
  else if 0x20 ≤ off ∧ off < 0x34 then ringWord p.outb (off - 0x20)
  else match off with
    | 0x34 => p.outb.lengths.length
    | 0x40 => u8 p.block 2
    | 0x44 => p.err.toNat
    | _ => 0

/-- The 32-bit word that a read of an aligned offset answers (R9, R45). -/
def bar0Word (off : Nat) (s : State) : Nat :=
  if inSlots off then uN (memRead s.senak.slots (off - slotBase) 4) 0 4
  else if inBlock off then
    if !blockReady off s then 0xFFFFFFFF
    else if off < hspBase then pageRead ((off - pageBase) / 0x1000) (off % 0x1000) s.rt.sec
    else hspRead (mgetD s.rt.hsp ((off - hspBase) / 0x100) {}) (off % 0x100)
  else if 0x4000 ≤ off ∧ off < 0x4400 then msixWord s.senak.pcie ((off - 0x4000) / 4)
  else if off = 0x5000 then (s.senak.pcie.pba.extractLsb' 0 32).toNat
  else if off = 0x5004 then (s.senak.pcie.pba.extractLsb' 32 32).toNat
  else mgetD (senakRegs s) off 0

/-- What a read of an aligned offset changes: a count that clears on read, or the wake of a domain that is not ready (R9, R47). -/
def bar0Touch (off : Nat) (s : State) : State :=
  if inBlock off then
    if !blockReady off s then demandBlock off (s.devFault 5)
    else if off < hspBase ∧ off % 0x1000 = 0x40 then modPage ((off - pageBase) / 0x1000) (fun p => { p with err := 0 }) s
    else s
  else match off with
    | 0x0018 => s.modSenak fun h => { h with dwinErr := 0 }
    | 0x1020 => s.modSenak fun h => { h with mbxErr := 0 }
    | 0x2014 => s.modEvq fun q => { q with lost := 0 }
    | _ => s

/-- Successive 32-bit reads, the lower address first: the octets and the state after them (R46). -/
def wordReads (off : Nat) : Nat → State → Bytes × State
  | 0, s => ([], s)
  | n + 1, s =>
    let r := wordReads (off + 4) n (bar0Touch off s)
    (le 4 (bar0Word off s) ++ r.1, r.2)

/-- A read of BAR0 answers the octets addressed; a narrower one acts on the whole word (R46; log 162). -/
def bar0Read (off n : Nat) (s : State) : State :=
  let first := off / 4 * 4
  let r := wordReads first ((off + n - 1) / 4 - off / 4 + 1) s
  r.2.emit (.read (slice r.1 (off - first) n))

/-- A read of BAR0: a block whose domain is not ready answers all ones and wakes, and any other offset answers what it holds (R45 to R47;
log 162). -/
def execBar0ReadDomainNotReady (t : Time) (r : BarRead) (s : State) : Host.Outcome State Fault Refusal :=
  done ((s.advance t).hosted (bar0Read r.off r.n))

end Sys2Proof.Machine
end

