-- ==== Sys2Proof/Machine/Crypto.lean ====
section
/-! DEFINITION. The media requests of the security engines (R350, R352, R354, R357 to R362, R368 to R370). -/

namespace Sys2Proof.Machine

/-- A send request finds its slot empty or used up: a leg's send side stops; SRTCP alone ends without it (R180, R352, R354). -/
def sendRefused (flow : Nat) (rtcp absent : Bool) (s : State) : State :=
  if flow < 0x2000 ∧ (absent ∨ !rtcp) then stopSend flow (if absent then 2 else 1) s else s

/-- A leg's SRTP discards (R358). -/
def countDiscard (flow : Nat) (s : State) : State :=
  if flow % 0x100000 < 0x2000 then bumpLeg (flow % 0x100000) 0x28 1 s else s

/-- A checked packet goes on to its object: a relay's media to Sorrel, any other to the object's inbox. -/
def deliverOpened (flow : Nat) (arrived : Time) (f : Frame) (s : State) : State :=
  if 0x80000 ≤ flow ∧ flow < 0x90000 then relayPacket (flow - 0x80000) arrived none f s else pushInbox flow arrived f s

/-- A request is accepted, run and delivered. Its packet's sequence number is the low half of the SRTP index, but for a subscription's,
from which the index was formed (R350). -/
def runRequest (q : SecReq) (s : State) : State :=
  match q with
  | .send slot rtcp bySeq o =>
    if 9216 < o.packet.data.length then bumpSec 9 s
    else
      match acceptSend slot rtcp (if bySeq then some o.packet.seq else none) s with
      | (.absent, s) => sendRefused o.flow rtcp true s
      | (.exhausted, s) => sendRefused o.flow rtcp false s
      | (.index n, s) =>
        let k := mgetD s.rt.sec.slots slot { kind := 1, key := [] }
        let p := o.packet
        let plain := if rtcp then p.data else putAt p.data 2 (be 2 n)
        let sealed := Config.srtpSeal k.profile k.key k.salt rtcp n plain
        sendOut { o with packet := { p with seq := if rtcp then p.seq else n % 65536, data := sealed, len := sealed.length } } s
  | .receive slot rtcp flow arrived f =>
    match acceptReceive slot rtcp f.data s with
    | (.error _, s) => countDiscard flow s
    | (.ok d, s) => deliverOpened flow arrived { f with data := d } s

/-- An engine takes the oldest request of the leg queue or the forwarding queue, whichever the rotating pointer gives: with no engine in
service it is discarded and counted. A management access to the key store ends within its own command, so that none is ever waiting here
(R16, R360, R361, R370). -/
def takeRequest (engine mismatch : Nat) (s : State) : State :=
  match if s.rt.sec.enabled then s.rt.sec.nextQueue else none with
  | none => s
  | some q =>
    match mgetD s.rt.sec.waiting q [] with
    | [] => s
    | r :: l =>
      let s := bumpSec (q + 1) (s.modSec fun x => { x with waiting := if l.isEmpty then mdel x.waiting q else mset x.waiting q l })
      let s := runOn engine mismatch (secTurn q s)
      if (enginesUp s).isEmpty then bumpSec 16 s else runRequest r s

/-- CRYPTO_REQUEST: the oldest request of a queue ends; nothing where the arbiter gives another queue (R361). -/
def execCryptoRequest (t : Time) (queue : Fin 2) (engine mismatch : Fin 3) (s : State) : Host.Outcome State Fault Refusal :=
  let s := s.advance t
  done (if s.rt.sec.nextQueue = some queue.val then takeRequest engine.val mismatch.val s else s)

end Sys2Proof.Machine
end

