-- ==== Sys2Proof/Machine/Dram.lean ====
section
/-! DEFINITION. The DRAM controllers and the MEM commands (R566, R571 to R590). -/

namespace Sys2Proof.Machine

/-! Scheduling (R571, R572). -/

def modCtl (c : Nat) (f : SubCtl → SubCtl) (s : State) : State := s.modDram fun d => { d with subs := mmod d.subs c {} f }

/-- Requests arrive at a controller, which holds 64 reads and 64 writes. -/
def admitLines (d : Dram) (c : Nat) (l q : List LineAccess) : List LineAccess :=
  l.foldl (fun q r =>
    let same := (q.filter fun x => x.write.isSome == r.write.isSome).length
    if same < 64 ∧ 64 * r.line < d.fitted ∧ d.ctlOf (64 * r.line) = c then q ++ [r] else q) q

/-- Requests that no older request to the same line precedes; a read may pass the queued write whose data it returns (R572). -/
def eligibleLines (q : List LineAccess) : List LineAccess :=
  (q.zipIdx.filter fun x => x.1.write.isNone || !((q.take x.2).any fun y => y.line == x.1.line)).map (·.1)

/-- Whether a controller drains writes: 48 are queued, or no read is; a read waits for at most 16 of them. -/
def drains (x : SubCtl) : Bool :=
  let writes := (x.queue.filter fun r => r.write.isSome).length
  let reads := x.queue.length - writes
  if writes = 0 then false else if reads = 0 then true
  else (x.draining && decide (x.drained < 16)) || (!x.draining && decide (48 ≤ writes) && x.drained == 0)

/-- The request that a controller serves: row hits first, oldest first, up to 16 in a row on one bank while another row of it waits. -/
def chosen (d : Dram) (x : SubCtl) : Option LineAccess :=
  let pool := (eligibleLines x.queue).filter fun r => r.write.isSome == drains x
  let a := fun (r : LineAccess) => 64 * r.line
  let hit := fun r => mget x.open_ (d.bankOf (a r)) == some (d.rowOf (a r))
  let spent := fun r => decide (16 ≤ x.streak) && x.streakBank == d.bankOf (a r) &&
    x.queue.any fun y => d.bankOf (a y) == d.bankOf (a r) && d.rowOf (a y) != d.rowOf (a r)
  match pool.find? fun r => hit r && !spent r with
  | some r => some r
  | none => match pool.find? fun r => !spent r with
    | some r => some r
    | none => pool.head?

/-- Whether a request waits for a rank (by its code). -/
def rankBusy (d : Dram) (rank : Nat) : Bool :=
  (mgetD d.subs (rank / 4) {}).queue.any fun r => d.rankOf (64 * r.line) == rank % 4

/-- Whether a refresh of a rank is due: it was not deferred, or a deferred one finds no request queued (R573). -/
def refreshDue (d : Dram) (rank : Nat) : Bool :=
  d.due.contains rank || (mhas d.deferred rank && !rankBusy d rank)

/-- Data of a line as a read at a place of the queue sees it: that of the last write queued before it, or memory. -/
def lineData (d : Dram) (before : List LineAccess) (line : Nat) : Bytes :=
  match (before.filter fun y => y.line == line && y.write.isSome).getLast? with
  | some y => y.write.getD []
  | none => memRead d.mem (64 * line) 64

/-- A controller serves a request. -/
def serve (c : Nat) (r : LineAccess) (e : LineErr) (s : State) : State :=
  let d := s.rt.dram
  let x := mgetD d.subs c {}
  let a := 64 * r.line
  let bank := d.bankOf a
  let at_ := x.queue.findIdx (· == r)
  let hit := mget x.open_ bank == some (d.rowOf a)
  let reads := x.queue.any fun y => y.write.isNone
  let up := s.up
  let s := modCtl c (fun x => { x with
    queue := x.queue.eraseIdx at_, open_ := mset x.open_ bank (d.rowOf a)
    streak := if hit && x.streakBank == bank then x.streak + 1 else 1, streakBank := bank
    draining := r.write.isSome, drained := if r.write.isSome && reads then x.drained + 1 else 0 }) s
  let s := s.modDram fun d => { d with lastUse := mset d.lastUse (d.rankCode a) up, downRanks := d.downRanks.erase (d.rankCode a) }
  match r.write with
  | some b => s.dramWrite a (slice b 0 64)
  | none =>
    if (x.queue.take at_).any fun y => y.line == r.line && y.write.isSome then
      s.emit (.line a (lineData d (x.queue.take at_) r.line) false)
    else
      let m := meetError r.line e s
      m.2.emit (.line a (if m.1 then zeros 64 else memRead d.mem a 64) m.1)

/-- Whether the DRAM is in service and out of self-refresh. -/
def dramServes (s : State) : Bool := s.rt.dram.fitted != 0 && !s.rt.dram.selfRefresh && !mhas s.rt.power.unlocked 4

/-- DRAM_REQUEST: requests arrive at a controller, and it serves one unless a refresh is due (R571, R572, R575, R577). -/
def execDramRequest (t : Time) (ctl : Fin 16) (arrivals : List LineAccess) (err : LineErr) (s : State) :
    Host.Outcome State Fault Refusal :=
  let s := s.advance t
  if !dramServes s then done s
  else
    let d := s.rt.dram
    let s := modCtl ctl.val (fun x => { x with queue := admitLines d ctl.val arrivals x.queue }) s
    let d := s.rt.dram
    if (List.range 4).any fun k => refreshDue d (4 * ctl.val + k) then done s
    else match chosen d (mgetD d.subs ctl.val {}) with
      | some r => done (serve ctl.val r err s)
      | none => done s

/-! Refresh (R573). -/

/-- Whether a rank is fitted. -/
def rankFitted (d : Dram) (rank : Nat) : Bool := rank % 4 < 2 ^ d.rankBits

/-- REFRESH_INTERVAL: the refresh is deferred while requests are queued for its rank and fewer than four are, and is due otherwise (R573). -/
def execRefreshInterval (t : Time) (rank : Fin 64) (s : State) : Host.Outcome State Fault Refusal :=
  let s := s.advance t
  if !dramServes s || !rankFitted s.rt.dram rank.val then done s
  else
    let n := mgetD s.rt.dram.deferred rank.val 0
    if rankBusy s.rt.dram rank.val && decide (n < 4) then
      done (s.modDram fun d => { d with deferred := mset d.deferred rank.val (n + 1) })
    else done (s.modDram fun d => { d with due := if d.due.contains rank.val then d.due else rank.val :: d.due })

/-- DRAM_REFRESH: a due refresh is issued with every deferred one, and closes the rank's pages. -/
def execDramRefresh (t : Time) (rank : Fin 64) (s : State) : Host.Outcome State Fault Refusal :=
  let s := s.advance t
  if dramServes s && refreshDue s.rt.dram rank.val then
    done (modCtl (rank.val / 4) (fun x => { x with open_ := mkeep x.open_ fun b _ => b / 32 != rank.val % 4 })
      (s.modDram fun d => { d with due := d.due.erase rank.val, deferred := mdel d.deferred rank.val }))
  else done s

/-- The worst MR4 state of a channel. -/
def channelHot (m : Map Nat) (ch : Nat) : Nat := (m.filter fun e => e.1 / 8 == ch).foldl (fun n e => Nat.max n e.2) 0

/-- MR4_POLL: the ranks whose MR4 does not read normal (R573, R590). -/
def execMr4Poll (t : Time) (hot : List (Fin 64 × Fin 3)) (s : State) : Host.Outcome State Fault Refusal :=
  let s := s.advance t
  if s.rt.dram.fitted = 0 then done s
  else
    let old := s.rt.dram.hot
    let new : Map Nat := hot.foldl (fun m e => if e.2.val = 0 ∨ rankFitted s.rt.dram e.1.val = false then m else mset m e.1.val e.2.val) []
    done ((List.range 8).foldl (fun s c => s.postIf (channelHot old c != channelHot new c) 0x1182 2 c (channelHot new c))
      (s.modDram fun d => { d with hot := new }))

/-- ZQ_CALIBRATION: the rank is blocked for at most 1 µs; nothing else changes (R574). -/
def execZqCalibration (t : Time) (_rank : Fin 64) (s : State) : Host.Outcome State Fault Refusal := done (s.advance t)

/-- DQS_RECENTRE: timing is re-centred without blocking; nothing that the model holds changes (R574). -/
def execDqsRecentre (t : Time) (s : State) : Host.Outcome State Fault Refusal := done (s.advance t)

/-- Whether patrol scrub may read its next line: the DRAM is in service and the device not in Deep sleep or off, nothing is queued and no
refresh is due at the line's controller, and a new pass begins an interval after the one before it (R571, R576). -/
def scrubs (s : State) : Bool :=
  let d := s.rt.dram
  let c := d.ctlOf (64 * d.scrubLine)
  let began : Bool := match d.scrubAt with
    | some t => d.scrubLine != 0 || decide (t + d.scrubHours * 3600 * tS ≤ s.up)
    | none => true
  d.fitted != 0 && decide (s.rt.power.state ≤ 2) && !mhas s.rt.power.unlocked 4 && (mgetD d.subs c {}).queue.isEmpty &&
    !(List.range 4).any (fun k => refreshDue d (4 * c + k)) && began

/-- PATROL_SCRUB: the next line is read and corrected (R571, R576). -/
def execPatrolScrub (t : Time) (err : LineErr) (s : State) : Host.Outcome State Fault Refusal :=
  let s := s.advance t
  let d := s.rt.dram
  let line := d.scrubLine
  if scrubs s = false then done s
  else
    let up := s.up
    let s := (meetError line err (if line = 0 then s.modDram fun d => { d with scrubAt := some up } else s)).2
    if 64 * (line + 1) < d.fitted then done (s.modDram fun d => { d with scrubLine := line + 1 })
    else done ((s.modDram fun d => { d with scrubLine := 0, passes := d.passes + 1 }).post 0x1183 0 0 (d.passes + 1))

/-- RANK_POWER_DOWN (R579). -/
def execRankPowerDown (t : Time) (rank : Fin 64) (s : State) : Host.Outcome State Fault Refusal :=
  let s := s.advance t
  let d := s.rt.dram
  let idle := !rankBusy d rank.val && decide (mgetD d.lastUse rank.val 0 + d.timer * tNs ≤ s.up)
  if dramServes s && s.level == 1 && rankFitted d rank.val && idle && !d.downRanks.contains rank.val then
    done (s.modDram fun d => { d with downRanks := rank.val :: d.downRanks })
  else done s

/-! Commands (R583 to R589). -/

/-- Whether a mask is valid for its place (R569). -/
def maskOk (i m : Nat) : Bool :=
  bit m (maskBits.getD i 0) && m < 2 ^ 41 && maskBits.zipIdx.all fun b => b.2 == i || !bit m b.1

/-- MEM.STATUS (R584). -/
def cmdMemStatus : Cmd where
  code := 0x1100
  len := len1 0
  safe := true
  run := fun _ _ s =>
    let d := s.seen.dram
    let hot := (List.range 8).foldl (fun m c => if 1 ≤ channelHot d.hot c then m + 2 ^ c else m) 0
    let c := s.seen.mgmt.config
    let size := fun (m : Map Nat) i => mgetD m i ([4, 0, 0, 4, 12, 2].getD i 0)
    let newMasks := (List.range 9).any fun i => mgetD c.masks i (defaultMasks.getD i 0) != d.mask i
    let newSizes := [0, 3, 4, 5].any fun i => size c.regions i != size d.sizes i
    okWith s (block 32 [(0, 8, d.fitted), (8, 2, d.speed), (0xA, 1, d.state), (0xB, 1, d.failing), (0xC, 1, d.population.toNat),
      (0xD, 1, hot), (0xE, 1, b2n newMasks + 2 * b2n newSizes), (0x10, 4, d.scrubHours),
      (0x14, 4, if d.fitted = 0 then 0 else d.scrubLine * 64 * 1000 / d.fitted)])

/-- MEM.MAP (R570, R585). -/
def cmdMemMap : Cmd where
  code := 0x1101
  len := len1 80
  safe := true
  fails := fun r _ _ =>
    let b := r.params
    fldFails b [rng 0 1 0 2, rsv 1 7] ++ (if u8 b 0 = 1 then
      (List.range 9).flatMap fun i => badIf (!maskOk i (u64 b (8 + 8 * i))) (8 + 8 * i) else [])
  run := fun r _ s =>
    let b := r.params
    let masks : Map Nat := if u8 b 0 = 1 then (List.range 9).map fun i => (i, u64 b (8 + 8 * i)) else []
    let s' := if u8 b 0 = 0 then s else s.writeFlash fun c => { c with masks := masks }
    okWith s' ((List.range 9).flatMap fun i => le 8 (s.rt.dram.mask i))

/-- MEM.REGIONS (R582, R586). -/
def cmdMemRegions : Cmd where
  code := 0x1102
  len := len1 16
  safe := true
  fails := fun r _ s =>
    let b := r.params
    fldFails b ([rng 0 1 0 1, rsv 1 7] ++
      if u8 b 0 = 1 then [rng 8 2 4 512, rng 0xA 2 4 64, rng 0xC 2 12 256, rng 0xE 2 2 64] else []) ++
      failIf (u8 b 0 == 1 && decide (s.rt.dram.fitted < (u16 b 8 + 2 + u16 b 0xA + u16 b 0xC + u16 b 0xE + 8) * gib)) .capacityExceeded 1
  run := fun r _ s =>
    let b := r.params
    let s' := if u8 b 0 = 0 then s
      else s.writeFlash fun c => { c with regions := [(0, u16 b 8), (3, u16 b 0xA), (4, u16 b 0xC), (5, u16 b 0xE)] }
    okWith s' ((List.range 7).flatMap fun i => le 8 (regionBase s.rt.dram i) ++ le 8 (regionSize s.rt.dram i))

/-- MEM.SCRUB (R576, R579, R587). -/
def cmdMemScrub : Cmd where
  code := 0x1103
  len := len1 8
  safe := true
  fails := fun r _ s =>
    fldFails r.params ([rng 0 2 1 168, rsv 2 2] ++ if s.level = 1 then [(4, 4, fun v => v == 0 || (50 ≤ v && v ≤ 10000))] else [])
  run := fun r _ s =>
    let b := r.params
    okWith (s.modDram fun d => { d with
      scrubHours := u16 b 0, timer := if s.level = 1 ∧ u32 b 4 ≠ 0 then u32 b 4 else d.timer })

/-- A log entry as MEM.ERRORS returns it. -/
def ErrEntry.bytes (e : ErrEntry) : Bytes := le 8 e.address ++ le 4 e.second ++ le 1 (e.rank * 4) ++ le 1 e.device ++ le 2 e.number

/-- MEM.ERRORS (R588). -/
def cmdMemErrors : Cmd where
  code := 0x1104
  len := len1 4
  safe := true
  fails := fun r _ _ => fldFails r.params [rng 0 1 0 1, rsv 1 3]
  run := fun r _ s =>
    let d := s.seen.dram
    let less := fun (b x : Dram) => { x with
      corrected := x.corrected - b.corrected, uncorrectable := x.uncorrectable - b.uncorrectable, passes := x.passes - b.passes }
    let entries := d.log.flatMap ErrEntry.bytes
    let s' := if u8 r.params 0 = 1 then s.clearSeen (fun b rt => { rt with dram := less b.dram rt.dram }) else s
    okWith s' (le 8 d.corrected ++ le 4 d.uncorrectable ++ le 4 d.passes ++ zeros 16 ++ entries ++ zeros (256 - entries.length))

/-- MEM.INJECT (R583, R589). -/
def cmdMemInject : Cmd where
  code := 0x1105
  len := len1 16
  safe := true
  fails := fun r _ s =>
    let b := r.params
    fldFails b [rng 8 1 0 1, rng 9 1 0 9, rsv 0xA 6] ++ badIf (decide (s.rt.dram.fitted ≤ u64 b 0)) 0 ++
      failIf (decide (2 ≤ s.lifecycle)) .deniedLifecycle s.lifecycle
  run := fun r _ s =>
    let b := r.params
    okWith (s.modDram fun d => { d with inject := mset d.inject (u64 b 0 / 64) (u8 b 8, u8 b 9) })

def execMemStatus (r : Request) (s : State) : Host.Outcome State Fault Refusal := execCmd cmdMemStatus r s
def execMemMap (r : Request) (s : State) : Host.Outcome State Fault Refusal := execCmd cmdMemMap r s
def execMemRegions (r : Request) (s : State) : Host.Outcome State Fault Refusal := execCmd cmdMemRegions r s
def execMemScrub (r : Request) (s : State) : Host.Outcome State Fault Refusal := execCmd cmdMemScrub r s
def execMemErrors (r : Request) (s : State) : Host.Outcome State Fault Refusal := execCmd cmdMemErrors r s
def execMemInject (r : Request) (s : State) : Host.Outcome State Fault Refusal := execCmd cmdMemInject r s

end Sys2Proof.Machine
end

