-- ==== Sys2Proof/Machine/Tdm.lean ====
section
/-! DEFINITION. The TDM commands (R490 to R500). -/

namespace Sys2Proof.Machine

/-- The settings of ports and lines with one of them replaced. -/
def withPort (s : State) (p : Nat) (b : Bytes) : Nat → Bytes := fun q => if q = p then b else sdhSet s q
def withLine (s : State) (e : Nat) (b : Bytes) : Nat → Bytes := fun x => if x = e then b else lineSet s x

/-- OBJECT_IN_USE where settings take away what the active, armed or staged generation names (R490). -/
def takesAway (s : State) (ports lines : Nat → Bytes) : List Fail :=
  inUse (([s.gens.active, s.gens.staged] ++ (s.gens.armed.map (·.gen)).toList).findSome? fun g =>
    if (brokenBy (sdhSet s) (lineSet s) g).isSome then none else brokenBy ports lines g)

/-- TDM.SDH_SET (R492). -/
def cmdTdmSdhSet : Cmd where
  code := 0x0D00
  len := len1 24
  block := some 33
  fails := fun r _ s =>
    let b := r.params
    fldFails b ([rng 0 1 0 3, rng 1 1 0 2, rng 2 1 0 15, msk 3 1 1, rsv 0x13 5] ++ (List.range 15).map fun i => rng (4 + i) 1 0x20 0x7E) ++
      takesAway s (withPort s (u8 b 0) (slice b 0 24)) (lineSet s)
  run := fun r _ s =>
    let b := r.params
    okWith (s.modTdm fun t => { t with waiting := mset t.waiting (sdhLine (u8 b 0)) (slice b 0 24) })

/-- Fields that TDM.PDH_SET and TDM.TRIB_SET share (R493). -/
def lineFlds (modes : Nat) : List Fld := [rng 2 1 0 modes, msk 3 1 0x1F, rng 5 1 0 15, rsv 7 1]

/-- TDM.PDH_SET (R493). -/
def cmdTdmPdhSet : Cmd where
  code := 0x0D01
  len := len1 8
  block := some 33
  fails := fun r _ s =>
    let b := r.params
    fldFails b ([rng 0 1 0 15, rsv 1 1, msk 6 1 3] ++ lineFlds 3) ++
      takesAway s (sdhSet s) (withLine s (1008 + u8 b 0) (slice b 0 8))
  run := fun r _ s =>
    let b := r.params
    okWith (s.modTdm fun t => { t with waiting := mset t.waiting (1008 + u8 b 0) (slice b 0 8) })

/-- TDM.TRIB_SET (R493); the interface byte is for PDH ports only. -/
def cmdTdmTribSet : Cmd where
  code := 0x0D02
  len := len1 8
  block := some 33
  fails := fun r _ s =>
    let b := r.params
    let e := u16 b 0
    fldFails b ([rng 0 2 0 1007, rsv 6 1] ++ lineFlds 2) ++ absentState (tribExists (u8 (sdhSet s (e / 252)) 1) e) ++
      takesAway s (sdhSet s) (withLine s e (slice b 0 8))
  run := fun r _ s =>
    let b := r.params
    okWith (s.modTdm fun t => { t with waiting := mset t.waiting (u16 b 0) (slice b 0 8) })

/-- The name of a cross-connect. -/
def xcKey (kind a b : Nat) : Nat := kind * 2 ^ 32 + a * 65536 + b

/-- The TSLOT, TRIB or PDH port of an output that a cross-connect would drive and that is driven already (R485, R494): a protecting TRIB
is, by its pair (R481). -/
def xcTaken (g : Generation) (b : Bytes) : Option Nat :=
  if u8 b 0 = 2 then
    let joined := ((namedLines g).filter fun x => x.2 == [3]).findSome? fun x =>
      if x.1 = u16 b 4 then some x.1 else if x.1 = 1008 + u16 b 6 then some (u16 b 6) else none
    joined.or (if protects g (u16 b 4) then some (u16 b 4) else none)
  else (xcDrives b).find? fun ts => driverOf g ts != .idle

/-- TDM.XC_SET (R468, R494). -/
def cmdTdmXcSet : Cmd where
  code := 0x0D03
  len := len1 8
  gmode := .modify
  block := some 33
  fails := fun r g s =>
    let b := r.params
    let clear := u8 b 0 == 2
    fldFails b [rng 0 1 0 2, rsv 1 3, rng 4 2 0 (if clear then 1007 else 32767), rng 6 2 0 (if clear then 15 else 32767)] ++
      (if clear then
        badIf (kindUnder (sdhSet s) (lineSet s) (u16 b 4) != 3) 4 ++ badIf (lineKind (1008 + u16 b 6) (lineSet s (1008 + u16 b 6)) != 3) 6
      else
        badIf (!switchable s g (u16 b 4)) 4 ++ badIf (!switchable s g (u16 b 6) || u16 b 4 == u16 b 6) 6) ++
      inUse (xcTaken g b)
  run := fun r _ s =>
    let b := r.params
    okWith (s.stage fun g => { g with xcs := mset g.xcs (xcKey (u8 b 0) (u16 b 4) (u16 b 6)) (slice b 0 8) })

/-- A member of a bypass group that breaks R468, comes twice, or that something else drives (R495). -/
def memberTaken (s : State) (g : Generation) (b : Bytes) : Option Nat :=
  let l := groupSlots b
  let others := { g with bypasses := mdel g.bypasses (u16 b 0) }
  (l.zipIdx.find? fun x => !switchable s g x.1 || (l.take x.2).contains x.1 || driverOf others x.1 != .idle).map (·.1)

/-- TDM.BYPASS_SET (R495). -/
def cmdTdmBypassSet : Cmd where
  code := 0x0D04
  len := len1 132
  gmode := .modify
  block := some 33
  fails := fun r g s =>
    let b := r.params
    let n := u8 b 2
    fldFails b ([rng 0 2 0 255, rng 2 1 2 32, rsv 3 1] ++ (List.range 32).flatMap fun i =>
      if i < n then [rng (4 + 4 * i) 2 0 32767, rng (6 + 4 * i) 1 0 1, rsv (7 + 4 * i) 1] else [rsv (4 + 4 * i) 4]) ++
      inUse (memberTaken s g b)
  run := fun r _ s => okWith (s.stage fun g => { g with bypasses := mset g.bypasses (u16 r.params 0) (slice r.params 0 132) })

/-- What names a TRIB that would protect: a cross-connect, or a leg or bypass group whose TSLOTs would no longer be switchable. -/
def tribNamed (g : Generation) (e : Nat) : Bool :=
  (namedSlots g).any (fun ts => ts / 32 == e) || g.xcs.any fun x => u8 x.2 0 == 2 && u16 x.2 4 == e

/-- TDM.PROT_SET (R481, R496). -/
def cmdTdmProtSet : Cmd where
  code := 0x0D05
  len := len1 16
  gmode := .modify
  block := some 33
  fails := fun r g s =>
    let b := r.params
    let w := u16 b 0
    let p := u16 b 2
    let kind := kindUnder (sdhSet s) (lineSet s)
    let others := mdel g.prots w
    let paired := fun e => others.any fun x => u16 x.2 0 == e || u16 x.2 2 == e
    fldFails b [rng 0 2 0 1007, rng 2 2 0 1007, rng 4 1 0 1, rng 5 1 0 4, rng 6 2 0 720, rng 8 2 0 100, rng 0xA 2 0 2000, rsv 0xC 4] ++
      badIf (w / 252 == p / 252 || kind w != kind p || kind w == 0 || paired p) 2 ++ badIf (paired w) 0 ++
      inUse (if tribNamed g p then some p else none) ++ failIf (decide (504 ≤ others.length)) .capacityExceeded 0
  run := fun r _ s => okWith (s.stage fun g => { g with prots := mset g.prots (u16 r.params 0) (slice r.params 0 16) })

/-- TDM.PROT_CMD (R497). -/
def cmdTdmProtCmd : Cmd where
  code := 0x0D06
  len := len1 4
  block := some 33
  fails := fun r _ s =>
    fldFails r.params [rng 0 2 0 1007, rng 2 1 0 5, rsv 3 1] ++ absentState (mhas s.gens.active.prots (u16 r.params 0))
  run := fun r _ s =>
    let w := u16 r.params 0
    let q := u8 r.params 2
    okWith (reselect w (s.modTdm fun t => { t with requests := if q = 0 then mdel t.requests w else mset t.requests w q }))

/-- Fields that TDM.DELETE and TDM.QUERY share; a transparent cross-connect joins a TRIB and a PDHPORT (R19, R494, R498). -/
def tdmObjectFlds (b : Bytes) : List Fld :=
  let kind := u8 b 0
  let open_ := kind == 0 && u8 b 1 == 2
  [rng 0 1 0 2, if kind = 0 then rng 1 1 0 2 else rsv 1 1, rsv 2 2,
    rng 4 2 0 (if kind = 1 then 255 else if kind = 2 || open_ then 1007 else 32767),
    if kind = 0 then rng 6 2 0 (if open_ then 15 else 32767) else rsv 6 2]

/-- The block of a TDM object (R498). -/
def tdmObject (g : Generation) (b : Bytes) : Option Bytes :=
  match u8 b 0 with
  | 0 => mget g.xcs (xcKey (u8 b 1) (u16 b 4) (u16 b 6))
  | 1 => mget g.bypasses (u16 b 4)
  | _ => mget g.prots (u16 b 4)

/-- TDM.DELETE (R498). -/
def cmdTdmDelete : Cmd where
  code := 0x0D07
  len := len1 8
  gmode := .modify
  block := some 33
  fails := fun r g _ =>
    let b := r.params
    fldFails b (tdmObjectFlds b) ++ absentBad (tdmObject g b).isSome (if u8 b 0 = 0 then 6 else 4)
  run := fun r _ s =>
    let b := r.params
    okWith (s.stage fun g => match u8 b 0 with
      | 0 => { g with xcs := mdel g.xcs (xcKey (u8 b 1) (u16 b 4) (u16 b 6)) }
      | 1 => { g with bypasses := mdel g.bypasses (u16 b 4) }
      | _ => { g with prots := mdel g.prots (u16 b 4) })

/-- TDM.QUERY (R498). -/
def cmdTdmQuery : Cmd where
  code := 0x0D08
  len := len1 8
  gmode := .read
  block := some 33
  fails := fun r g _ => fldFails r.params (tdmObjectFlds r.params) ++ absentState (tdmObject g r.params).isSome
  run := fun r g s => okWith s ((tdmObject g r.params).getD [])

/-- The line object that TDM.STATUS and TDM.COUNTERS name (R499). -/
def lineNamed (b : Bytes) : Nat :=
  match u8 b 0 with
  | 0 => sdhLine (u16 b 2)
  | 1 => u16 b 2
  | _ => pairLine (u16 b 2)

/-- Checks of the name. -/
def lineNameFails (b : Bytes) (s : State) : List Fail :=
  fldFails b [rng 0 1 0 2, rng 2 2 0 (match u8 b 0 with
    | 0 => 3
    | 1 => 1023
    | _ => 1007)] ++ absentState (u8 b 0 != 2 || mhas s.gens.active.prots (u16 b 2))

/-- TDM.STATUS (R499). -/
def cmdTdmStatus : Cmd where
  code := 0x0D09
  len := len1 4
  block := some 33
  fails := fun r _ s => fldFails r.params [rsv 1 1] ++ lineNameFails r.params s
  run := fun r _ s =>
    let b := r.params
    let n := u16 b 2
    let t := s.seen.tdm
    let map := mgetD t.defects (lineNamed b) 0
    let port := fun p => mgetD t.ports p {}
    okWith s (block 16 (match u8 b 0 with
      | 0 => [(0, 4, map), (4, 1, (port n).s1), (6, 2, ((port n).aus.getD 0 {}).offset)]
      | 1 => [(0, 4, map), (6, 2, if n < 1008 then (mgetD (port (n / 252)).tus (n % 252) {}).offset else 0)]
      | _ =>
        let p := mgetD t.pairs n {}
        [(0, 4, map), (5, 1, b2n p.protecting), (8, 4, 500 * (p.aligned.getD 0).natAbs)]))

/-- The counters of a line as TDM.COUNTERS reads them, and the second of their latch: the latched set, or while a snapshot is held the
counts at its boundary (R489). -/
def latchedCounts (s : State) (line : Nat) : Map Nat × Nat :=
  match s.snap with
  | some n => (mgetD n.rt.tdm.counts line [], n.boundary / tS)
  | none => (mgetD s.rt.tdm.latched line [], s.rt.tdm.second)

/-- Widths of the counters of a line by offset. -/
def counterWidth (line off : Nat) : Nat :=
  if line < 0x10000 then if 0x38 ≤ off then 2 else 4 else if line < 0x20000 ∧ 0x30 ≤ off then 2 else 4

/-- TDM.COUNTERS (R489, R499): a clear takes the totals read away once, from the totals and from the latched set; what a held snapshot
reports stays (R105). -/
def cmdTdmCounters : Cmd where
  code := 0x0D0A
  len := len1 4
  block := some 33
  fails := fun r _ s => fldFails r.params [rng 1 1 0 1] ++ lineNameFails r.params s
  run := fun r _ s =>
    let line := lineNamed r.params
    let c := latchedCounts s line
    let d := block 64 ((0, 8, c.2) :: c.1.map fun e => (e.1, counterWidth line e.1, e.2))
    let base := match s.snap with
      | some n => mgetD n.left.tdm.counts line []
      | none => c.1
    let clear := fun (rt : Runtime) => { rt with tdm := { rt.tdm with
      counts := mupd rt.tdm.counts line fun m => lessSeen m base
      latched := mupd rt.tdm.latched line fun m => lessSeen m base } }
    okWith (if u8 r.params 1 = 1 then
      { s with rt := clear s.rt, latch := clear s.latch, snap := s.snap.map fun n => { n with left := clear n.left } }
      else s) d

/-- TDM.CAS (R104, R487, R500). -/
def cmdTdmCas : Cmd where
  code := 0x0D0B
  len := len1 4
  block := some 33
  fails := fun r _ s =>
    let b := r.params
    let ts := u16 b 0
    let held : Bool := match driverOf s.gens.active ts with
      | .input _ => true
      | .group _ _ => true
      | _ => false
    fldFails b [rng 0 2 0 32767, rng 2 1 0 1, rng 3 1 0 15] ++
      failIf (u8 b 2 == 1 && (held || !signals s (ts / 32))) .wrongState 1
  run := fun r _ s =>
    let b := r.params
    let ts := u16 b 0
    let q := { s with rt := s.seen }
    let s' := if u8 b 2 = 1 then s.modTdm fun t => { t with written := mset t.written ts (u8 b 3) } else s
    okWith s' (le 1 (codeOf q ts) ++ le 1 (outCode q ts) ++ zeros 2)

def execTdmSdhSet (r : Request) (s : State) : Host.Outcome State Fault Refusal := execCmd cmdTdmSdhSet r s
def execTdmPdhSet (r : Request) (s : State) : Host.Outcome State Fault Refusal := execCmd cmdTdmPdhSet r s
def execTdmTribSet (r : Request) (s : State) : Host.Outcome State Fault Refusal := execCmd cmdTdmTribSet r s
def execTdmXcSet (r : Request) (s : State) : Host.Outcome State Fault Refusal := execCmd cmdTdmXcSet r s
def execTdmBypassSet (r : Request) (s : State) : Host.Outcome State Fault Refusal := execCmd cmdTdmBypassSet r s
def execTdmProtSet (r : Request) (s : State) : Host.Outcome State Fault Refusal := execCmd cmdTdmProtSet r s
def execTdmProtCmd (r : Request) (s : State) : Host.Outcome State Fault Refusal := execCmd cmdTdmProtCmd r s
def execTdmDelete (r : Request) (s : State) : Host.Outcome State Fault Refusal := execCmd cmdTdmDelete r s
def execTdmQuery (r : Request) (s : State) : Host.Outcome State Fault Refusal := execCmd cmdTdmQuery r s
def execTdmStatus (r : Request) (s : State) : Host.Outcome State Fault Refusal := execCmd cmdTdmStatus r s
def execTdmCounters (r : Request) (s : State) : Host.Outcome State Fault Refusal := execCmd cmdTdmCounters r s
def execTdmCas (r : Request) (s : State) : Host.Outcome State Fault Refusal := execCmd cmdTdmCas r s

end Sys2Proof.Machine
end

