-- ==== Sys2Proof/Machine/Zip.lean ====
section
/-! DEFINITION. The compression engine (R401 to R410). Decompression is DEFLATE as RFC 1951 and RFC 1950 define it; the octets that
compression chooses are open (log 8). -/

namespace Sys2Proof.Machine

/-! Inflation. A failure is 0 where input runs out, and otherwise an error code of R404. -/

/-- Bit i of a run of bytes, the least significant bit of each first. -/
def streamBit (b : Bytes) (i : Nat) : Except Nat Nat :=
  match b[i / 8]? with
  | some v => .ok (b2n (bit v.toNat (i % 8)))
  | none => .error 0

/-- A number of n bits, the first the least significant. -/
def streamBits (b : Bytes) (i : Nat) : Nat → Except Nat Nat
  | 0 => .ok 0
  | n + 1 =>
    match streamBit b i, streamBits b (i + 1) n with
    | .ok x, .ok y => .ok (x + 2 * y)
    | .error e, _ => .error e
    | _, .error e => .error e

/-- The symbols of a canonical code in the order of its codewords: those of each length 1 to 15, ascending. -/
def codeSymbols (lens : List Nat) : List (List Nat) :=
  (List.range 15).map fun k => (lens.zipIdx.filter fun e => e.1 == k + 1).map (·.2)

/-- Codewords left over at length 15 by a canonical code, none where it is over-subscribed. -/
def codeLeft (syms : List (List Nat)) : Option Nat :=
  syms.foldl (fun (a : Option Nat) l => match a with
    | some n => if l.length ≤ 2 * n then some (2 * n - l.length) else none
    | none => none) (some 1)

/-- The symbol at a bit, by the symbols of each length; a word of no symbol is an error. -/
def readSymbol (bad : Nat) (b : Bytes) : List (List Nat) → Nat → Nat → Nat → Except Nat (Nat × Nat)
  | [], _, _, _ => .error bad
  | l :: ls, i, code, first =>
    match streamBit b i with
    | .error e => .error e
    | .ok x =>
      let code := 2 * code + x
      let first := 2 * first
      if code - first < l.length ∧ first ≤ code then .ok (l.getD (code - first) 0, i + 1) else readSymbol bad b ls (i + 1) code (first + l.length)

/-- Base and extra bits of a length symbol 257 to 285. -/
def lengthCode (s : Nat) : Nat × Nat :=
  let k := s - 257
  if k < 8 then (3 + k, 0) else if s = 285 then (258, 0) else ((4 + k % 4) * 2 ^ (k / 4 - 1) + 3, k / 4 - 1)

/-- Base and extra bits of a distance symbol 0 to 29. -/
def distanceCode (s : Nat) : Nat × Nat := if s < 4 then (s + 1, 0) else ((2 + s % 2) * 2 ^ (s / 2 - 1) + 1, s / 2 - 1)

/-- A copy of n octets from a distance back in output held latest first. -/
def copyBack (d : Nat) : Nat → List Byte → List Byte
  | 0, out => out
  | n + 1, out => copyBack d n (out.getD (d - 1) 0 :: out)

/-- The literals and copies of a block: what has been put out, latest first, and the end of the block or why it stopped. -/
def inflateCodes (b : Bytes) (lit dist : List (List Nat)) : Nat → Nat → List Byte → List Byte × Except Nat Nat
  | 0, _, out => (out, .error 0)
  | k + 1, i, out =>
    match readSymbol 2 b lit i 0 0 with
    | .error e => (out, .error e)
    | .ok (s, i) =>
      if s < 256 then inflateCodes b lit dist k i (BitVec.ofNat 8 s :: out)
      else if s = 256 then (out, .ok i)
      else if 285 < s then (out, .error 2)
      else
        let l := lengthCode s
        match streamBits b i l.2 with
        | .error e => (out, .error e)
        | .ok x =>
          match readSymbol 3 b dist (i + l.2) 0 0 with
          | .error e => (out, .error e)
          | .ok (t, i) =>
            if 29 < t then (out, .error 3)
            else
              let d := distanceCode t
              match streamBits b i d.2 with
              | .error e => (out, .error e)
              | .ok y =>
                if out.length < d.1 + y then (out, .error 3)
                else inflateCodes b lit dist k (i + d.2) (copyBack (d.1 + y) (l.1 + x) out)

/-- The code lengths of a dynamic block, read with the code of code lengths. -/
def codeLengths (b : Bytes) (code : List (List Nat)) (total : Nat) : Nat → Nat → List Nat → Except Nat (List Nat × Nat)
  | 0, _, _ => .error 2
  | k + 1, i, acc =>
    if acc.length = total then .ok (acc, i)
    else match readSymbol 2 b code i 0 0 with
      | .error e => .error e
      | .ok (s, i) =>
        if s < 16 then codeLengths b code total k i (acc ++ [s])
        else
          let x := if s = 16 then (2, 3) else if s = 17 then (3, 3) else (7, 11)
          match streamBits b i x.1 with
          | .error e => .error e
          | .ok r =>
            if (s = 16 ∧ acc.isEmpty) ∨ total < acc.length + x.2 + r then .error 2
            else codeLengths b code total k (i + x.1) (acc ++ List.replicate (x.2 + r) (if s = 16 then acc.getLastD 0 else 0))

/-- Whether a code may be used: complete, or a single distance codeword. -/
def codeOk (one : Bool) (syms : List (List Nat)) : Bool :=
  match codeLeft syms with
  | none => false
  | some n => n == 0 || (one && decide ((syms.map (·.length)).foldl (· + ·) 0 ≤ 1))

/-- The codes of a dynamic block, and where its data begins. -/
def dynamicCodes (b : Bytes) (i : Nat) : Except Nat (List (List Nat) × List (List Nat) × Nat) := do
  let nlit := (← streamBits b i 5) + 257
  let ndist := (← streamBits b (i + 5) 5) + 1
  let ncode := (← streamBits b (i + 10) 4) + 4
  if 286 < nlit ∨ 30 < ndist then .error 2
  let raw ← (List.range ncode).mapM fun k => streamBits b (i + 14 + 3 * k) 3
  let order := [16, 17, 18, 0, 8, 7, 9, 6, 10, 5, 11, 4, 12, 3, 13, 2, 14, 1, 15]
  let lens := (List.range 19).map fun s => raw.getD ((order.zipIdx.find? fun e => e.1 == s).getD (0, 0)).2 0
  let code := codeSymbols lens
  if !codeOk false code then .error 2
  let r ← codeLengths b code (nlit + ndist) 400 (i + 14 + 3 * ncode) []
  let lit := codeSymbols (r.1.take nlit)
  let dist := codeSymbols (r.1.drop nlit)
  if !codeOk true lit || !codeOk true dist || r.1.getD 256 0 == 0 then .error 2
  return (lit, dist, r.2)

/-- The blocks of a stream from a bit: what has been put out, latest first, and the bit after the last block or why it stopped. -/
def inflateBlocks (b : Bytes) : Nat → Nat → List Byte → List Byte × Except Nat Nat
  | 0, _, out => (out, .error 0)
  | k + 1, i, out =>
    match streamBits b i 1, streamBits b (i + 1) 2 with
    | .ok last, .ok type =>
      let r : List Byte × Except Nat Nat :=
        match type with
        | 0 =>
          let p := ceilDiv (i + 3) 8
          if b.length < p + 4 then (out, .error 0)
          else if u16 b p + u16 b (p + 2) ≠ 65535 then (out, .error 4)
          else
            let data := (b.drop (p + 4)).take (u16 b p)
            (data.reverse ++ out, if data.length < u16 b p then .error 0 else .ok (8 * (p + 4 + u16 b p)))
        | 1 =>
          let lit := List.replicate 144 8 ++ List.replicate 112 9 ++ List.replicate 24 7 ++ List.replicate 8 8
          inflateCodes b (codeSymbols lit) (codeSymbols (List.replicate 30 5)) (8 * b.length + 1) (i + 3) out
        | 2 =>
          match dynamicCodes b (i + 3) with
          | .error e => (out, .error e)
          | .ok (lit, dist, i) => inflateCodes b lit dist (8 * b.length + 1) i out
        | _ => (out, .error 1)
      match r.2 with
      | .ok i => if last = 1 then r else inflateBlocks b k i r.1
      | .error _ => r
    | .error e, _ => (out, .error e)
    | _, .error e => (out, .error e)

/-- Adler-32 (RFC 1950). -/
def adler32 (l : Bytes) : Nat :=
  let r := l.foldl (fun (a : Nat × Nat) v => let x := (a.1 + v.toNat) % 65521; (x, (a.2 + x) % 65521)) (1, 0)
  r.2 * 65536 + r.1

/-- A whole stream: its output in order, and the octets it takes, or why it stopped (R403 to R405). -/
def inflate (wrapper : Nat) (b : Bytes) : Bytes × Except Nat Nat :=
  if wrapper = 0 then
    let r := inflateBlocks b (8 * b.length + 1) 0 []
    (r.1.reverse, r.2.map fun i => ceilDiv i 8)
  else if b.length < 2 then ([], .error 0)
  else if u8 b 0 % 16 ≠ 8 ∨ 7 < u8 b 0 / 16 ∨ (256 * u8 b 0 + u8 b 1) % 31 ≠ 0 then ([], .error 5)
  else if bit (u8 b 1) 5 then ([], .error 7)
  else
    let r := inflateBlocks (b.drop 2) (8 * b.length + 1) 0 []
    let out := r.1.reverse
    match r.2 with
    | .error e => (out, .error e)
    | .ok i =>
      let p := 2 + ceilDiv i 8
      if b.length < p + 4 then (out, .error 0)
      else if beNat (slice b p 4) ≠ adler32 out then (out, .error 6)
      else (out, .ok (p + 4))

/-! Coded streams (R402, R403). -/

/-- FLEVEL of a level (R402). -/
def flevel (level : Nat) : Nat := if level ≤ 1 then 0 else if level ≤ 5 then 1 else if level = 6 then 2 else 3

/-- The second octet of a zlib header: FLEVEL, no dictionary, and the check bits. -/
def zlibFlags (level : Nat) : Nat :=
  let f := flevel level * 64
  f + (31 - (0x78 * 256 + f) % 31) % 31

/-- Whether a stream is coded as stepping A1 coded it: levels 8 and 9 of behaviour level 2 (R663). -/
def codesAsA1 (behaviour : Nat) (jobs : List (Nat × Nat × Bytes)) : Bool := behaviour == 2 && jobs.any fun j => decide (8 ≤ j.1)

/-- The hash chain length of a level at a behaviour level (R402, R663). -/
def chainLength (behaviour level : Nat) : Nat :=
  match level with
  | 8 => if behaviour = 2 then 512 else 1024
  | 9 => if behaviour = 2 then 1024 else 4096
  | n => 2 ^ (n + 1)

/-- The coded octets of a stream, with its wrapper (R401 to R403). -/
def codedStream (behaviour wrapper : Nat) (jobs : List (Nat × Nat × Bytes)) : Bytes :=
  let body := Config.deflate (codesAsA1 behaviour jobs)
    (jobs.map fun j => (chainLength behaviour j.1, decide (4 ≤ j.1), j.2.1, j.2.2))
  if wrapper = 0 then body
  else
    let finish : Bool := match jobs.getLast? with
      | some j => j.2.1 == 2
      | none => false
    [0x78, BitVec.ofNat 8 (zlibFlags ((jobs.head?.map (·.1)).getD 1))] ++ body ++
      if finish then be 4 (adler32 (jobs.flatMap fun j => j.2.2)) else []

/-! Contexts. -/

def State.zipCtx (s : State) (c : Nat) : ZipCtx := mgetD s.rt.zip c {}
/-- Whether Clover dispatches to the compression engine (R79, R591). -/
def State.zipOpen (s : State) : Bool := !s.senak.stopped.contains 32 && !mhas s.senak.quiesce 32 && !s.boot.inReset.getLsbD 32

def modZip (c : Nat) (f : ZipCtx → ZipCtx) (s : State) : State := s.modRt fun r => { r with zip := mmod r.zip c {} f }

/-- The parameters of a job: direction, level, wrapper, flush. -/
def ZipCtx.compresses (z : ZipCtx) : Bool := u8 z.job 1 == 0

/-- A job's run over what it has: its new output, its result and error, and its input consumed where the result fixes it (R404, R405). -/
def ZipCtx.run (behaviour : Nat) (z : ZipCtx) : Bytes × Nat × Nat × Option Nat :=
  if z.compresses then
    let out := (codedStream behaviour (u8 z.job 3) z.jobs).drop z.sent
    if z.outLen < out.length then (out.take z.outLen, 1, 0, none) else (out, 0, 0, some z.input.length)
  else
    let all := z.jobs.flatMap fun j => j.2.2
    let r := inflate (u8 z.job 3) all
    let out := r.1.drop z.sent
    if z.outLen < out.length then (out.take z.outLen, 1, 0, none)
    else match r.2 with
      | .ok n => (out, 2, 0, some (n - z.before))
      | .error 0 => (out, 0, 0, some z.input.length)
      | .error e => (out, 3, e, none)

/-- The uncompressed octets of a stream up to what a job has consumed and put out. -/
def ZipCtx.plainOf (z : ZipCtx) (consumed : Nat) (out : Bytes) : Bytes :=
  let all := z.jobs.flatMap fun j => j.2.2
  if z.compresses then all.take (z.before + consumed) else (inflate (u8 z.job 3) all).1.take (z.sent + out.length)

/-- What the end of a job leaves: its output, its result block, and its context (R404 to R406, R410). Input that changed under the job
leaves its output open (R407; log 46), and where it stops with its output full or in error the input consumed is open within what it
had (log 50). -/
def zipOutcome (behaviour : Nat) (fault : Bool) (open_ : Nat) (now : Bytes) (z : ZipCtx) : Bytes × Bytes × ZipCtx :=
  let input := if now = z.input then now else (List.range z.input.length).map (Config.loadedOctet open_)
  let z := { z with input := input, jobs := z.jobs.dropLast ++ [(u8 z.job 2, u8 z.job 4, input)] }
  let r := if fault then ([], 4, 0, none) else z.run behaviour
  let consumed := match r.2.2.2 with
    | some n => n
    | none => z.consumed + open_ % (input.length - z.consumed + 1)
  let plain := z.plainOf consumed r.1
  let produced := z.produced + r.1.length
  let block := block 32 [(0, 1, r.2.1), (1, 1, r.2.2.1), (4, 4, consumed), (8, 4, produced), (0xC, 4, adler32 plain),
    (0x10, 4, crc32 (plain.map (·.toNat))), (0x18, 8, plain.length)]
  let next : ZipState := match r.2.1 with
    | 0 => if z.compresses && u8 z.job 4 == 2 then .idle else .opened
    | 1 => .full
    | 2 => .idle
    | _ => .error
  let past := r.2.1 == 0
  (r.1, block, { z with
    state := next, sent := z.sent + r.1.length, consumed := consumed, produced := produced, result := block
    before := if past then z.before + input.length else z.before })

/-- A job ends: its output and its result block are in DRAM, and its command completes. -/
def endZipJob (c : Nat) (fault : Bool) (z : ZipCtx) (p : PendingCmd) (s : State) : State :=
  let d := s.draw
  let x := zipOutcome s.level fault d.1 (memRead s.rt.dram.mem (u64 z.job 8) z.input.length) z
  let s := (d.2.dramWrite z.outOff x.1).dramWrite (u64 z.job 0x20) x.2.1
  ((modZip c (fun _ => x.2.2) s).postIf fault 0x0BC0 3 c 0).endPending p .ok 0

/-- ZIP_JOB_END (R404): the job of a running context ends; one that Clover has not dispatched does not (R79). -/
def execZipJobEnd (t : Time) (c : Fin 64) (fault : Bool) (s : State) : Host.Outcome State Fault Refusal :=
  let s := s.advance t
  let c := c.val
  let z := s.zipCtx c
  match if z.state = .running ∧ (z.waiting = false ∨ s.zipOpen) then s.senak.pending.find? fun p => (p.code == 0x0B40 || p.code == 0x0B41) && p.obj == c else none with
  | none => done s
  | some p =>
    done (endZipJob c fault z p s)

/-! Commands (R407 to R409). -/

/-- Whether two runs of bytes overlap. -/
def overlaps (a n b m : Nat) : Bool := decide (0 < n) && decide (0 < m) && decide (a < b + m) && decide (b < a + n)

/-- ZIP.START (R406 to R408). -/
def cmdZipStart : Cmd where
  code := 0x0B40
  len := len1 48
  block := some 32
  fails := fun r _ s =>
    let b := r.params
    let z := s.zipCtx (u8 b 0)
    let comp := u8 b 1 == 0
    let inp := u64 b 8; let n := u32 b 0x10; let out := u64 b 0x18; let m := u32 b 0x14; let res := u64 b 0x20
    let joins := z.state == .opened && !bit (u8 b 5) 0
    fldFails b [rng 0 1 0 63, rng 1 1 0 1, rng 2 1 (if comp then 1 else 0) (if comp then 9 else 0), rng 3 1 0 1,
      rng 4 1 0 (if comp then 2 else 0), msk 5 1 1, rsv 6 2, rng 0x10 4 0 16777216, rng 0x14 4 64 16777216,
      (0x20, 8, fun v => v % 32 == 0), rsv 0x28 8] ++
    badIf (!inHwin s.rt.dram inp n) 0x10 ++ badIf (!inHwin s.rt.dram out m || overlaps inp n out m) 0x18 ++
    badIf (!inHwin s.rt.dram res 32 || overlaps inp n res 32 || overlaps out m res 32) 0x20 ++
    badIf (joins && u8 b 1 != u8 z.job 1) 1 ++ badIf (joins && u8 b 3 != u8 z.job 3) 3 ++
    failIf (z.state == .running) .objectInUse (u8 b 0) ++
    failIf (z.state == .full || (z.state == .error && !bit (u8 b 5) 0)) .wrongState 2
  run := fun r _ s =>
    let b := slice r.params 0 48
    let c := u8 b 0
    let z := s.zipCtx c
    let fresh := z.state != .opened || bit (u8 b 5) 0
    let input := memRead s.rt.dram.mem (u64 b 8) (u32 b 0x10)
    let z := if fresh then { result := z.result : ZipCtx } else z
    let s := modZip c (fun _ => { z with
      state := .running, waiting := !s.zipOpen, job := b, outLen := u32 b 0x14, outOff := u64 b 0x18, input := input
      jobs := z.jobs ++ [(u8 b 2, u8 b 4, input)], consumed := 0, produced := 0 }) s
    { status := .pending, st := s.addPending 0x0B40 c r }

/-- ZIP.RESUME (R405, R406, R409). -/
def cmdZipResume : Cmd where
  code := 0x0B41
  len := len1 16
  block := some 32
  fails := fun r _ s =>
    let b := r.params
    let z := s.zipCtx (u8 b 0)
    let out := u64 b 8; let m := u32 b 4
    fldFails b [rng 0 1 0 63, rsv 1 3, rng 4 4 64 16777216] ++
    badIf (!inHwin s.rt.dram out m || overlaps (u64 z.job 8) z.input.length out m || overlaps (u64 z.job 0x20) 32 out m) 8 ++
    failIf (z.state != .full) .wrongState 2
  run := fun r _ s =>
    let b := r.params
    let s := modZip (u8 b 0) (fun z => { z with state := .running, waiting := !s.zipOpen, outLen := u32 b 4, outOff := u64 b 8 }) s
    { status := .pending, st := s.addPending 0x0B41 (u8 b 0) r }

/-- ZIP.RESET (R406, R409). -/
def cmdZipReset : Cmd where
  code := 0x0B42
  len := len1 4
  block := some 32
  fails := fun r _ s =>
    fldFails r.params [rng 0 1 0 63, rsv 1 3] ++ failIf ((s.zipCtx (u8 r.params 0)).state == .running) .objectInUse (u8 r.params 0)
  run := fun r _ s => okWith (modZip (u8 r.params 0) (fun z => { result := z.result }) s)

/-- The code of a context's state (R409). -/
def ZipState.code : ZipState → Nat
  | .idle => 0
  | .opened => 1
  | .running => 2
  | .full => 3
  | .error => 4

/-- ZIP.QUERY (R104, R409). -/
def cmdZipQuery : Cmd where
  code := 0x0B43
  len := len1 4
  block := some 32
  fails := fun r _ _ => fldFails r.params [rng 0 1 0 63, rsv 1 3]
  run := fun r _ s =>
    let z := mgetD s.seen.zip (u8 r.params 0) {}
    okWith s (le 1 z.state.code ++ zeros 3 ++ slice z.result 0 32)

def execZipStart (r : Request) (s : State) : Host.Outcome State Fault Refusal := execCmd cmdZipStart r s
def execZipResume (r : Request) (s : State) : Host.Outcome State Fault Refusal := execCmd cmdZipResume r s
def execZipReset (r : Request) (s : State) : Host.Outcome State Fault Refusal := execCmd cmdZipReset r s
def execZipQuery (r : Request) (s : State) : Host.Outcome State Fault Refusal := execCmd cmdZipQuery r s

end Sys2Proof.Machine
end

