-- ==== Sys2Proof/Machine/Doorbell.lean ====
section
/-! DEFINITION. The table of Senak commands, and the taking of a doorbell (R1, R52, R56, R62, R63, R598, R662). -/

namespace Sys2Proof.Machine

/-! The commands by group. -/

/-- SYS. -/
def sysCommands : List Cmd :=
  [cmdSysNop, cmdSysInfo, cmdSysReset, cmdSysQuiesce, cmdSysEventMask, cmdSysStats]

/-- GEN. -/
def genCommands : List Cmd :=
  [cmdGenStatus, cmdGenCommit, cmdGenRollback, cmdGenDiscard, cmdGenCancel, cmdGenSnapshot]

/-- SCHED. -/
def schedCommands : List Cmd :=
  [cmdSchedStatus, cmdSchedStats, cmdSchedFlow]

/-- FAULT. -/
def faultCommands : List Cmd :=
  [cmdFaultStatus, cmdFaultStats, cmdFaultInject]

/-- LEG. -/
def legCommands : List Cmd :=
  [cmdLegSet, cmdLegDelete, cmdLegQuery, cmdLegStats, cmdLegDetector, cmdLegTonePlay, cmdLegToneStop]

/-- CONF and ROUTE. -/
def confCommands : List Cmd :=
  [cmdConfSet, cmdConfDelete, cmdConfQuery, cmdConfMember, cmdConfRemove, cmdConfMembers,
    cmdConfStatus, cmdRouteSet, cmdRouteDelete, cmdRouteList, cmdRouteSapSet, cmdRouteSapQuery]

/-- VID. -/
def vidCommands : List Cmd :=
  [cmdVidSet, cmdVidDelete, cmdVidQuery, cmdVidStats, cmdVidKeyframe, cmdVidParamsets, cmdVidGrab]

/-- LAYOUT and OUT. -/
def layoutCommands : List Cmd :=
  [cmdLayoutSet, cmdLayoutLayer, cmdLayoutImage, cmdLayoutScaler, cmdLayoutGamma, cmdLayoutDelete,
    cmdLayoutQuery, cmdOutSet, cmdOutRegion, cmdOutDelete, cmdOutQuery, cmdOutStats, cmdOutSignatures]

/-- FWD. -/
def fwdCommands : List Cmd :=
  [cmdFwdRelaySet, cmdFwdSubSet, cmdFwdLineSet, cmdFwdPolicerSet, cmdFwdQueueSet,
    cmdFwdColourMap, cmdFwdDelete, cmdFwdQuery, cmdFwdSubStats, cmdFwdPortStats]

/-- KEY. -/
def keyCommands : List Cmd :=
  [cmdKeyStatus, cmdKeyInstall, cmdKeyErase, cmdKeyQuery, cmdKeyBind, cmdKeyDerive, cmdKeyCrypt, cmdKeyQueues, cmdKeyStats]

/-- REC and ZIP. -/
def recCommands : List Cmd :=
  [cmdRecConfig, cmdRecSelect, cmdRecQuery, cmdRecStatus, cmdRecRead, cmdRecRelease,
    cmdRecVerify, cmdRecMark, cmdRecClear, cmdZipStart, cmdZipResume, cmdZipReset, cmdZipQuery]

/-- DSP. -/
def dspCommands : List Cmd :=
  [cmdDspPartition, cmdDspLoad, cmdDspQuery, cmdDspStatus]

/-- TDM. -/
def tdmCommands : List Cmd :=
  [cmdTdmSdhSet, cmdTdmPdhSet, cmdTdmTribSet, cmdTdmXcSet, cmdTdmBypassSet, cmdTdmProtSet,
    cmdTdmProtCmd, cmdTdmDelete, cmdTdmQuery, cmdTdmStatus, cmdTdmCounters, cmdTdmCas]

/-- NET. -/
def netCommands : List Cmd :=
  [cmdNetPortSet, cmdNetPairSet, cmdNetClassSet, cmdNetQuery, cmdNetTsRead, cmdNetSynceSet, cmdNetStats]

/-- TIME. -/
def timeCommands : List Cmd :=
  [cmdTimeStatus, cmdTimeSet, cmdTimeAdjust, cmdTimeServoSet, cmdTimePtpSet, cmdTimePinsSet, cmdTimeLaunchSet, cmdTimeStats]

/-- HSP. -/
def hspCommands : List Cmd :=
  [cmdHspSet, cmdHspQuery, cmdHspStats]

/-- MEM. -/
def memCommands : List Cmd :=
  [cmdMemStatus, cmdMemMap, cmdMemRegions, cmdMemScrub, cmdMemErrors, cmdMemInject]

/-- PWR. -/
def pwrCommands : List Cmd :=
  [cmdPwrStatus, cmdPwrSet, cmdPwrQuery, cmdPwrState, cmdPwrThermalSet]

/-- BOOT. -/
def bootCommands : List Cmd :=
  [cmdBootStatus, cmdBootPcieSet, cmdBootBlockReset]

/-- TEST. -/
def testCommands : List Cmd :=
  [cmdTestRun, cmdTestReport, cmdTestHealth, cmdTestHealthClear]

/-- MGMT. -/
def mgmtCommands : List Cmd :=
  [cmdMgmtStatus, cmdMgmtSensors, cmdMgmtLogRead, cmdMgmtConfig, cmdMgmtFwWrite,
    cmdMgmtFwActivate, cmdMgmtFwConfirm, cmdMgmtLifecycle, cmdMgmtOtpWrite, cmdMgmtBehaviour]

/-- Every command. -/
def allCommands : List Cmd :=
  sysCommands ++ genCommands ++ schedCommands ++ faultCommands ++ legCommands ++ confCommands ++ vidCommands ++ layoutCommands ++ fwdCommands ++ keyCommands ++ recCommands ++ dspCommands ++ tdmCommands ++ netCommands ++ timeCommands ++ hspCommands ++ memCommands ++ pwrCommands ++ bootCommands ++ testCommands ++ mgmtCommands

/-- The command that answers an undefined code (R62). -/
def cmdUndefined (code : Nat) : Cmd where
  code := code
  len := fun _ _ => none
  safe := true
  fails := fun _ _ _ => [(.unknownCommand, 0)]
  run := fun _ _ s => okWith s

/-- The command of a code. -/
def commandOf (code : Nat) : Cmd := (allCommands.find? fun c => c.code == code).getD (cmdUndefined code)

/-- The code in a slot (R52). -/
def slotCode (m : Mem) (n : Nat) : Nat := uN (memRead m (n * 1024 + 2) 2) 0 2

/-- The request that a slot holds (R52). -/
def slotRequest (m : Mem) (n : Fin 64) (t : Time) : Request :=
  let b := memRead m (n.val * 1024) 1024
  { at_ := t, slot := n, rsv0 := b.getD 0 0, flags := b.getD 1 0, hostSeq := BitVec.ofNat 32 (u32 b 4), gen := BitVec.ofNat 32 (u32 b 8)
    len := BitVec.ofNat 32 (u32 b 0xC), rsv := slice b 0x10 16, params := slice b 0x20 (Nat.min 992 (u32 b 0xC)) }

/-- Whether a command needs a switched domain: the media and interface groups, block reset and self-test (R598). -/
def wakesSleep (code : Nat) : Bool :=
  (5 ≤ code / 256 && code / 256 ≤ 0xE) || code / 256 == 0x10 || code == 0x1302 || code == 0x1400

/-- A command runs as its own row says. -/
def runCode (code : Nat) (r : Request) (s : State) : State :=
  match (if code = 0x0102 then execSysReset r s else if code = 0x1203 then execPwrState r s else execCmd (commandOf code) r s :
      Host.Outcome State Fault Refusal) with
  | .next t => t
  | _ => s

/-- A command taken from its doorbell runs, and its latency counts from the doorbell's arrival, in whole µs rounded up (R63, R81; log
163). -/
def runTaken (code : Nat) (r : Request) (arrived : Time) (s : State) : State :=
  let us := ceilDiv (s.up - arrived) tUs
  (runCode code r s).modSenak fun h => { h with stats := bumpMax h.stats 0xC us }

/-- The preparation of a commit or rollback ends, and the command answers (R90). -/
def endPreparation (t : Time) (p : Preparing) (s : State) : State :=
  runTaken p.code { p.request with at_ := t } p.arrived (s.modSenak fun h => { h with preparing := none })

/-- The doorbell at the head of the queue is taken and its slot copied; the command executes, but that of a commit or rollback begins its
preparation, which holds the queue until the next taking ends it. None is taken while a power-down waits (R56, R63, R81, R90, R598; log
118). -/
def takeDoorbell (t : Time) (s : State) : State :=
  let s := s.advance t
  match s.senak.preparing with
  | some p => if s.senak.ready then endPreparation t p s else s
  | none =>
    match s.senak.doorbells with
    | [] => s
    | d :: l =>
      if s.senak.ready && s.rt.power.request.isNone && s.rt.power.state < 3 then
        let code := slotCode s.senak.slots d.slot
        let r := slotRequest s.senak.slots (Fin.ofNat 64 d.slot) t
        let s := s.modSenak fun h => { h with doorbells := l }
        if code = 0x0201 ∨ code = 0x0202 then s.modSenak fun h => { h with preparing := some ⟨code, r, d.arrived⟩ }
        else runTaken code r d.arrived (if wakesSleep code then wakeIfAsleep s else s)
      else s

def execDoorbellTake (t : Time) (s : State) : Host.Outcome State Fault Refusal := done (takeDoorbell t s)

end Sys2Proof.Machine
end

