-- ==== Sys2Proof/Machine/Issue.lean ====
section
/-! DEFINITION. How a Yarrow core issues an instruction: the pipeline's hazards, moves, branches and repetition (R420 to R424, R426, R448
to R450, R454 to R456, R464). -/

namespace Sys2Proof.Machine

/-- What an instruction does. -/
structure Eff where
  /-- Register writes in the order of R450. -/
  writes : List RegWrite := []
  /-- Pointers after their stage A updates. -/
  ptrs : List (Option (Nat × Word24)) := []
  /-- Stores: whether to Y space, address, word. -/
  stores : List (Bool × Nat × Word24) := []
  /-- Accumulators accumulated into. -/
  forward : List (Nat × Acc) := []
  /-- LC after its decrement in stage D (R455). -/
  lc : Option (BitVec 13) := none
  /-- A branch, with its target if taken. -/
  branch : Option (Option Nat) := none
  /-- A repetition count. -/
  rep : Option Nat := none
  /-- Cycles over the first. -/
  extra : Nat := 0
  deriving DecidableEq, Repr

/-- The registers with every write of earlier instructions landed, as an interlocked read sees them (R421). -/
def Env.settled (e : Env) : Regs := landAll e.c.late e.r

/-! Moves (R447 to R449). -/

/-- An X or whole accumulator register of a single move, by its code (R447). -/
def moveReg (e : Env) (code : Nat) : Word24 × Nat := e.r.read24 code

/-- Cycles that an access to an address costs (R417, R456). -/
def accessCost (y : Bool) (a : Nat) : Nat := if spaceOf y a = some 2 then 4 else 0

/-- A move: the words it loads, and its effect; none where it is illegal or faults (R415, R424, R448). -/
def Env.move (e : Env) (slot : Nat) (m : Move) : Option (List Word24 × Eff) :=
  let aim := m.aim e.c.regs
  let a := aim.1
  let mode := setBits (if aim.2.2 then swAMODE else 0)
  let base : Eff := { ptrs := [aim.2.1], extra := accessCost m.y a }
  if m.pair && a % 2 == 1 then none
  else if m.store then
    if e.storable m.y a then
      if m.pair then
        some ([], { base with writes := mode, stores := [(m.y, a, e.r.x.getD m.reg 0), (m.y, a + 1, e.r.x.getD m.second 0)] })
      else
        let v := moveReg e m.reg
        some ([], { base with writes := mode ++ setBits v.2, stores := [(m.y, a, v.1)] })
    else none
  else
    match e.load slot m.y a, if m.pair then e.load (slot + 1) m.y (a + 1) else some 0 with
    | some v, some w =>
      let ws : List RegWrite := if m.pair then [.x m.reg v, .x m.second w] else [writeReg m.reg v]
      some ([v, w], { base with writes := mode ++ ws })
    | _, _ => none

/-- Whether move B waits for move A: one bank, outside one even-aligned pair (R448). -/
def movesWait (e : Env) (x y : Move) : Bool :=
  let a := (x.aim e.c.regs).1
  let b := (y.aim e.c.regs).1
  x.y == y.y && spaceOf x.y a == some 0 && spaceOf y.y b == some 0 && a / 2 != b / 2

/-- Both move fields of a parallel word: the words that each loads, and their effect. -/
def Env.moves (e : Env) (w : Nat) : Option (List Word24 × List Word24 × Eff) :=
  match moveOf (bits w 27 14), moveOf (bits w 13 0) with
  | some x, some y =>
    match match x with
        | some m => e.move 0 m
        | none => some ([], {}),
      match y with
        | some m => e.move 2 m
        | none => some ([], {}) with
    | some u, some v =>
      let wait := match x, y with
        | some m, some n => movesWait e m n
        | _, _ => false
      some (u.1, v.1, { writes := u.2.writes ++ v.2.writes, ptrs := u.2.ptrs ++ v.2.ptrs, stores := u.2.stores ++ v.2.stores
                        extra := u.2.extra + v.2.extra + b2n wait })
    | _, _ => none
  | _, _ => none

/-! Operations. -/

/-- An operation of a parallel word: what it adds to the effect of the moves. -/
structure Alu where
  writes : List RegWrite := []
  forward : List (Nat × Acc) := []
  deriving DecidableEq, Repr

/-- A parallel word: operand bits outside a mask are reserved, and its moves are made beside its operation (R442, R451, R452). -/
def parallel (mask : Nat) (f : Env → Nat → Option Alu) (w : BitVec 41) (e : Env) : Option Eff :=
  let v := w.toNat
  if bits v 40 28 &&& mask != bits v 40 28 then none
  else match e.moves v, f e v with
    | some m, some a => some { m.2.2 with writes := m.2.2.writes ++ a.writes, forward := a.forward }
    | _, _ => none

/-- A parallel word whose operation takes the two words that its moves load; neither goes to a register (R452, R460). -/
def parallelFetch (mask : Nat) (f : Env → Nat → Word24 → Word24 → Alu) (w : BitVec 41) (e : Env) : Option Eff :=
  let v := w.toNat
  let fetches := fun (m : Nat) => match moveOf m with
    | some (some m) => m.kind == 1 && !m.store && m.reg == 0
    | _ => false
  if bits v 40 28 &&& mask != bits v 40 28 || !fetches (bits v 27 14) || !fetches (bits v 13 0) then none
  else match e.moves v with
    | some (c, d, m) =>
      let a := f e v (c.getD 0 0) (d.getD 0 0)
      let kept := m.writes.filter fun w => match w with
        | .x _ _ => false
        | _ => true
      some { m with writes := kept ++ a.writes, forward := a.forward }
    | none => none

/-! Subfields of R451. -/

def fD (w : Nat) : Nat := bits w 40 39
def fS (w : Nat) : Nat := bits w 38 37
def fA (w : Nat) : Nat := bits w 38 36
def fB (w : Nat) : Nat := bits w 35 33
def fF (w : Nat) : Bool := bit w 28

/-- Masks of the subfields among operand bits [40:28]. -/
def mD : Nat := 0x1800
def mS : Nat := 0x600
def mA : Nat := 0x700
def mB : Nat := 0xE0
def mSh : Nat := 0x7F0
def mK5 : Nat := 0xF8
def mK6 : Nat := 0xFC
def mStart : Nat := 2
def mF : Nat := 1

/-- An X register as E1 reads it. -/
def Env.x (e : Env) (i : Nat) : Word24 := e.r.x.getD i 0

/-- An accumulator as E1 reads it. -/
def Env.acc (e : Env) (i : Nat) : Acc := e.r.acc.getD i 0

/-- An accumulator as an accumulation takes it, forwarded from the instruction before (R421). -/
def Env.accIn (e : Env) (i : Nat) : Acc :=
  match e.c.forward.find? fun f => f.1 == i with
  | some f => f.2
  | none => e.acc i

/-- Lanes write their sums; one that wraps sets SW.OVF (R413, R459). -/
def lanes (l : List (Nat × Int)) : Alu :=
  let r := l.map fun x => (x.1, accSum x.2)
  { writes := setBits (bitIf (r.any fun x => x.2.2) swOVF) ++ r.map fun x => .acc x.1 x.2.1
    forward := r.map fun x => (x.1, x.2.1) }

/-- The writes of a result in an accumulator with its flags, C among them. -/
def accResult (d : Nat) (r : Acc × Nat) : Alu := { writes := [.acc d r.1, setFlags (swZ + swN + swV + swC) r.2] }

/-- The writes of a result in an X register with its flags, C among them. -/
def xResult (a : Nat) (r : Word24 × Nat) : Alu := { writes := [.x a r.1, setFlags (swZ + swN + swV + swC) r.2] }

/-! General words (R442, R453). -/

/-- Operand bits outside a mask are reserved. -/
def general (mask : Nat) (f : Env → Nat → Option Eff) (w : BitVec 40) (e : Env) : Option Eff :=
  if w.toNat &&& mask != w.toNat then none else f e w.toNat

/-- A long form: the second word holds a 24-bit constant (R443). -/
def longForm (mask : Nat) (f : Env → Nat → Nat → Option Eff) (w : BitVec 40) (w2 : BitVec 48) (e : Env) : Option Eff :=
  if w.toNat &&& mask != w.toNat || decide (2 ^ 24 ≤ w2.toNat) then none
  else (f e w.toNat w2.toNat).map fun x => { x with extra := x.extra + 1 }

/-- Register code fields. -/
def fR (w : Nat) : Nat := bits w 39 34
def mR : Nat := 0x3F * 2 ^ 34

/-- A load into a register by its code. -/
def loadTo (y : Bool) (rd a : Nat) (e : Env) : Option Eff :=
  if 50 < rd then none
  else (e.load 0 y a).map fun v => { writes := [writeReg rd v], extra := accessCost y a }

/-- A store of a register by its code (R449). -/
def storeFrom (y : Bool) (rs a : Nat) (e : Env) : Option Eff :=
  if 50 < rs ∨ e.storable y a = false then none
  else
    let v := e.r.read24 rs
    some { writes := setBits v.2, stores := [(y, a, v.1)], extra := accessCost y a }

/-- The address (Pn + Nn), computed linearly in stage A (R426). -/
def indexed (n : Nat) (e : Env) : Nat := (e.c.regs.p.getD n 0 + e.c.regs.n.getD n 0).toNat

/-- Cycles until what one of the three instructions before wrote has landed (R421). -/
def stallFor (c : Core) (f : Trace → Bool) : Nat :=
  (c.recent.take 3).zipIdx.foldl (fun (n : Nat) x => Nat.max n (if f x.1 then 3 - x.2 else 0)) 0

/-- Whether a condition is taken, LC once decremented, and the cycles it stalls; none for a reserved code (R454, R455). -/
def condition (cc : Nat) (e : Env) : Option (Bool × Option (BitVec 13) × Nat) :=
  let r := e.settled
  let has := swHas r.sw
  let n := has swN
  let v := has swV
  let on := fun (b : Bool) => some (b, none, stallFor e.c (·.flags))
  match cc with
  | 0 => some (true, none, 0)
  | 1 => on (has swZ)
  | 2 => on (!has swZ)
  | 3 => on (n != v)
  | 4 => on (n == v)
  | 5 => on (!has swZ && n == v)
  | 6 => on (has swZ || n != v)
  | 7 => on v
  | 8 => on (!v)
  | 9 => on (has swC)
  | 10 => on (!has swC)
  | 11 => on (has swSAT)
  | 12 =>
    let lc := if r.lc = 0 then 0 else r.lc - 1
    some (lc != 0, some lc, stallFor e.c (·.lc))
  | _ => none

/-- A branch under a condition to a target. -/
def branchIf (cc target extra : Nat) (e : Env) : Option Eff :=
  (condition cc e).map fun x =>
    { branch := some (if x.1 then some (target % 16384) else none), lc := x.2.1, extra := Nat.max x.2.2 extra }

/-! Issue (R421, R422, R424, R464). -/

/-- The kinds of instruction: a word that REP may repeat, a long form, and a branch, REP or return. -/
inductive Shape where
  | word
  | long
  | flow
  deriving DecidableEq, Repr

/-- Whether the words an instruction spells can be those at the core's program counter: a word whose value nothing states may be any (R415;
log 72). -/
def fetches (c : Core) (words : List Nat) : Bool :=
  words.zipIdx.all fun x => match mget c.prog ((c.pc + x.2) % 16384) with
    | some w => w.toNat == x.1
    | none => true

/-- The words that a core has executed are in its program memory from then on. -/
def Core.learn (words : List Nat) (c : Core) : Core :=
  { c with prog := words.zipIdx.foldl (fun m x =>
      let a := (c.pc + x.2) % 16384
      if mhas m a then m else mset m a (BitVec.ofNat 48 x.1)) c.prog }

/-- The core after an instruction: what it wrote waits as R421 has it, and the program counter moves on. -/
def Core.retire (words : Nat) (e : Eff) (ctrl : List (Nat × Word24)) (c : Core) : Core :=
  let next := (c.pc + words) % 16384
  let late := if e.lc.isSome then c.late.filter fun w => match w with
      | .lc _ => false
      | _ => true
    else c.late
  let r := landAll c.later (updatePointers e.ptrs c.regs)
  let r := landAll (late.filter fun w => !w.ptr) r
  let r := { r with lc := e.lc.getD r.lc }
  let flow := match c.delay with
    | some (1, target) => (target.getD next, none)
    | some (n + 1, target) => (next, some (n, target))
    | _ => (next, e.branch.map fun target => (2, target))
  let again := match c.repeat_ with
    | some (n + 2) => some (n + 1)
    | _ => none
  { c with
    regs := r, late := e.writes, later := late.filter RegWrite.ptr, ctrlLate := ctrl, forward := e.forward
    pc := if again.isSome then c.pc else flow.1, delay := flow.2, repeat_ := match e.rep with
      | some n => some n
      | none => again
    recent := (traceOf e.writes :: c.recent).take 3, cycles := c.cycles + 1 + e.extra }

/-- A store to data memory; one to a control register waits for the next instruction (R421). -/
def storeWord (b k : Nat) (w : Bool × Nat × Word24) (s : State) : State :=
  match spaceOf w.1 w.2.1 with
  | some 0 =>
    modCore k (fun c => if w.1 then { c with ymem := wordSet c.ymem w.2.1 w.2.2 } else { c with xmem := wordSet c.xmem w.2.1 w.2.2 }) s
  | some 2 =>
    if mhas s.rt.test.running (b * 256 + 255) then countIsolated (b * 256 + 255) s
    else s.modDsp fun d => { d with shared := mmod d.shared b [] fun m => wordSet m (w.2.1 - 0x20000) w.2.2 }
  | _ => s

/-- A core issues an instruction; its effect is none where it is illegal or its access faults (R422, R424, R444). -/
def issue (t : Time) (b p : Nat) (shape : Shape) (words : List Nat) (eff : Env → Option Eff) (s : State) : State :=
  let s := s.advance t
  match issuing s b p with
  | none => s
  | some k =>
    let c := s.core k
    if !fetches c words then s
    else if shape != .word && (c.delay.isSome || c.repeat_.isSome) then coreFails b p 3 s
    else
      let env : Env := { s := s, b := b, p := p, c := c, r := landAll c.later c.regs, free := s.free }
      match if c.repeat_ = some 0 then some {} else eff env with
      | none => coreFails b p 3 s
      | some e =>
        let s := if c.dma.any (·.busy) then { s with free := s.free + 4 } else s
        let s := e.stores.foldl (fun s w => storeWord b k w s) s
        let ctrl := (e.stores.filter fun w => spaceOf w.1 w.2.1 == some 1).map fun w => (w.2.1 - 0x10000, w.2.2)
        applyCtrl b p k c.ctrlLate (modCore k (fun c => Core.retire words.length e ctrl (c.learn words)) s)

/-- A parallel word is issued (R442). -/
def issueParallel (t : Time) (b : Fin 16) (p : Fin 9) (op : Nat) (w : BitVec 41) (f : BitVec 41 → Env → Option Eff) (s : State) :
    Host.Outcome State Fault Refusal :=
  done (issue t b.val p.val .word [op * 2 ^ 41 + w.toNat] (f w) s)

/-- A one-word general instruction is issued (R442). -/
def issueGeneral (t : Time) (b : Fin 16) (p : Fin 9) (shape : Shape) (op : Nat) (w : BitVec 40) (f : BitVec 40 → Env → Option Eff)
    (s : State) : Host.Outcome State Fault Refusal :=
  done (issue t b.val p.val shape [2 ^ 47 + op * 2 ^ 40 + w.toNat] (f w) s)

/-- A long form is issued (R443). -/
def issueLong (t : Time) (b : Fin 16) (p : Fin 9) (op : Nat) (w : BitVec 40) (w2 : BitVec 48)
    (f : BitVec 40 → BitVec 48 → Env → Option Eff) (s : State) : Host.Outcome State Fault Refusal :=
  done (issue t b.val p.val .long [2 ^ 47 + op * 2 ^ 40 + w.toNat, w2.toNat] (f w w2) s)

end Sys2Proof.Machine
end

