-- ==== Sys2Proof/Machine/Yarrow.lean ====
section
/-! DEFINITION. The Yarrow instructions (R452, R453, R455, R457 to R465). Each command is the issue of one instruction by the core at a
position of a cluster: its operand is the word's bits under the format and op fields, [40:0] of a parallel word and [39:0] of a general
one, and the second word of a long form. -/

namespace Sys2Proof.Machine

/-- The sums of CFOLD and BFLY: V is set where any wraps, and only V changes (R457). -/
def folded (l : List (Nat × Int)) : Alu :=
  let r := l.map fun x => (x.1, accSum x.2)
  let wrapped := r.any fun x => x.2.2
  { writes := setFlags swV (bitIf wrapped (swV + swOVF)) :: r.map fun x => .acc x.1 x.2.1 }

/-- NOP: moves only. -/
def nopEffect : BitVec 41 → Env → Option Eff := parallel (0) fun _ _ =>
  some {}

def execYarrowNop (t : Time) (b : Fin 16) (p : Fin 9) (w : BitVec 41) (s : State) : Host.Outcome State Fault Refusal :=
  issueParallel t b p 0x00 w nopEffect s

/-- MPY: ACCd = Xa × Xb. -/
def mpyEffect : BitVec 41 → Env → Option Eff := parallel (mD + mA + mB + mF) fun e w =>
  some (lanes [(fD w, product (fF w) (e.x (fA w)) (e.x (fB w)))])

def execYarrowMpy (t : Time) (b : Fin 16) (p : Fin 9) (w : BitVec 41) (s : State) : Host.Outcome State Fault Refusal :=
  issueParallel t b p 0x01 w mpyEffect s

/-- MAC: ACCd = ACCd + Xa × Xb. -/
def macEffect : BitVec 41 → Env → Option Eff := parallel (mD + mA + mB + mF) fun e w =>
  some (lanes [(fD w, (e.accIn (fD w)).toInt + product (fF w) (e.x (fA w)) (e.x (fB w)))])

def execYarrowMac (t : Time) (b : Fin 16) (p : Fin 9) (w : BitVec 41) (s : State) : Host.Outcome State Fault Refusal :=
  issueParallel t b p 0x02 w macEffect s

/-- MSU: ACCd = ACCd − Xa × Xb. -/
def msuEffect : BitVec 41 → Env → Option Eff := parallel (mD + mA + mB + mF) fun e w =>
  some (lanes [(fD w, (e.accIn (fD w)).toInt - product (fF w) (e.x (fA w)) (e.x (fB w)))])

def execYarrowMsu (t : Time) (b : Fin 16) (p : Fin 9) (w : BitVec 41) (s : State) : Host.Outcome State Fault Refusal :=
  issueParallel t b p 0x03 w msuEffect s

/-- QMPY: ACCk = Xk × X(k + 4). -/
def qmpyEffect : BitVec 41 → Env → Option Eff := parallel (mF) fun e w =>
  some (lanes ((List.range 4).map fun i => (i, product (fF w) (e.x i) (e.x (i + 4)))))

def execYarrowQmpy (t : Time) (b : Fin 16) (p : Fin 9) (w : BitVec 41) (s : State) : Host.Outcome State Fault Refusal :=
  issueParallel t b p 0x04 w qmpyEffect s

/-- QMAC: ACCk = ACCk + Xk × X(k + 4). -/
def qmacEffect : BitVec 41 → Env → Option Eff := parallel (mF) fun e w =>
  some (lanes ((List.range 4).map fun i => (i, (e.accIn i).toInt + product (fF w) (e.x i) (e.x (i + 4)))))

def execYarrowQmac (t : Time) (b : Fin 16) (p : Fin 9) (w : BitVec 41) (s : State) : Host.Outcome State Fault Refusal :=
  issueParallel t b p 0x05 w qmacEffect s

/-- CMPY: the four partial products of a complex product. -/
def cmpyEffect : BitVec 41 → Env → Option Eff := parallel (mF) fun e w =>
  let m := fun i j => product (fF w) (e.x i) (e.x j)
  some (lanes [(0, m 0 4), (1, m 1 5), (2, m 0 5), (3, m 1 4)])

def execYarrowCmpy (t : Time) (b : Fin 16) (p : Fin 9) (w : BitVec 41) (s : State) : Host.Outcome State Fault Refusal :=
  issueParallel t b p 0x06 w cmpyEffect s

/-- FTAP (R460). -/
def ftapEffect : BitVec 41 → Env → Option Eff := parallelFetch (mStart + mF) fun e w c d =>
  let base := fun i => if bit w 29 then 0 else (e.accIn i).toInt
  let tap := fun i (v : Word24) => (i, base i + product (fF w) c v)
  let sums := lanes [tap 0 d, tap 1 (e.x 4), tap 2 (e.x 5), tap 3 (e.x 6)]
  { sums with writes := sums.writes ++ [.x 4 d, .x 5 (e.x 4), .x 6 (e.x 5)] }

def execYarrowFtap (t : Time) (b : Fin 16) (p : Fin 9) (w : BitVec 41) (s : State) : Host.Outcome State Fault Refusal :=
  issueParallel t b p 0x07 w ftapEffect s

/-- MACM: ACCd = ACCd + C × D. -/
def macmEffect : BitVec 41 → Env → Option Eff := parallelFetch (mD + mF) fun e w c d =>
  lanes [(fD w, (e.accIn (fD w)).toInt + product (fF w) c d)]

def execYarrowMacm (t : Time) (b : Fin 16) (p : Fin 9) (w : BitVec 41) (s : State) : Host.Outcome State Fault Refusal :=
  issueParallel t b p 0x08 w macmEffect s

/-- ADD: ACCd = ACCd + ACCs. -/
def addAccEffect : BitVec 41 → Env → Option Eff := parallel (mD + mS) fun e w =>
  some (accResult (fD w) (accFlags false (e.acc (fD w)) (e.acc (fS w))))

def execYarrowAddAcc (t : Time) (b : Fin 16) (p : Fin 9) (w : BitVec 41) (s : State) : Host.Outcome State Fault Refusal :=
  issueParallel t b p 0x10 w addAccEffect s

/-- SUB: ACCd = ACCd − ACCs. -/
def subAccEffect : BitVec 41 → Env → Option Eff := parallel (mD + mS) fun e w =>
  some (accResult (fD w) (accFlags true (e.acc (fD w)) (e.acc (fS w))))

def execYarrowSubAcc (t : Time) (b : Fin 16) (p : Fin 9) (w : BitVec 41) (s : State) : Host.Outcome State Fault Refusal :=
  issueParallel t b p 0x11 w subAccEffect s

/-- ADDX: ACCd = ACCd + place(Xa). -/
def addxEffect : BitVec 41 → Env → Option Eff := parallel (mD + mA) fun e w =>
  some (accResult (fD w) (accFlags false (e.acc (fD w)) (place (e.x (fA w)))))

def execYarrowAddx (t : Time) (b : Fin 16) (p : Fin 9) (w : BitVec 41) (s : State) : Host.Outcome State Fault Refusal :=
  issueParallel t b p 0x12 w addxEffect s

/-- SUBX: ACCd = ACCd − place(Xa). -/
def subxEffect : BitVec 41 → Env → Option Eff := parallel (mD + mA) fun e w =>
  some (accResult (fD w) (accFlags true (e.acc (fD w)) (place (e.x (fA w)))))

def execYarrowSubx (t : Time) (b : Fin 16) (p : Fin 9) (w : BitVec 41) (s : State) : Host.Outcome State Fault Refusal :=
  issueParallel t b p 0x13 w subxEffect s

/-- NEG: ACCd = −ACCd. -/
def negEffect : BitVec 41 → Env → Option Eff := parallel (mD) fun e w =>
  some (accResult (fD w) (accFlags true 0 (e.acc (fD w))))

def execYarrowNeg (t : Time) (b : Fin 16) (p : Fin 9) (w : BitVec 41) (s : State) : Host.Outcome State Fault Refusal :=
  issueParallel t b p 0x14 w negEffect s

/-- ABS: ACCd = |ACCd|; nothing carries out of bit 55, whether the value is kept or its complement plus 1 taken. -/
def absEffect : BitVec 41 → Env → Option Eff := parallel (mD) fun e w =>
  let a := e.acc (fD w)
  some (accResult (fD w) (if a.msb then accFlags true 0 a else accFlags false 0 a))

def execYarrowAbs (t : Time) (b : Fin 16) (p : Fin 9) (w : BitVec 41) (s : State) : Host.Outcome State Fault Refusal :=
  issueParallel t b p 0x15 w absEffect s

/-- CLR: ACCd = 0. -/
def clrEffect : BitVec 41 → Env → Option Eff := parallel (mD) fun _ w =>
  some (accResult (fD w) (0, swZ))

def execYarrowClr (t : Time) (b : Fin 16) (p : Fin 9) (w : BitVec 41) (s : State) : Host.Outcome State Fault Refusal :=
  issueParallel t b p 0x16 w clrEffect s

/-- MOVA: ACCd = ACCs. -/
def movaEffect : BitVec 41 → Env → Option Eff := parallel (mD + mS) fun e w =>
  some (accResult (fD w) (e.acc (fS w), flagsZN (e.acc (fS w)).toInt))

def execYarrowMova (t : Time) (b : Fin 16) (p : Fin 9) (w : BitVec 41) (s : State) : Host.Outcome State Fault Refusal :=
  issueParallel t b p 0x17 w movaEffect s

/-- ASH: shift by sh (R465). -/
def ashEffect : BitVec 41 → Env → Option Eff := parallel (mD + mSh) fun e w =>
  let sh := signed 7 (bits w 38 32)
  if -56 ≤ sh ∧ sh ≤ 55 then some (accResult (fD w) (accShift (e.acc (fD w)) sh)) else none

def execYarrowAsh (t : Time) (b : Fin 16) (p : Fin 9) (w : BitVec 41) (s : State) : Host.Outcome State Fault Refusal :=
  issueParallel t b p 0x18 w ashEffect s

/-- ASHB: shift by BE (R465). -/
def ashbEffect : BitVec 41 → Env → Option Eff := parallel (mD) fun e w =>
  some (accResult (fD w) (accShift (e.acc (fD w)) e.r.be.toInt))

def execYarrowAshb (t : Time) (b : Fin 16) (p : Fin 9) (w : BitVec 41) (s : State) : Host.Outcome State Fault Refusal :=
  issueParallel t b p 0x19 w ashbEffect s

/-- TST: flags of ACCd. -/
def tstEffect : BitVec 41 → Env → Option Eff := parallel (mD) fun e w =>
  some { writes := [setFlags (swZ + swN + swV + swC) (flagsZN (e.acc (fD w)).toInt)] }

def execYarrowTst (t : Time) (b : Fin 16) (p : Fin 9) (w : BitVec 41) (s : State) : Host.Outcome State Fault Refusal :=
  issueParallel t b p 0x1A w tstEffect s

/-- CFOLD: ACC1 = ACC0 − ACC1; ACC3 = ACC2 + ACC3 (R461). -/
def cfoldEffect : BitVec 41 → Env → Option Eff := parallel (0) fun e _ =>
  some (folded [(1, (e.acc 0).toInt - (e.acc 1).toInt), (3, (e.acc 2).toInt + (e.acc 3).toInt)])

def execYarrowCfold (t : Time) (b : Fin 16) (p : Fin 9) (w : BitVec 41) (s : State) : Host.Outcome State Fault Refusal :=
  issueParallel t b p 0x1B w cfoldEffect s

/-- BFLY: the butterfly, halved where H is 1 (R461). -/
def bflyEffect : BitVec 41 → Env → Option Eff := parallel (mF) fun e w =>
  let half := fun (v : Int) => if fF w then v / 2 else v
  let re := (place (e.x 2)).toInt
  let im := (place (e.x 3)).toInt
  let tr := (e.acc 1).toInt
  let ti := (e.acc 3).toInt
  some (folded [(0, half (re + tr)), (1, half (re - tr)), (2, half (im + ti)), (3, half (im - ti))])

def execYarrowBfly (t : Time) (b : Fin 16) (p : Fin 9) (w : BitVec 41) (s : State) : Host.Outcome State Fault Refusal :=
  issueParallel t b p 0x1C w bflyEffect s

/-- NORM: normalise ACCd, with the shift in Xa (R463). -/
def normEffect : BitVec 41 → Env → Option Eff := parallel (mD + mA) fun e w =>
  let a := e.acc (fD w)
  let n := headroom a
  let v := if 0 ≤ n then a <<< n.toNat else a.sshiftRight (-n).toNat
  some { writes := [.acc (fD w) v, .x (fA w) (BitVec.ofInt 24 n), setFlags (swZ + swN + swV + swC) (flagsZN v.toInt)] }

def execYarrowNorm (t : Time) (b : Fin 16) (p : Fin 9) (w : BitVec 41) (s : State) : Host.Outcome State Fault Refusal :=
  issueParallel t b p 0x1D w normEffect s

/-- CVT: Xa = conversion of ACCd with shift k (R414). -/
def cvtEffect : BitVec 41 → Env → Option Eff := parallel (mD + mA + mK6) fun e w =>
  let k := bits w 35 30
  let r := convert e.r.sw k (e.acc (fD w)).toInt
  if k ≤ 32 then some { writes := [.x (fA w) r.1, setFlags (swZ + swN + swV) (flagsZN r.1.toInt + r.2)] } else none

def execYarrowCvt (t : Time) (b : Fin 16) (p : Fin 9) (w : BitVec 41) (s : State) : Host.Outcome State Fault Refusal :=
  issueParallel t b p 0x1E w cvtEffect s

/-- BEXP Xa: block exponent (R462). -/
def bexpXEffect : BitVec 41 → Env → Option Eff := parallel (mA) fun e w =>
  some { writes := [.beMin (r24 (e.x (fA w)))] }

def execYarrowBexpX (t : Time) (b : Fin 16) (p : Fin 9) (w : BitVec 41) (s : State) : Host.Outcome State Fault Refusal :=
  issueParallel t b p 0x20 w bexpXEffect s

/-- BEXP ACCd: block exponent (R462). -/
def bexpAccEffect : BitVec 41 → Env → Option Eff := parallel (mD) fun e w =>
  some { writes := [.beMin (limit31 (headroom (e.acc (fD w))))] }

def execYarrowBexpAcc (t : Time) (b : Fin 16) (p : Fin 9) (w : BitVec 41) (s : State) : Host.Outcome State Fault Refusal :=
  issueParallel t b p 0x21 w bexpAccEffect s

/-- BEXPQ: block exponent over ACC0 to ACC3 (R462). -/
def bexpqEffect : BitVec 41 → Env → Option Eff := parallel (0) fun e _ =>
  some { writes := (List.range 4).map fun i => .beMin (limit31 (headroom (e.acc i))) }

def execYarrowBexpq (t : Time) (b : Fin 16) (p : Fin 9) (w : BitVec 41) (s : State) : Host.Outcome State Fault Refusal :=
  issueParallel t b p 0x22 w bexpqEffect s

/-- ADD: Xa = Xa + Xb. -/
def addXEffect : BitVec 41 → Env → Option Eff := parallel (mA + mB) fun e w =>
  some (xResult (fA w) (wordFlags false (e.x (fA w)) (e.x (fB w))))

def execYarrowAddX (t : Time) (b : Fin 16) (p : Fin 9) (w : BitVec 41) (s : State) : Host.Outcome State Fault Refusal :=
  issueParallel t b p 0x28 w addXEffect s

/-- SUB: Xa = Xa − Xb. -/
def subXEffect : BitVec 41 → Env → Option Eff := parallel (mA + mB) fun e w =>
  some (xResult (fA w) (wordFlags true (e.x (fA w)) (e.x (fB w))))

def execYarrowSubX (t : Time) (b : Fin 16) (p : Fin 9) (w : BitVec 41) (s : State) : Host.Outcome State Fault Refusal :=
  issueParallel t b p 0x29 w subXEffect s

/-- CMP: flags of Xa − Xb. -/
def cmpEffect : BitVec 41 → Env → Option Eff := parallel (mA + mB) fun e w =>
  some { writes := [setFlags (swZ + swN + swV + swC) (wordFlags true (e.x (fA w)) (e.x (fB w))).2] }

def execYarrowCmp (t : Time) (b : Fin 16) (p : Fin 9) (w : BitVec 41) (s : State) : Host.Outcome State Fault Refusal :=
  issueParallel t b p 0x2A w cmpEffect s

/-- AND: bitwise. -/
def andEffect : BitVec 41 → Env → Option Eff := parallel (mA + mB) fun e w =>
  let v := e.x (fA w) &&& e.x (fB w)
  some (xResult (fA w) (v, flagsZN v.toInt))

def execYarrowAnd (t : Time) (b : Fin 16) (p : Fin 9) (w : BitVec 41) (s : State) : Host.Outcome State Fault Refusal :=
  issueParallel t b p 0x2B w andEffect s

/-- OR: bitwise. -/
def orEffect : BitVec 41 → Env → Option Eff := parallel (mA + mB) fun e w =>
  let v := e.x (fA w) ||| e.x (fB w)
  some (xResult (fA w) (v, flagsZN v.toInt))

def execYarrowOr (t : Time) (b : Fin 16) (p : Fin 9) (w : BitVec 41) (s : State) : Host.Outcome State Fault Refusal :=
  issueParallel t b p 0x2C w orEffect s

/-- XOR: bitwise. -/
def xorEffect : BitVec 41 → Env → Option Eff := parallel (mA + mB) fun e w =>
  let v := e.x (fA w) ^^^ e.x (fB w)
  some (xResult (fA w) (v, flagsZN v.toInt))

def execYarrowXor (t : Time) (b : Fin 16) (p : Fin 9) (w : BitVec 41) (s : State) : Host.Outcome State Fault Refusal :=
  issueParallel t b p 0x2D w xorEffect s

/-- LSL: shift left, zero fill (R465). -/
def lslEffect : BitVec 41 → Env → Option Eff := parallel (mA + mK5) fun e w =>
  let k := bits w 35 31
  if k ≤ 23 then some (xResult (fA w) (wordShift 0 (e.x (fA w)) k)) else none

def execYarrowLsl (t : Time) (b : Fin 16) (p : Fin 9) (w : BitVec 41) (s : State) : Host.Outcome State Fault Refusal :=
  issueParallel t b p 0x2E w lslEffect s

/-- ASR: shift right, sign fill (R465). -/
def asrEffect : BitVec 41 → Env → Option Eff := parallel (mA + mK5) fun e w =>
  let k := bits w 35 31
  if k ≤ 23 then some (xResult (fA w) (wordShift 1 (e.x (fA w)) k)) else none

def execYarrowAsr (t : Time) (b : Fin 16) (p : Fin 9) (w : BitVec 41) (s : State) : Host.Outcome State Fault Refusal :=
  issueParallel t b p 0x2F w asrEffect s

/-- LSR: shift right, zero fill (R465). -/
def lsrEffect : BitVec 41 → Env → Option Eff := parallel (mA + mK5) fun e w =>
  let k := bits w 35 31
  if k ≤ 23 then some (xResult (fA w) (wordShift 2 (e.x (fA w)) k)) else none

def execYarrowLsr (t : Time) (b : Fin 16) (p : Fin 9) (w : BitVec 41) (s : State) : Host.Outcome State Fault Refusal :=
  issueParallel t b p 0x30 w lsrEffect s

/-- MOVE rd, rs (R446). -/
def moveEffect : BitVec 40 → Env → Option Eff := general (mR + 0x3F * 2 ^ 28) fun e w =>
  let rd := fR w
  let rs := bits w 33 28
  if 50 < rd ∨ 50 < rs then none
  else if wholeAcc rd && wholeAcc rs then some { writes := [.acc (rd - 8) (e.acc (rs - 8))] }
  else
    let v := e.r.read24 rs
    some { writes := setBits v.2 ++ [writeReg rd v.1] }

def execYarrowMove (t : Time) (b : Fin 16) (p : Fin 9) (w : BitVec 40) (s : State) : Host.Outcome State Fault Refusal :=
  issueGeneral t b p .word 0x00 w moveEffect s

/-- MOVEI rd, #imm16 (R446). -/
def movei16Effect : BitVec 40 → Env → Option Eff := general (mR + 0xFFFF) fun _ w =>
  if 50 < fR w then none else some { writes := [writeReg (fR w) (BitVec.ofInt 24 (signed 16 (w % 65536)))] }

def execYarrowMovei16 (t : Time) (b : Fin 16) (p : Fin 9) (w : BitVec 40) (s : State) : Host.Outcome State Fault Refusal :=
  issueGeneral t b p .word 0x01 w movei16Effect s

/-- MOVEI rd, #imm24 (R446). -/
def movei24Effect : BitVec 40 → BitVec 48 → Env → Option Eff := longForm (mR) fun _ w v =>
  if 50 < fR w then none else some { writes := [writeReg (fR w) (BitVec.ofNat 24 v)] }

def execYarrowMovei24 (t : Time) (b : Fin 16) (p : Fin 9) (w : BitVec 40) (w2 : BitVec 48) (s : State) :
    Host.Outcome State Fault Refusal :=
  issueLong t b p 0x41 w w2 movei24Effect s

/-- LD rd, X:addr. -/
def ldXDirectEffect : BitVec 40 → Env → Option Eff := general (mR + 0x3FFF) fun e w =>
  loadTo false (fR w) (w % 16384) e

def execYarrowLdXDirect (t : Time) (b : Fin 16) (p : Fin 9) (w : BitVec 40) (s : State) : Host.Outcome State Fault Refusal :=
  issueGeneral t b p .word 0x02 w ldXDirectEffect s

/-- LD rd, X:addr, long. -/
def ldXLongEffect : BitVec 40 → BitVec 48 → Env → Option Eff := longForm (mR) fun e w v =>
  loadTo false (fR w) v e

def execYarrowLdXLong (t : Time) (b : Fin 16) (p : Fin 9) (w : BitVec 40) (w2 : BitVec 48) (s : State) :
    Host.Outcome State Fault Refusal :=
  issueLong t b p 0x42 w w2 ldXLongEffect s

/-- LD rd, Y:addr. -/
def ldYDirectEffect : BitVec 40 → Env → Option Eff := general (mR + 0x3FFF) fun e w =>
  loadTo true (fR w) (w % 16384) e

def execYarrowLdYDirect (t : Time) (b : Fin 16) (p : Fin 9) (w : BitVec 40) (s : State) : Host.Outcome State Fault Refusal :=
  issueGeneral t b p .word 0x03 w ldYDirectEffect s

/-- LD rd, Y:addr, long. -/
def ldYLongEffect : BitVec 40 → BitVec 48 → Env → Option Eff := longForm (mR) fun e w v =>
  loadTo true (fR w) v e

def execYarrowLdYLong (t : Time) (b : Fin 16) (p : Fin 9) (w : BitVec 40) (w2 : BitVec 48) (s : State) :
    Host.Outcome State Fault Refusal :=
  issueLong t b p 0x43 w w2 ldYLongEffect s

/-- ST X:addr, rs. -/
def stXDirectEffect : BitVec 40 → Env → Option Eff := general (mR + 0x3FFF) fun e w =>
  storeFrom false (fR w) (w % 16384) e

def execYarrowStXDirect (t : Time) (b : Fin 16) (p : Fin 9) (w : BitVec 40) (s : State) : Host.Outcome State Fault Refusal :=
  issueGeneral t b p .word 0x04 w stXDirectEffect s

/-- ST X:addr, rs, long. -/
def stXLongEffect : BitVec 40 → BitVec 48 → Env → Option Eff := longForm (mR) fun e w v =>
  storeFrom false (fR w) v e

def execYarrowStXLong (t : Time) (b : Fin 16) (p : Fin 9) (w : BitVec 40) (w2 : BitVec 48) (s : State) :
    Host.Outcome State Fault Refusal :=
  issueLong t b p 0x44 w w2 stXLongEffect s

/-- ST Y:addr, rs. -/
def stYDirectEffect : BitVec 40 → Env → Option Eff := general (mR + 0x3FFF) fun e w =>
  storeFrom true (fR w) (w % 16384) e

def execYarrowStYDirect (t : Time) (b : Fin 16) (p : Fin 9) (w : BitVec 40) (s : State) : Host.Outcome State Fault Refusal :=
  issueGeneral t b p .word 0x05 w stYDirectEffect s

/-- ST Y:addr, rs, long. -/
def stYLongEffect : BitVec 40 → BitVec 48 → Env → Option Eff := longForm (mR) fun e w v =>
  storeFrom true (fR w) v e

def execYarrowStYLong (t : Time) (b : Fin 16) (p : Fin 9) (w : BitVec 40) (w2 : BitVec 48) (s : State) :
    Host.Outcome State Fault Refusal :=
  issueLong t b p 0x45 w w2 stYLongEffect s

/-- LD rd, X:(Pn+Nn). -/
def ldXIndexedEffect : BitVec 40 → Env → Option Eff := general (mR + 7 * 2 ^ 31) fun e w =>
  loadTo false (fR w) (indexed (bits w 33 31) e) e

def execYarrowLdXIndexed (t : Time) (b : Fin 16) (p : Fin 9) (w : BitVec 40) (s : State) : Host.Outcome State Fault Refusal :=
  issueGeneral t b p .word 0x06 w ldXIndexedEffect s

/-- LD rd, Y:(Pn+Nn). -/
def ldYIndexedEffect : BitVec 40 → Env → Option Eff := general (mR + 7 * 2 ^ 31) fun e w =>
  loadTo true (fR w) (indexed (bits w 33 31) e) e

def execYarrowLdYIndexed (t : Time) (b : Fin 16) (p : Fin 9) (w : BitVec 40) (s : State) : Host.Outcome State Fault Refusal :=
  issueGeneral t b p .word 0x07 w ldYIndexedEffect s

/-- ST X:(Pn+Nn), rs. -/
def stXIndexedEffect : BitVec 40 → Env → Option Eff := general (mR + 7 * 2 ^ 31) fun e w =>
  storeFrom false (fR w) (indexed (bits w 33 31) e) e

def execYarrowStXIndexed (t : Time) (b : Fin 16) (p : Fin 9) (w : BitVec 40) (s : State) : Host.Outcome State Fault Refusal :=
  issueGeneral t b p .word 0x08 w stXIndexedEffect s

/-- ST Y:(Pn+Nn), rs. -/
def stYIndexedEffect : BitVec 40 → Env → Option Eff := general (mR + 7 * 2 ^ 31) fun e w =>
  storeFrom true (fR w) (indexed (bits w 33 31) e) e

def execYarrowStYIndexed (t : Time) (b : Fin 16) (p : Fin 9) (w : BitVec 40) (s : State) : Host.Outcome State Fault Refusal :=
  issueGeneral t b p .word 0x09 w stYIndexedEffect s

/-- MODP Pn, mode: the update of a mode under Mn, with no access (R426). -/
def modpEffect : BitVec 40 → Env → Option Eff := general (0x1F * 2 ^ 29) fun e w =>
  let mode := bits w 30 29
  let m : Move := { kind := 1, y := false, ptr := bits w 33 31, mode := mode }
  let aim := m.aim e.c.regs
  if mode = 0 then none
  else some { writes := setBits (if aim.2.2 then swAMODE else 0), ptrs := [aim.2.1] }

def execYarrowModp (t : Time) (b : Fin 16) (p : Fin 9) (w : BitVec 40) (s : State) : Host.Outcome State Fault Refusal :=
  issueGeneral t b p .word 0x0A w modpEffect s

/-- BRA cc, target (R454, R455). -/
def braEffect : BitVec 40 → Env → Option Eff := general (0xF3FFF) fun e w =>
  branchIf (bits w 19 16) (w % 16384) 0 e

def execYarrowBra (t : Time) (b : Fin 16) (p : Fin 9) (w : BitVec 40) (s : State) : Host.Outcome State Fault Refusal :=
  issueGeneral t b p .flow 0x10 w braEffect s

/-- CALL target: P7 is the address of the CALL plus 3 (R455). -/
def callEffect : BitVec 40 → Env → Option Eff := general (0x3FFF) fun e w =>
  some { writes := [.p 7 (BitVec.ofNat 24 (e.c.pc + 3))], branch := some (some (w % 16384)) }

def execYarrowCall (t : Time) (b : Fin 16) (p : Fin 9) (w : BitVec 40) (s : State) : Host.Outcome State Fault Refusal :=
  issueGeneral t b p .flow 0x11 w callEffect s

/-- JMP cc, (Pn): stalls until Pn has landed (R455). -/
def jmpEffect : BitVec 40 → Env → Option Eff := general (7 * 2 ^ 31 + 0xF0000) fun e w =>
  let n := bits w 33 31
  branchIf (bits w 19 16) (e.settled.p.getD n 0).toNat (stallFor e.c fun t => t.ptrs.contains n) e

def execYarrowJmp (t : Time) (b : Fin 16) (p : Fin 9) (w : BitVec 40) (s : State) : Host.Outcome State Fault Refusal :=
  issueGeneral t b p .flow 0x12 w jmpEffect s

/-- RTI: PC from IPC, SW from ISW (R423, R455). -/
def rtiEffect : BitVec 40 → Env → Option Eff := general (0) fun e w =>
  if w = 0 then some { writes := [.sw e.c.isw], branch := some (some e.c.ipc.toNat) } else none

def execYarrowRti (t : Time) (b : Fin 16) (p : Fin 9) (w : BitVec 40) (s : State) : Host.Outcome State Fault Refusal :=
  issueGeneral t b p .flow 0x13 w rtiEffect s

/-- REP #n (R464). -/
def repImmEffect : BitVec 40 → Env → Option Eff := general (0x1FFF) fun _ w =>
  let n := w % 8192
  if n = 0 ∨ 4096 < n then none else some { rep := some n }

def execYarrowRepImm (t : Time) (b : Fin 16) (p : Fin 9) (w : BitVec 40) (s : State) : Host.Outcome State Fault Refusal :=
  issueGeneral t b p .flow 0x14 w repImmEffect s

/-- REP LC: stalls until LC has landed (R421, R446, R464). -/
def repLcEffect : BitVec 40 → Env → Option Eff := general (0) fun e w =>
  let n := e.settled.lc.toNat
  if w ≠ 0 ∨ 4096 < n then none else some { rep := some n, extra := stallFor e.c (·.lc) }

def execYarrowRepLc (t : Time) (b : Fin 16) (p : Fin 9) (w : BitVec 40) (s : State) : Host.Outcome State Fault Refusal :=
  issueGeneral t b p .flow 0x15 w repLcEffect s

end Sys2Proof.Machine
end

