-- ==== Sys2Proof/Machine/Dispatch.lean ====
section
/-! DEFINITION. One arm per command: the one place where a command meets its meaning. -/

namespace Sys2Proof.Machine

def exec (i : Instr) (s : State) : Host.Outcome State Fault Refusal :=
  match i with
  | .bar0RegisterWrite off data => Sys2Proof.Machine.execBar0RegisterWrite off data s
  | .bar0ReadDomainNotReady t r => Sys2Proof.Machine.execBar0ReadDomainNotReady t r s
  | .heldBar0WriteApply t => Sys2Proof.Machine.execHeldBar0WriteApply t s
  | .bar2Access a => Sys2Proof.Machine.execBar2Access a s
  | .dwinBaseWrite v => Sys2Proof.Machine.execDwinBaseWrite v s
  | .dwinErrRead => Sys2Proof.Machine.execDwinErrRead s
  | .devFaultClear v => Sys2Proof.Machine.execDevFaultClear v s
  | .msixVectorUnmask v => Sys2Proof.Machine.execMsixVectorUnmask v s
  | .mbxRing t v => Sys2Proof.Machine.execMbxRing t v s
  | .mbxDoneClear hi v => Sys2Proof.Machine.execMbxDoneClear hi v s
  | .mbxErrRead => Sys2Proof.Machine.execMbxErrRead s
  | .doorbellTake t => Sys2Proof.Machine.execDoorbellTake t s
  | .evqSizeWrite v => Sys2Proof.Machine.execEvqSizeWrite v s
  | .evqBaseWrite hi v => Sys2Proof.Machine.execEvqBaseWrite hi v s
  | .evqHeadWrite v => Sys2Proof.Machine.execEvqHeadWrite v s
  | .evqLostRead => Sys2Proof.Machine.execEvqLostRead s
  | .eventRingWrite t => Sys2Proof.Machine.execEventRingWrite t s
  | .evqHoldoffExpiry t => Sys2Proof.Machine.execEvqHoldoffExpiry t s
  | .sysNop r => Sys2Proof.Machine.execSysNop r s
  | .sysInfo r => Sys2Proof.Machine.execSysInfo r s
  | .sysReset r => Sys2Proof.Machine.execSysReset r s
  | .sysResetDelayExpiry t => Sys2Proof.Machine.execSysResetDelayExpiry t s
  | .sysQuiesce r => Sys2Proof.Machine.execSysQuiesce r s
  | .quiesceIdle t b => Sys2Proof.Machine.execQuiesceIdle t b s
  | .quiesceTimeout t b => Sys2Proof.Machine.execQuiesceTimeout t b s
  | .sysEventMask r => Sys2Proof.Machine.execSysEventMask r s
  | .sysStats r => Sys2Proof.Machine.execSysStats r s
  | .genStatus r => Sys2Proof.Machine.execGenStatus r s
  | .genCommit r => Sys2Proof.Machine.execGenCommit r s
  | .genRollback r => Sys2Proof.Machine.execGenRollback r s
  | .genDiscard r => Sys2Proof.Machine.execGenDiscard r s
  | .genCancel r => Sys2Proof.Machine.execGenCancel r s
  | .genSnapshot r => Sys2Proof.Machine.execGenSnapshot r s
  | .snapshotExpiry t => Sys2Proof.Machine.execSnapshotExpiry t s
  | .genActivate => Sys2Proof.Machine.execGenActivate s
  | .tickBoundary => Sys2Proof.Machine.execTickBoundary s
  | .itemDeadline => Sys2Proof.Machine.execItemDeadline s
  | .workItemEnqueue t e => Sys2Proof.Machine.execWorkItemEnqueue t e s
  | .enqueueStallRelease t => Sys2Proof.Machine.execEnqueueStallRelease t s
  | .spillBlock t => Sys2Proof.Machine.execSpillBlock t s
  | .refillBlock r => Sys2Proof.Machine.execRefillBlock r s
  | .itemDispatch t b p corrected => Sys2Proof.Machine.execItemDispatch t b p corrected s
  | .itemComplete t b p => Sys2Proof.Machine.execItemComplete t b p s
  | .schedStatus r => Sys2Proof.Machine.execSchedStatus r s
  | .schedStats r => Sys2Proof.Machine.execSchedStats r s
  | .schedFlow r => Sys2Proof.Machine.execSchedFlow r s
  | .coreFault t b p cause => Sys2Proof.Machine.execCoreFault t b p cause s
  | .spareLoaded t b => Sys2Proof.Machine.execSpareLoaded t b s
  | .spareEntry t b => Sys2Proof.Machine.execSpareEntry t b s
  | .coreSelftestEnd t b r => Sys2Proof.Machine.execCoreSelftestEnd t b r s
  | .coreReturn t b => Sys2Proof.Machine.execCoreReturn t b s
  | .clusterMemoryUe t b p page => Sys2Proof.Machine.execClusterMemoryUe t b p page s
  | .loadShedStart t b => Sys2Proof.Machine.execLoadShedStart t b s
  | .loadShedEnd t b => Sys2Proof.Machine.execLoadShedEnd t b s
  | .campionEngineFault t e => Sys2Proof.Machine.execCampionEngineFault t e s
  | .campionSliceWatchdog t e => Sys2Proof.Machine.execCampionSliceWatchdog t e s
  | .mallowEngineFault t e => Sys2Proof.Machine.execMallowEngineFault t e s
  | .contextJournalCopy t => Sys2Proof.Machine.execContextJournalCopy t s
  | .warmResume r => Sys2Proof.Machine.execWarmResume r s
  | .faultStatus r => Sys2Proof.Machine.execFaultStatus r s
  | .faultStats r => Sys2Proof.Machine.execFaultStats r s
  | .faultInject r => Sys2Proof.Machine.execFaultInject r s
  | .legSet r => Sys2Proof.Machine.execLegSet r s
  | .legDelete r => Sys2Proof.Machine.execLegDelete r s
  | .legQuery r => Sys2Proof.Machine.execLegQuery r s
  | .legStats r => Sys2Proof.Machine.execLegStats r s
  | .legDetector r => Sys2Proof.Machine.execLegDetector r s
  | .legTonePlay r => Sys2Proof.Machine.execLegTonePlay r s
  | .legToneStop r => Sys2Proof.Machine.execLegToneStop r s
  | .toneCommandTakeEffect t leg => Sys2Proof.Machine.execToneCommandTakeEffect t leg s
  | .legToneDone t leg => Sys2Proof.Machine.execLegToneDone t leg s
  | .legItem t x => Sys2Proof.Machine.execLegItem t x s
  | .ecReenableExpiry t leg => Sys2Proof.Machine.execEcReenableExpiry t leg s
  | .legRxPacket t leg => Sys2Proof.Machine.execLegRxPacket t leg s
  | .legMediaTimeout t leg => Sys2Proof.Machine.execLegMediaTimeout t leg s
  | .jbDelayStep t leg => Sys2Proof.Machine.execJbDelayStep t leg s
  | .jbHeldDecay t leg => Sys2Proof.Machine.execJbHeldDecay t leg s
  | .rtcpSend t o => Sys2Proof.Machine.execRtcpSend t o s
  | .rtcpReceive t o => Sys2Proof.Machine.execRtcpReceive t o s
  | .confItem t conf => Sys2Proof.Machine.execConfItem t conf s
  | .confSet r => Sys2Proof.Machine.execConfSet r s
  | .confDelete r => Sys2Proof.Machine.execConfDelete r s
  | .confQuery r => Sys2Proof.Machine.execConfQuery r s
  | .confMember r => Sys2Proof.Machine.execConfMember r s
  | .confRemove r => Sys2Proof.Machine.execConfRemove r s
  | .confMembers r => Sys2Proof.Machine.execConfMembers r s
  | .confStatus r => Sys2Proof.Machine.execConfStatus r s
  | .routeSet r => Sys2Proof.Machine.execRouteSet r s
  | .routeDelete r => Sys2Proof.Machine.execRouteDelete r s
  | .routeList r => Sys2Proof.Machine.execRouteList r s
  | .routeSapSet r => Sys2Proof.Machine.execRouteSapSet r s
  | .routeSapQuery r => Sys2Proof.Machine.execRouteSapQuery r s
  | .sapStop t p => Sys2Proof.Machine.execSapStop t p s
  | .sapRestart t p => Sys2Proof.Machine.execSapRestart t p s
  | .vidSet r => Sys2Proof.Machine.execVidSet r s
  | .vidDelete r => Sys2Proof.Machine.execVidDelete r s
  | .vidQuery r => Sys2Proof.Machine.execVidQuery r s
  | .vidStats r => Sys2Proof.Machine.execVidStats r s
  | .vidKeyframe r => Sys2Proof.Machine.execVidKeyframe r s
  | .vidParamsets r => Sys2Proof.Machine.execVidParamsets r s
  | .vidGrab r => Sys2Proof.Machine.execVidGrab r s
  | .vidGrabDone t slot => Sys2Proof.Machine.execVidGrabDone t slot s
  | .videoRtpReceive t v => Sys2Proof.Machine.execVideoRtpReceive t v s
  | .assembleTimeout t v => Sys2Proof.Machine.execAssembleTimeout t v s
  | .videoDecodePicture t v d => Sys2Proof.Machine.execVideoDecodePicture t v d s
  | .keyIntervalEnd t v => Sys2Proof.Machine.execKeyIntervalEnd t v s
  | .vidMediaTimeout t v => Sys2Proof.Machine.execVidMediaTimeout t v s
  | .encodePictureStart t v => Sys2Proof.Machine.execEncodePictureStart t v s
  | .videoEncodeSlice t v c => Sys2Proof.Machine.execVideoEncodeSlice t v c s
  | .layoutSet r => Sys2Proof.Machine.execLayoutSet r s
  | .layoutLayer r => Sys2Proof.Machine.execLayoutLayer r s
  | .layoutImage r => Sys2Proof.Machine.execLayoutImage r s
  | .layoutImageDone t layout layer slot => Sys2Proof.Machine.execLayoutImageDone t layout layer slot s
  | .layoutScaler r => Sys2Proof.Machine.execLayoutScaler r s
  | .layoutGamma r => Sys2Proof.Machine.execLayoutGamma r s
  | .layoutDelete r => Sys2Proof.Machine.execLayoutDelete r s
  | .layoutQuery r => Sys2Proof.Machine.execLayoutQuery r s
  | .outSet r => Sys2Proof.Machine.execOutSet r s
  | .outRegion r => Sys2Proof.Machine.execOutRegion r s
  | .outDelete r => Sys2Proof.Machine.execOutDelete r s
  | .outQuery r => Sys2Proof.Machine.execOutQuery r s
  | .outStats r => Sys2Proof.Machine.execOutStats r s
  | .outSignatures r => Sys2Proof.Machine.execOutSignatures r s
  | .composeFrameStart t o => Sys2Proof.Machine.execComposeFrameStart t o s
  | .composeFrameComplete t f => Sys2Proof.Machine.execComposeFrameComplete t f s
  | .layoutFlatten t layout => Sys2Proof.Machine.execLayoutFlatten t layout s
  | .ethFrameReceive t port f fec => Sys2Proof.Machine.execEthFrameReceive t port f fec s
  | .policerInterval t => Sys2Proof.Machine.execPolicerInterval t s
  | .fwdSourceTimeout t v => Sys2Proof.Machine.execFwdSourceTimeout t v s
  | .rateWindow t => Sys2Proof.Machine.execRateWindow t s
  | .tmmbrReceive t n owner bps => Sys2Proof.Machine.execTmmbrReceive t n owner bps s
  | .keyWaitExpiry t n => Sys2Proof.Machine.execKeyWaitExpiry t n s
  | .relayKeyIntervalEnd t v => Sys2Proof.Machine.execRelayKeyIntervalEnd t v s
  | .shaperRelease t leg => Sys2Proof.Machine.execShaperRelease t leg s
  | .portTransmit t port => Sys2Proof.Machine.execPortTransmit t port s
  | .sorrelEccError t e => Sys2Proof.Machine.execSorrelEccError t e s
  | .fwdRelaySet r => Sys2Proof.Machine.execFwdRelaySet r s
  | .fwdSubSet r => Sys2Proof.Machine.execFwdSubSet r s
  | .fwdLineSet r => Sys2Proof.Machine.execFwdLineSet r s
  | .fwdPolicerSet r => Sys2Proof.Machine.execFwdPolicerSet r s
  | .fwdQueueSet r => Sys2Proof.Machine.execFwdQueueSet r s
  | .fwdColourMap r => Sys2Proof.Machine.execFwdColourMap r s
  | .fwdDelete r => Sys2Proof.Machine.execFwdDelete r s
  | .fwdQuery r => Sys2Proof.Machine.execFwdQuery r s
  | .fwdSubStats r => Sys2Proof.Machine.execFwdSubStats r s
  | .fwdPortStats r => Sys2Proof.Machine.execFwdPortStats r s
  | .cryptoRequest t queue engine mismatch => Sys2Proof.Machine.execCryptoRequest t queue engine mismatch s
  | .graceKeyExpiry t slot => Sys2Proof.Machine.execGraceKeyExpiry t slot s
  | .keySlotLost t e => Sys2Proof.Machine.execKeySlotLost t e s
  | .keyStatus r => Sys2Proof.Machine.execKeyStatus r s
  | .keyInstall r => Sys2Proof.Machine.execKeyInstall r s
  | .keyErase r => Sys2Proof.Machine.execKeyErase r s
  | .keyQuery r => Sys2Proof.Machine.execKeyQuery r s
  | .keyBind r => Sys2Proof.Machine.execKeyBind r s
  | .keyDerive r => Sys2Proof.Machine.execKeyDerive r s
  | .keyCrypt r => Sys2Proof.Machine.execKeyCrypt r s
  | .keyCryptDone r => Sys2Proof.Machine.execKeyCryptDone r s
  | .keyQueues r => Sys2Proof.Machine.execKeyQueues r s
  | .keyStats r => Sys2Proof.Machine.execKeyStats r s
  | .pgCtrlGo t u v => Sys2Proof.Machine.execPgCtrlGo t u v s
  | .pageOperationDone r u => Sys2Proof.Machine.execPageOperationDone r u s
  | .pgStatusDoneClear u v => Sys2Proof.Machine.execPgStatusDoneClear u v s
  | .pgErrRead u => Sys2Proof.Machine.execPgErrRead u s
  | .recordArrive t => Sys2Proof.Machine.execRecordArrive t s
  | .segmentOpen t => Sys2Proof.Machine.execSegmentOpen t s
  | .segmentSeal r => Sys2Proof.Machine.execSegmentSeal r s
  | .recConfig r => Sys2Proof.Machine.execRecConfig r s
  | .recSelect r => Sys2Proof.Machine.execRecSelect r s
  | .recQuery r => Sys2Proof.Machine.execRecQuery r s
  | .recStatus r => Sys2Proof.Machine.execRecStatus r s
  | .recRead r => Sys2Proof.Machine.execRecRead r s
  | .recReadDone t slot failed => Sys2Proof.Machine.execRecReadDone t slot failed s
  | .recRelease r => Sys2Proof.Machine.execRecRelease r s
  | .recVerify r => Sys2Proof.Machine.execRecVerify r s
  | .recVerifyDone t slot => Sys2Proof.Machine.execRecVerifyDone t slot s
  | .recMark r => Sys2Proof.Machine.execRecMark r s
  | .recClear r => Sys2Proof.Machine.execRecClear r s
  | .recClearApply t => Sys2Proof.Machine.execRecClearApply t s
  | .zipStart r => Sys2Proof.Machine.execZipStart r s
  | .zipResume r => Sys2Proof.Machine.execZipResume r s
  | .zipReset r => Sys2Proof.Machine.execZipReset r s
  | .zipQuery r => Sys2Proof.Machine.execZipQuery r s
  | .zipJobEnd t c fault => Sys2Proof.Machine.execZipJobEnd t c fault s
  | .dspPartition r => Sys2Proof.Machine.execDspPartition r s
  | .dspLoad r => Sys2Proof.Machine.execDspLoad r s
  | .dspLoadDone t slot => Sys2Proof.Machine.execDspLoadDone t slot s
  | .dspQuery r => Sys2Proof.Machine.execDspQuery r s
  | .dspStatus r => Sys2Proof.Machine.execDspStatus r s
  | .imageActivate t => Sys2Proof.Machine.execImageActivate t s
  | .itemCtrlDone t b p => Sys2Proof.Machine.execItemCtrlDone t b p s
  | .enqGo t b p => Sys2Proof.Machine.execEnqGo t b p s
  | .doorbellWrite t b p pos => Sys2Proof.Machine.execDoorbellWrite t b p pos s
  | .intPendClear t b p v => Sys2Proof.Machine.execIntPendClear t b p v s
  | .dmaCtrlGo t b p ch irq => Sys2Proof.Machine.execDmaCtrlGo t b p ch irq s
  | .dmaDone t b p ch failing => Sys2Proof.Machine.execDmaDone t b p ch failing s
  | .dmaStatClear t b p ch clearDone clearErr => Sys2Proof.Machine.execDmaStatClear t b p ch clearDone clearErr s
  | .interruptEntry t b p => Sys2Proof.Machine.execInterruptEntry t b p s
  | .yarrowNop t b p w => Sys2Proof.Machine.execYarrowNop t b p w s
  | .yarrowMpy t b p w => Sys2Proof.Machine.execYarrowMpy t b p w s
  | .yarrowMac t b p w => Sys2Proof.Machine.execYarrowMac t b p w s
  | .yarrowMsu t b p w => Sys2Proof.Machine.execYarrowMsu t b p w s
  | .yarrowQmpy t b p w => Sys2Proof.Machine.execYarrowQmpy t b p w s
  | .yarrowQmac t b p w => Sys2Proof.Machine.execYarrowQmac t b p w s
  | .yarrowCmpy t b p w => Sys2Proof.Machine.execYarrowCmpy t b p w s
  | .yarrowFtap t b p w => Sys2Proof.Machine.execYarrowFtap t b p w s
  | .yarrowMacm t b p w => Sys2Proof.Machine.execYarrowMacm t b p w s
  | .yarrowAddAcc t b p w => Sys2Proof.Machine.execYarrowAddAcc t b p w s
  | .yarrowSubAcc t b p w => Sys2Proof.Machine.execYarrowSubAcc t b p w s
  | .yarrowAddx t b p w => Sys2Proof.Machine.execYarrowAddx t b p w s
  | .yarrowSubx t b p w => Sys2Proof.Machine.execYarrowSubx t b p w s
  | .yarrowNeg t b p w => Sys2Proof.Machine.execYarrowNeg t b p w s
  | .yarrowAbs t b p w => Sys2Proof.Machine.execYarrowAbs t b p w s
  | .yarrowClr t b p w => Sys2Proof.Machine.execYarrowClr t b p w s
  | .yarrowMova t b p w => Sys2Proof.Machine.execYarrowMova t b p w s
  | .yarrowAsh t b p w => Sys2Proof.Machine.execYarrowAsh t b p w s
  | .yarrowAshb t b p w => Sys2Proof.Machine.execYarrowAshb t b p w s
  | .yarrowTst t b p w => Sys2Proof.Machine.execYarrowTst t b p w s
  | .yarrowCfold t b p w => Sys2Proof.Machine.execYarrowCfold t b p w s
  | .yarrowBfly t b p w => Sys2Proof.Machine.execYarrowBfly t b p w s
  | .yarrowNorm t b p w => Sys2Proof.Machine.execYarrowNorm t b p w s
  | .yarrowCvt t b p w => Sys2Proof.Machine.execYarrowCvt t b p w s
  | .yarrowBexpX t b p w => Sys2Proof.Machine.execYarrowBexpX t b p w s
  | .yarrowBexpAcc t b p w => Sys2Proof.Machine.execYarrowBexpAcc t b p w s
  | .yarrowBexpq t b p w => Sys2Proof.Machine.execYarrowBexpq t b p w s
  | .yarrowAddX t b p w => Sys2Proof.Machine.execYarrowAddX t b p w s
  | .yarrowSubX t b p w => Sys2Proof.Machine.execYarrowSubX t b p w s
  | .yarrowCmp t b p w => Sys2Proof.Machine.execYarrowCmp t b p w s
  | .yarrowAnd t b p w => Sys2Proof.Machine.execYarrowAnd t b p w s
  | .yarrowOr t b p w => Sys2Proof.Machine.execYarrowOr t b p w s
  | .yarrowXor t b p w => Sys2Proof.Machine.execYarrowXor t b p w s
  | .yarrowLsl t b p w => Sys2Proof.Machine.execYarrowLsl t b p w s
  | .yarrowAsr t b p w => Sys2Proof.Machine.execYarrowAsr t b p w s
  | .yarrowLsr t b p w => Sys2Proof.Machine.execYarrowLsr t b p w s
  | .yarrowMove t b p w => Sys2Proof.Machine.execYarrowMove t b p w s
  | .yarrowMovei16 t b p w => Sys2Proof.Machine.execYarrowMovei16 t b p w s
  | .yarrowMovei24 t b p w w2 => Sys2Proof.Machine.execYarrowMovei24 t b p w w2 s
  | .yarrowLdXDirect t b p w => Sys2Proof.Machine.execYarrowLdXDirect t b p w s
  | .yarrowLdXLong t b p w w2 => Sys2Proof.Machine.execYarrowLdXLong t b p w w2 s
  | .yarrowLdYDirect t b p w => Sys2Proof.Machine.execYarrowLdYDirect t b p w s
  | .yarrowLdYLong t b p w w2 => Sys2Proof.Machine.execYarrowLdYLong t b p w w2 s
  | .yarrowStXDirect t b p w => Sys2Proof.Machine.execYarrowStXDirect t b p w s
  | .yarrowStXLong t b p w w2 => Sys2Proof.Machine.execYarrowStXLong t b p w w2 s
  | .yarrowStYDirect t b p w => Sys2Proof.Machine.execYarrowStYDirect t b p w s
  | .yarrowStYLong t b p w w2 => Sys2Proof.Machine.execYarrowStYLong t b p w w2 s
  | .yarrowLdXIndexed t b p w => Sys2Proof.Machine.execYarrowLdXIndexed t b p w s
  | .yarrowLdYIndexed t b p w => Sys2Proof.Machine.execYarrowLdYIndexed t b p w s
  | .yarrowStXIndexed t b p w => Sys2Proof.Machine.execYarrowStXIndexed t b p w s
  | .yarrowStYIndexed t b p w => Sys2Proof.Machine.execYarrowStYIndexed t b p w s
  | .yarrowModp t b p w => Sys2Proof.Machine.execYarrowModp t b p w s
  | .yarrowBra t b p w => Sys2Proof.Machine.execYarrowBra t b p w s
  | .yarrowCall t b p w => Sys2Proof.Machine.execYarrowCall t b p w s
  | .yarrowJmp t b p w => Sys2Proof.Machine.execYarrowJmp t b p w s
  | .yarrowRti t b p w => Sys2Proof.Machine.execYarrowRti t b p w s
  | .yarrowRepImm t b p w => Sys2Proof.Machine.execYarrowRepImm t b p w s
  | .yarrowRepLc t b p w => Sys2Proof.Machine.execYarrowRepLc t b p w s
  | .tdmSdhSet r => Sys2Proof.Machine.execTdmSdhSet r s
  | .tdmPdhSet r => Sys2Proof.Machine.execTdmPdhSet r s
  | .tdmTribSet r => Sys2Proof.Machine.execTdmTribSet r s
  | .tdmXcSet r => Sys2Proof.Machine.execTdmXcSet r s
  | .tdmBypassSet r => Sys2Proof.Machine.execTdmBypassSet r s
  | .tdmProtSet r => Sys2Proof.Machine.execTdmProtSet r s
  | .tdmProtCmd r => Sys2Proof.Machine.execTdmProtCmd r s
  | .tdmDelete r => Sys2Proof.Machine.execTdmDelete r s
  | .tdmQuery r => Sys2Proof.Machine.execTdmQuery r s
  | .tdmStatus r => Sys2Proof.Machine.execTdmStatus r s
  | .tdmCounters r => Sys2Proof.Machine.execTdmCounters r s
  | .tdmCas r => Sys2Proof.Machine.execTdmCas r s
  | .lineSettingApply t => Sys2Proof.Machine.execLineSettingApply t s
  | .sdhFrameReceive t port f => Sys2Proof.Machine.execSdhFrameReceive t port f s
  | .e1FrameReceive t e v => Sys2Proof.Machine.execE1FrameReceive t e v s
  | .t1FrameReceive t n v => Sys2Proof.Machine.execT1FrameReceive t n v s
  | .crc4MultiframeTimeout t e => Sys2Proof.Machine.execCrc4MultiframeTimeout t e s
  | .losInput t line on => Sys2Proof.Machine.execLosInput t line on s
  | .tdmInternalFrame t => Sys2Proof.Machine.execTdmInternalFrame t s
  | .tdmMemoryError t e => Sys2Proof.Machine.execTdmMemoryError t e s
  | .protAlignSearch t w m => Sys2Proof.Machine.execProtAlignSearch t w m s
  | .protAlignRecheck t w m => Sys2Proof.Machine.execProtAlignRecheck t w m s
  | .protHoldoffExpiry t w => Sys2Proof.Machine.execProtHoldoffExpiry t w s
  | .waitToRestoreExpiry t w => Sys2Proof.Machine.execWaitToRestoreExpiry t w s
  | .sdSecond t => Sys2Proof.Machine.execSdSecond t s
  | .tdmCounterLatch t => Sys2Proof.Machine.execTdmCounterLatch t s
  | .netPortSet r => Sys2Proof.Machine.execNetPortSet r s
  | .netPairSet r => Sys2Proof.Machine.execNetPairSet r s
  | .netClassSet r => Sys2Proof.Machine.execNetClassSet r s
  | .netQuery r => Sys2Proof.Machine.execNetQuery r s
  | .netTsRead r => Sys2Proof.Machine.execNetTsRead r s
  | .netSynceSet r => Sys2Proof.Machine.execNetSynceSet r s
  | .netStats r => Sys2Proof.Machine.execNetStats r s
  | .portSettingApply t => Sys2Proof.Machine.execPortSettingApply t s
  | .linkUpHoldExpiry t p => Sys2Proof.Machine.execLinkUpHoldExpiry t p s
  | .linkLoss t p cause => Sys2Proof.Machine.execLinkLoss t p cause s
  | .supervisionFrameSend t n => Sys2Proof.Machine.execSupervisionFrameSend t n s
  | .nodeEntryAgeOut t => Sys2Proof.Machine.execNodeEntryAgeOut t s
  | .netLanFault t p => Sys2Proof.Machine.execNetLanFault t p s
  | .netRingOpen t n => Sys2Proof.Machine.execNetRingOpen t n s
  | .timeStatus r => Sys2Proof.Machine.execTimeStatus r s
  | .timeSet r => Sys2Proof.Machine.execTimeSet r s
  | .timeSetArmedApply => Sys2Proof.Machine.execTimeSetArmedApply s
  | .timeAdjust r => Sys2Proof.Machine.execTimeAdjust r s
  | .slewEnd t => Sys2Proof.Machine.execSlewEnd t s
  | .timeServoSet r => Sys2Proof.Machine.execTimeServoSet r s
  | .timePtpSet r => Sys2Proof.Machine.execTimePtpSet r s
  | .timePinsSet r => Sys2Proof.Machine.execTimePinsSet r s
  | .timeLaunchSet r => Sys2Proof.Machine.execTimeLaunchSet r s
  | .timeStats r => Sys2Proof.Machine.execTimeStats r s
  | .ppsInEdge t rising => Sys2Proof.Machine.execPpsInEdge t rising s
  | .ptpMeasurement t m => Sys2Proof.Machine.execPtpMeasurement t m s
  | .ptpMessageReceive t m => Sys2Proof.Machine.execPtpMessageReceive t m s
  | .freqMeasurement t f => Sys2Proof.Machine.execFreqMeasurement t f s
  | .ppsInLost t => Sys2Proof.Machine.execPpsInLost t s
  | .ptpSourceLost t => Sys2Proof.Machine.execPtpSourceLost t s
  | .holdoverLimitExpiry t => Sys2Proof.Machine.execHoldoverLimitExpiry t s
  | .ppsOutPulse t => Sys2Proof.Machine.execPpsOutPulse t s
  | .ppsOutPulseEnd t => Sys2Proof.Machine.execPpsOutPulseEnd t s
  | .timedQueueEnqueue t port f => Sys2Proof.Machine.execTimedQueueEnqueue t port f s
  | .timedLaunch t port => Sys2Proof.Machine.execTimedLaunch t port s
  | .hspSet r => Sys2Proof.Machine.execHspSet r s
  | .hspQuery r => Sys2Proof.Machine.execHspQuery r s
  | .hspStats r => Sys2Proof.Machine.execHspStats r s
  | .hspInTailWrite h v => Sys2Proof.Machine.execHspInTailWrite h v s
  | .hspOutTailWrite h v => Sys2Proof.Machine.execHspOutTailWrite h v s
  | .hspSizeWrite h out v => Sys2Proof.Machine.execHspSizeWrite h out v s
  | .hspErrClear h v => Sys2Proof.Machine.execHspErrClear h v s
  | .hspInboundFetch t h poisoned => Sys2Proof.Machine.execHspInboundFetch t h poisoned s
  | .hspOutboundWrite t h poisoned => Sys2Proof.Machine.execHspOutboundWrite t h poisoned s
  | .hspVectorSend t h => Sys2Proof.Machine.execHspVectorSend t h s
  | .fifoWrite t h out w last => Sys2Proof.Machine.execFifoWrite t h out w last s
  | .fifoRead t h out upset => Sys2Proof.Machine.execFifoRead t h out upset s
  | .memStatus r => Sys2Proof.Machine.execMemStatus r s
  | .memMap r => Sys2Proof.Machine.execMemMap r s
  | .memRegions r => Sys2Proof.Machine.execMemRegions r s
  | .memScrub r => Sys2Proof.Machine.execMemScrub r s
  | .memErrors r => Sys2Proof.Machine.execMemErrors r s
  | .memInject r => Sys2Proof.Machine.execMemInject r s
  | .dramRequest t ctl arrivals err => Sys2Proof.Machine.execDramRequest t ctl arrivals err s
  | .refreshInterval t rank => Sys2Proof.Machine.execRefreshInterval t rank s
  | .dramRefresh t rank => Sys2Proof.Machine.execDramRefresh t rank s
  | .mr4Poll t hot => Sys2Proof.Machine.execMr4Poll t hot s
  | .zqCalibration t rank => Sys2Proof.Machine.execZqCalibration t rank s
  | .dqsRecentre t => Sys2Proof.Machine.execDqsRecentre t s
  | .patrolScrub t err => Sys2Proof.Machine.execPatrolScrub t err s
  | .rankPowerDown t rank => Sys2Proof.Machine.execRankPowerDown t rank s
  | .dramTraining t r => Sys2Proof.Machine.execDramTraining t r s
  | .pwrStatus r => Sys2Proof.Machine.execPwrStatus r s
  | .pwrSet r => Sys2Proof.Machine.execPwrSet r s
  | .pwrQuery r => Sys2Proof.Machine.execPwrQuery r s
  | .pwrState r => Sys2Proof.Machine.execPwrState r s
  | .pwrThermalSet r => Sys2Proof.Machine.execPwrThermalSet r s
  | .powerDownDelayExpiry t => Sys2Proof.Machine.execPowerDownDelayExpiry t s
  | .wakeNAssert t low => Sys2Proof.Machine.execWakeNAssert t low s
  | .deepSleepTimedWake t => Sys2Proof.Machine.execDeepSleepTimedWake t s
  | .sleepWakeAccess t a => Sys2Proof.Machine.execSleepWakeAccess t a s
  | .powerGood t mv => Sys2Proof.Machine.execPowerGood t mv s
  | .dvfsTimeout t => Sys2Proof.Machine.execDvfsTimeout t s
  | .domainIdleOff t b => Sys2Proof.Machine.execDomainIdleOff t b s
  | .domainWake t b => Sys2Proof.Machine.execDomainWake t b s
  | .domainReady t b => Sys2Proof.Machine.execDomainReady t b s
  | .pllLossOfLock t p => Sys2Proof.Machine.execPllLossOfLock t p s
  | .pllLock t p => Sys2Proof.Machine.execPllLock t p s
  | .thermalSample t temps => Sys2Proof.Machine.execThermalSample t temps s
  | .porstNAssert t low => Sys2Proof.Machine.execPorstNAssert t low s
  | .porstNRelease t b => Sys2Proof.Machine.execPorstNRelease t b s
  | .wrstNAssert t low => Sys2Proof.Machine.execWrstNAssert t low s
  | .wrstNRelease t imageOk => Sys2Proof.Machine.execWrstNRelease t imageOk s
  | .watchdogExpiry t => Sys2Proof.Machine.execWatchdogExpiry t s
  | .perstNAssert t => Sys2Proof.Machine.execPerstNAssert t s
  | .perstNRelease t => Sys2Proof.Machine.execPerstNRelease t s
  | .pcieHotReset t => Sys2Proof.Machine.execPcieHotReset t s
  | .pcieLinkDown t => Sys2Proof.Machine.execPcieLinkDown t s
  | .pcieLinkUp t rate width => Sys2Proof.Machine.execPcieLinkUp t rate width s
  | .otpLoadEnd t crcOk => Sys2Proof.Machine.execOtpLoadEnd t crcOk s
  | .blockRelease t b => Sys2Proof.Machine.execBlockRelease t b s
  | .deviceReady t => Sys2Proof.Machine.execDeviceReady t s
  | .bootStatus r => Sys2Proof.Machine.execBootStatus r s
  | .bootPcieSet r => Sys2Proof.Machine.execBootPcieSet r s
  | .bootBlockReset r => Sys2Proof.Machine.execBootBlockReset r s
  | .blockResetDone t b => Sys2Proof.Machine.execBlockResetDone t b s
  | .bootSelftestUnitEnd t b r => Sys2Proof.Machine.execBootSelftestUnitEnd t b r s
  | .testRun r => Sys2Proof.Machine.execTestRun r s
  | .testRunEnd t b r => Sys2Proof.Machine.execTestRunEnd t b r s
  | .healthMapWrite t ok => Sys2Proof.Machine.execHealthMapWrite t ok s
  | .testReport r => Sys2Proof.Machine.execTestReport r s
  | .testHealth r => Sys2Proof.Machine.execTestHealth r s
  | .testHealthClear r => Sys2Proof.Machine.execTestHealthClear r s
  | .mgmtStatus r => Sys2Proof.Machine.execMgmtStatus r s
  | .mgmtSensors r => Sys2Proof.Machine.execMgmtSensors r s
  | .mgmtLogRead r => Sys2Proof.Machine.execMgmtLogRead r s
  | .mgmtConfig r => Sys2Proof.Machine.execMgmtConfig r s
  | .mgmtFwWrite r => Sys2Proof.Machine.execMgmtFwWrite r s
  | .fwWriteDone t slot readBack => Sys2Proof.Machine.execFwWriteDone t slot readBack s
  | .mgmtFwActivate r => Sys2Proof.Machine.execMgmtFwActivate r s
  | .mgmtFwConfirm r => Sys2Proof.Machine.execMgmtFwConfirm r s
  | .mgmtLifecycle r => Sys2Proof.Machine.execMgmtLifecycle r s
  | .mgmtOtpWrite r => Sys2Proof.Machine.execMgmtOtpWrite r s
  | .mgmtBehaviour r => Sys2Proof.Machine.execMgmtBehaviour r s
  | .voltageSample t mv => Sys2Proof.Machine.execVoltageSample t mv s
  | .logMirrorWrite t ok => Sys2Proof.Machine.execLogMirrorWrite t ok s
  | .logMirrorRetry t ok => Sys2Proof.Machine.execLogMirrorRetry t ok s
  | .trialReadyTimeout t => Sys2Proof.Machine.execTrialReadyTimeout t s
  | .uartImageReceive t image => Sys2Proof.Machine.execUartImageReceive t image s
  | .uartRxGapTimeout t => Sys2Proof.Machine.execUartRxGapTimeout t s
  | .pcieConfigAccess t a => Sys2Proof.Machine.execPcieConfigAccess t a s
  | .sdhTransitionLoss t port => Sys2Proof.Machine.execSdhTransitionLoss t port s
  | .ptpMessageSend t m => Sys2Proof.Machine.execPtpMessageSend t m s
  | .refclkLockHeld t => Sys2Proof.Machine.execRefclkLockHeld t s
  | .powerSupplyLoss t => Sys2Proof.Machine.execPowerSupplyLoss t s

end Sys2Proof.Machine
end

