-- ==== Sys2Proof/WellFormed.lean ====
section
/-! DEFINITION. Which commands are well formed: operands that a host or the hardware can form. Every meaning is total, well formed or not. -/

namespace Sys2Proof

/-- The request of a Senak command; none for an event. -/
def Instr.request : Instr → Option Request
  | .sysNop r | .sysInfo r | .sysReset r | .sysQuiesce r | .sysEventMask r | .sysStats r
  | .genStatus r | .genCommit r | .genRollback r | .genDiscard r | .genCancel r | .genSnapshot r
  | .schedStatus r | .schedStats r | .schedFlow r | .faultStatus r | .faultStats r | .faultInject r
  | .legSet r | .legDelete r | .legQuery r | .legStats r | .legDetector r | .legTonePlay r
  | .legToneStop r | .confSet r | .confDelete r | .confQuery r | .confMember r | .confRemove r
  | .confMembers r | .confStatus r | .routeSet r | .routeDelete r | .routeList r | .routeSapSet r
  | .routeSapQuery r | .vidSet r | .vidDelete r | .vidQuery r | .vidStats r | .vidKeyframe r
  | .vidParamsets r | .vidGrab r | .layoutSet r | .layoutLayer r | .layoutImage r | .layoutScaler r
  | .layoutGamma r | .layoutDelete r | .layoutQuery r | .outSet r | .outRegion r | .outDelete r
  | .outQuery r | .outStats r | .outSignatures r | .fwdRelaySet r | .fwdSubSet r | .fwdLineSet r
  | .fwdPolicerSet r | .fwdQueueSet r | .fwdColourMap r | .fwdDelete r | .fwdQuery r | .fwdSubStats r
  | .fwdPortStats r | .keyStatus r | .keyInstall r | .keyErase r | .keyQuery r | .keyBind r
  | .keyDerive r | .keyCrypt r | .keyQueues r | .keyStats r | .recConfig r | .recSelect r
  | .recQuery r | .recStatus r | .recRead r | .recRelease r | .recVerify r | .recMark r
  | .recClear r | .zipStart r | .zipResume r | .zipReset r | .zipQuery r | .dspPartition r
  | .dspLoad r | .dspQuery r | .dspStatus r | .tdmSdhSet r | .tdmPdhSet r | .tdmTribSet r
  | .tdmXcSet r | .tdmBypassSet r | .tdmProtSet r | .tdmProtCmd r | .tdmDelete r | .tdmQuery r
  | .tdmStatus r | .tdmCounters r | .tdmCas r | .netPortSet r | .netPairSet r | .netClassSet r
  | .netQuery r | .netTsRead r | .netSynceSet r | .netStats r | .timeStatus r | .timeSet r
  | .timeAdjust r | .timeServoSet r | .timePtpSet r | .timePinsSet r | .timeLaunchSet r | .timeStats r
  | .hspSet r | .hspQuery r | .hspStats r | .memStatus r | .memMap r | .memRegions r
  | .memScrub r | .memErrors r | .memInject r | .pwrStatus r | .pwrSet r | .pwrQuery r
  | .pwrState r | .pwrThermalSet r | .bootStatus r | .bootPcieSet r | .bootBlockReset r | .testRun r
  | .testReport r | .testHealth r | .testHealthClear r | .mgmtStatus r | .mgmtSensors r | .mgmtLogRead r
  | .mgmtConfig r | .mgmtFwWrite r | .mgmtFwActivate r | .mgmtFwConfirm r | .mgmtLifecycle r | .mgmtOtpWrite r
  | .mgmtBehaviour r => some r
  | _ => none

/-- A request as a slot of 1 KiB holds it: 16 reserved bytes, at most 992 bytes of parameters (R52). -/
def Request.wf (r : Request) : Bool := r.rsv.length == 16 && r.params.length ≤ 992

/-- A BAR2 access lies in the window of 1 GiB and moves at least a byte (R49, R50). -/
def Bar2.wf : Bar2 → Bool
  | .read off n => 0 < n && off + n ≤ 2 ^ 30
  | .write off d => !d.isEmpty && off + d.length ≤ 2 ^ 30

/-- Commands with operands in their ranges: requests as slots hold them, accesses inside BAR0 (R45) and BAR2, descriptors of 32 bytes
(R114), lines of 64 bytes (R571), one reading of each of 16 sensors (R602). -/
def Instr.wf (i : Instr) : Bool :=
  match i with
  | .bar0RegisterWrite off d => !d.isEmpty && off + d.length ≤ 0x1000000
  | .bar0ReadDomainNotReady _ r => 0 < r.n && r.off + r.n ≤ 0x1000000
  | .bar2Access a => a.wf
  | .workItemEnqueue _ e => e.desc.length == 32
  | .dramRequest _ _ l _ => l.all fun a => match a.write with
    | some d => d.length == 64
    | none => true
  | .thermalSample _ l => l.length == 16
  | _ => match i.request with
    | some r => r.wf
    | none => true

end Sys2Proof
end

