-- ==== Sys2Proof/Safety.lean ====
section
/-! DEFINITION. The terms that the statements use: safe states, what a command's answer is, and what completing one leaves alone. -/

namespace Sys2Proof.Machine

/-- The three addressed memories (the mailbox slots, host memory, DRAM) are in their canonical form. -/
def State.memWf (s : State) : Bool := s.rt.dram.mem.wf && s.senak.slots.wf && s.hostMem.wf

/-- A state is safe where every addressed memory is canonical. -/
def Safe (s : State) : Prop := s.memWf = true

/-! Senak commands. -/

/-- Bytes 0x00 to 0x1F of a response (R53). -/
def responseHeader (r : Request) (seq gen : Nat) (st : Status) (detail : Nat) (data : Bytes) : Bytes :=
  le 2 detail ++ le 2 st.code ++ le 4 r.hostSeq.toNat ++ le 4 gen ++ le 4 data.length ++ le 4 seq ++ zeros 12

/-- From state s to state t a command is answered: header and data stand in its slot, every other byte of the slots is as
before, BUSY is clear and DONE set, and the other slots' bits are as before (R53, R57). -/
structure Answered (r : Request) (seq gen : Nat) (st : Status) (detail : Nat) (data : Bytes) (s t : State) : Prop where
  headerAt : memRead t.senak.slots (r.slot.val * 1024) 32 = responseHeader r seq gen st detail data
  dataAt : memRead t.senak.slots (r.slot.val * 1024 + 0x20) data.length = data
  others : ∀ a, (a < r.slot.val * 1024 ∨ r.slot.val * 1024 + 0x20 + data.length ≤ a) → memGet t.senak.slots a = memGet s.senak.slots a
  busyAt : t.senak.busy = s.senak.busy &&& ~~~(1#64 <<< r.slot.val)
  doneAt : t.senak.done = s.senak.done ||| (1#64 <<< r.slot.val)

/-- State t is state u but for what completing any command may change: the slots with their BUSY and DONE bits, the SYS.STATS
counters, the events (queue, log and DEV_FAULT) and the vectors (pending bits and messages sent). -/
def Beside (u t : State) : Prop :=
  t = { u with
    wire := t.wire
    senak := { u.senak with
      slots := t.senak.slots, busy := t.senak.busy, done := t.senak.done, stats := t.senak.stats, evq := t.senak.evq
      devFault := t.senak.devFault, pcie := { u.senak.pcie with pba := t.senak.pcie.pba } }
    rt := { u.rt with mgmt := { u.rt.mgmt with log := t.rt.mgmt.log, logNext := t.rt.mgmt.logNext } } }

/-- The state that a command which passes its checks acts on: it is taken, and the block it depends on is awake. -/
def Cmd.acting (c : Cmd) (r : Request) (s : State) : State := c.demand (startCmd r s)

/-- The generation field of the answer: 0 outside the generation model, otherwise the generation acted on (R53, R59). -/
def Cmd.reported (c : Cmd) (r : Request) (s : State) : Nat := if c.gmode = .outside then 0 else (c.genOf r s).number

/-- A row of the table is one command of Senak: from every state in which its checks pass (and, for a command that answers
PENDING, fewer than 16 are pending), and where Q holds of the request and the state acted on, the row answers a next state in
which the command is answered with that status and data that D describes, and everything else is as U gives it. -/
def Completes (c : Cmd) (row : Request → Instr) (st : Status) (Q : Request → State → Prop)
    (U : Request → State → State) (D : Request → Generation → State → Bytes → Prop) : Prop :=
  ∀ (r : Request) (s : State), Safe s → c.passes r s = true → (st = .pending → s.senak.pending.length < 16) → Q r (c.acting r s) →
    ∃ data t, exec (row r) s = .next t ∧ Answered r s.senak.nextSeq (c.reported r s) st 0 data s t ∧
      D r (c.genOf r s) (c.acting r s) data ∧ Beside (U r (c.acting r s)) t

/-- No condition beyond the checks. -/
def Always (_ : Request) (_ : State) : Prop := True

/-- A command that changes nothing of its own. -/
def Nothing (_ : Request) (s : State) : State := s

/-- A command that answers no data. -/
def NoData (_ : Request) (_ : Generation) (_ : State) (data : Bytes) : Prop := data = []

/-- The staged generation changed by f: its number stays, and the change is counted up to 2^32 - 1 (R88, R106). -/
def stagedBy (f : Generation → Generation) (s : State) : State :=
  { s with gens := { s.gens with staged :=
      { f s.gens.staged with number := s.gens.staged.number, changes := Nat.min 4294967295 (s.gens.staged.changes + 1) } } }

/-- The command has joined the pending commands (R60). -/
def joined (code obj : Nat) (r : Request) (s : State) : State :=
  { s with senak := { s.senak with pending := s.senak.pending ++
      [{ code := code, obj := obj, slot := r.slot.val, hostSeq := r.hostSeq.toNat, params := r.params }] } }

/-- The row changes the staged generation by f and nothing else. -/
def Stages (c : Cmd) (row : Request → Instr) (f : Request → Generation → Generation) : Prop :=
  Completes c row .ok Always (fun r => stagedBy (f r)) NoData

/-- The row answers d and changes nothing. -/
def Tells (c : Cmd) (row : Request → Instr) (d : Request → Generation → State → Bytes) : Prop :=
  Completes c row .ok Always Nothing fun r g s data => data = d r g s

/-- The row answers d and, where its clear flag asks, clears what it reported as u says. -/
def TellsAndClears (c : Cmd) (row : Request → Instr) (clear : Request → Bool) (d : Request → State → Bytes)
    (u : Request → State → State) : Prop :=
  Completes c row .ok Always (fun r s => if clear r then u r s else s) fun r _ s data => data = d r s

/-- The row answers no data and changes what u says. -/
def Acts (c : Cmd) (row : Request → Instr) (u : Request → State → State) : Prop := Completes c row .ok Always u NoData

/-- The row answers PENDING and no data, joins the pending commands under a code and object, and changes what u says. -/
def Defers (c : Cmd) (row : Request → Instr) (code : Nat) (obj : Request → Nat) (u : Request → State → State) : Prop :=
  Completes c row .pending Always (fun r s => joined code (obj r) r (u r s)) NoData

/-- The rows of the table that are commands of Senak, each with its command. -/
inductive SenakRow : Cmd → (Request → Instr) → Prop where
  | sysNop : SenakRow cmdSysNop .sysNop
  | sysInfo : SenakRow cmdSysInfo .sysInfo
  | sysReset : SenakRow cmdSysReset .sysReset
  | sysQuiesce : SenakRow cmdSysQuiesce .sysQuiesce
  | sysEventMask : SenakRow cmdSysEventMask .sysEventMask
  | sysStats : SenakRow cmdSysStats .sysStats
  | genStatus : SenakRow cmdGenStatus .genStatus
  | genCommit : SenakRow cmdGenCommit .genCommit
  | genRollback : SenakRow cmdGenRollback .genRollback
  | genDiscard : SenakRow cmdGenDiscard .genDiscard
  | genCancel : SenakRow cmdGenCancel .genCancel
  | genSnapshot : SenakRow cmdGenSnapshot .genSnapshot
  | schedStatus : SenakRow cmdSchedStatus .schedStatus
  | schedStats : SenakRow cmdSchedStats .schedStats
  | schedFlow : SenakRow cmdSchedFlow .schedFlow
  | faultStatus : SenakRow cmdFaultStatus .faultStatus
  | faultStats : SenakRow cmdFaultStats .faultStats
  | faultInject : SenakRow cmdFaultInject .faultInject
  | legSet : SenakRow cmdLegSet .legSet
  | legDelete : SenakRow cmdLegDelete .legDelete
  | legQuery : SenakRow cmdLegQuery .legQuery
  | legStats : SenakRow cmdLegStats .legStats
  | legDetector : SenakRow cmdLegDetector .legDetector
  | legTonePlay : SenakRow cmdLegTonePlay .legTonePlay
  | legToneStop : SenakRow cmdLegToneStop .legToneStop
  | confSet : SenakRow cmdConfSet .confSet
  | confDelete : SenakRow cmdConfDelete .confDelete
  | confQuery : SenakRow cmdConfQuery .confQuery
  | confMember : SenakRow cmdConfMember .confMember
  | confRemove : SenakRow cmdConfRemove .confRemove
  | confMembers : SenakRow cmdConfMembers .confMembers
  | confStatus : SenakRow cmdConfStatus .confStatus
  | routeSet : SenakRow cmdRouteSet .routeSet
  | routeDelete : SenakRow cmdRouteDelete .routeDelete
  | routeList : SenakRow cmdRouteList .routeList
  | routeSapSet : SenakRow cmdRouteSapSet .routeSapSet
  | routeSapQuery : SenakRow cmdRouteSapQuery .routeSapQuery
  | vidSet : SenakRow cmdVidSet .vidSet
  | vidDelete : SenakRow cmdVidDelete .vidDelete
  | vidQuery : SenakRow cmdVidQuery .vidQuery
  | vidStats : SenakRow cmdVidStats .vidStats
  | vidKeyframe : SenakRow cmdVidKeyframe .vidKeyframe
  | vidParamsets : SenakRow cmdVidParamsets .vidParamsets
  | vidGrab : SenakRow cmdVidGrab .vidGrab
  | layoutSet : SenakRow cmdLayoutSet .layoutSet
  | layoutLayer : SenakRow cmdLayoutLayer .layoutLayer
  | layoutImage : SenakRow cmdLayoutImage .layoutImage
  | layoutScaler : SenakRow cmdLayoutScaler .layoutScaler
  | layoutGamma : SenakRow cmdLayoutGamma .layoutGamma
  | layoutDelete : SenakRow cmdLayoutDelete .layoutDelete
  | layoutQuery : SenakRow cmdLayoutQuery .layoutQuery
  | outSet : SenakRow cmdOutSet .outSet
  | outRegion : SenakRow cmdOutRegion .outRegion
  | outDelete : SenakRow cmdOutDelete .outDelete
  | outQuery : SenakRow cmdOutQuery .outQuery
  | outStats : SenakRow cmdOutStats .outStats
  | outSignatures : SenakRow cmdOutSignatures .outSignatures
  | fwdRelaySet : SenakRow cmdFwdRelaySet .fwdRelaySet
  | fwdSubSet : SenakRow cmdFwdSubSet .fwdSubSet
  | fwdLineSet : SenakRow cmdFwdLineSet .fwdLineSet
  | fwdPolicerSet : SenakRow cmdFwdPolicerSet .fwdPolicerSet
  | fwdQueueSet : SenakRow cmdFwdQueueSet .fwdQueueSet
  | fwdColourMap : SenakRow cmdFwdColourMap .fwdColourMap
  | fwdDelete : SenakRow cmdFwdDelete .fwdDelete
  | fwdQuery : SenakRow cmdFwdQuery .fwdQuery
  | fwdSubStats : SenakRow cmdFwdSubStats .fwdSubStats
  | fwdPortStats : SenakRow cmdFwdPortStats .fwdPortStats
  | keyStatus : SenakRow cmdKeyStatus .keyStatus
  | keyInstall : SenakRow cmdKeyInstall .keyInstall
  | keyErase : SenakRow cmdKeyErase .keyErase
  | keyQuery : SenakRow cmdKeyQuery .keyQuery
  | keyBind : SenakRow cmdKeyBind .keyBind
  | keyDerive : SenakRow cmdKeyDerive .keyDerive
  | keyCrypt : SenakRow cmdKeyCrypt .keyCrypt
  | keyQueues : SenakRow cmdKeyQueues .keyQueues
  | keyStats : SenakRow cmdKeyStats .keyStats
  | recConfig : SenakRow cmdRecConfig .recConfig
  | recSelect : SenakRow cmdRecSelect .recSelect
  | recQuery : SenakRow cmdRecQuery .recQuery
  | recStatus : SenakRow cmdRecStatus .recStatus
  | recRead : SenakRow cmdRecRead .recRead
  | recRelease : SenakRow cmdRecRelease .recRelease
  | recVerify : SenakRow cmdRecVerify .recVerify
  | recMark : SenakRow cmdRecMark .recMark
  | recClear : SenakRow cmdRecClear .recClear
  | zipStart : SenakRow cmdZipStart .zipStart
  | zipResume : SenakRow cmdZipResume .zipResume
  | zipReset : SenakRow cmdZipReset .zipReset
  | zipQuery : SenakRow cmdZipQuery .zipQuery
  | dspPartition : SenakRow cmdDspPartition .dspPartition
  | dspLoad : SenakRow cmdDspLoad .dspLoad
  | dspQuery : SenakRow cmdDspQuery .dspQuery
  | dspStatus : SenakRow cmdDspStatus .dspStatus
  | tdmSdhSet : SenakRow cmdTdmSdhSet .tdmSdhSet
  | tdmPdhSet : SenakRow cmdTdmPdhSet .tdmPdhSet
  | tdmTribSet : SenakRow cmdTdmTribSet .tdmTribSet
  | tdmXcSet : SenakRow cmdTdmXcSet .tdmXcSet
  | tdmBypassSet : SenakRow cmdTdmBypassSet .tdmBypassSet
  | tdmProtSet : SenakRow cmdTdmProtSet .tdmProtSet
  | tdmProtCmd : SenakRow cmdTdmProtCmd .tdmProtCmd
  | tdmDelete : SenakRow cmdTdmDelete .tdmDelete
  | tdmQuery : SenakRow cmdTdmQuery .tdmQuery
  | tdmStatus : SenakRow cmdTdmStatus .tdmStatus
  | tdmCounters : SenakRow cmdTdmCounters .tdmCounters
  | tdmCas : SenakRow cmdTdmCas .tdmCas
  | netPortSet : SenakRow cmdNetPortSet .netPortSet
  | netPairSet : SenakRow cmdNetPairSet .netPairSet
  | netClassSet : SenakRow cmdNetClassSet .netClassSet
  | netQuery : SenakRow cmdNetQuery .netQuery
  | netTsRead : SenakRow cmdNetTsRead .netTsRead
  | netSynceSet : SenakRow cmdNetSynceSet .netSynceSet
  | netStats : SenakRow cmdNetStats .netStats
  | timeStatus : SenakRow cmdTimeStatus .timeStatus
  | timeSet : SenakRow cmdTimeSet .timeSet
  | timeAdjust : SenakRow cmdTimeAdjust .timeAdjust
  | timeServoSet : SenakRow cmdTimeServoSet .timeServoSet
  | timePtpSet : SenakRow cmdTimePtpSet .timePtpSet
  | timePinsSet : SenakRow cmdTimePinsSet .timePinsSet
  | timeLaunchSet : SenakRow cmdTimeLaunchSet .timeLaunchSet
  | timeStats : SenakRow cmdTimeStats .timeStats
  | hspSet : SenakRow cmdHspSet .hspSet
  | hspQuery : SenakRow cmdHspQuery .hspQuery
  | hspStats : SenakRow cmdHspStats .hspStats
  | memStatus : SenakRow cmdMemStatus .memStatus
  | memMap : SenakRow cmdMemMap .memMap
  | memRegions : SenakRow cmdMemRegions .memRegions
  | memScrub : SenakRow cmdMemScrub .memScrub
  | memErrors : SenakRow cmdMemErrors .memErrors
  | memInject : SenakRow cmdMemInject .memInject
  | pwrStatus : SenakRow cmdPwrStatus .pwrStatus
  | pwrSet : SenakRow cmdPwrSet .pwrSet
  | pwrQuery : SenakRow cmdPwrQuery .pwrQuery
  | pwrState : SenakRow cmdPwrState .pwrState
  | pwrThermalSet : SenakRow cmdPwrThermalSet .pwrThermalSet
  | bootStatus : SenakRow cmdBootStatus .bootStatus
  | bootPcieSet : SenakRow cmdBootPcieSet .bootPcieSet
  | bootBlockReset : SenakRow cmdBootBlockReset .bootBlockReset
  | testRun : SenakRow cmdTestRun .testRun
  | testReport : SenakRow cmdTestReport .testReport
  | testHealth : SenakRow cmdTestHealth .testHealth
  | testHealthClear : SenakRow cmdTestHealthClear .testHealthClear
  | mgmtStatus : SenakRow cmdMgmtStatus .mgmtStatus
  | mgmtSensors : SenakRow cmdMgmtSensors .mgmtSensors
  | mgmtLogRead : SenakRow cmdMgmtLogRead .mgmtLogRead
  | mgmtConfig : SenakRow cmdMgmtConfig .mgmtConfig
  | mgmtFwWrite : SenakRow cmdMgmtFwWrite .mgmtFwWrite
  | mgmtFwActivate : SenakRow cmdMgmtFwActivate .mgmtFwActivate
  | mgmtFwConfirm : SenakRow cmdMgmtFwConfirm .mgmtFwConfirm
  | mgmtLifecycle : SenakRow cmdMgmtLifecycle .mgmtLifecycle
  | mgmtOtpWrite : SenakRow cmdMgmtOtpWrite .mgmtOtpWrite
  | mgmtBehaviour : SenakRow cmdMgmtBehaviour .mgmtBehaviour

/-! Rows that are no command of Senak. -/

/-- A request of the host: where it reaches the device it wakes it from Sleep and has its effect, and otherwise none (R612, R690). -/
def Hosted (row : Instr) (f : State → State) : Prop :=
  ∀ s : State, (s.reachable = true → exec row s = .next (f (wakeIfAsleep s))) ∧ (s.reachable = false → exec row s = .next s)

/-- Something that happens at a time: the clocks reach it, and where P holds then it has its effect, otherwise none. -/
def Happens (row : Time → Instr) (P : State → Prop) (f : State → State) : Prop :=
  ∀ (t : Time) (s : State), (P (s.advance t) → exec (row t) s = .next (f (s.advance t))) ∧
    (¬ P (s.advance t) → exec (row t) s = .next (s.advance t))

/-! Instructions of the Yarrow cores. -/

/-- Core k stands at position p of cluster b and executes there, the words are those at its program counter, and neither a delay slot, a
repetition nor a write of a control register waits. -/
structure Issues (words : List Nat) (b p k : Nat) (s : State) : Prop where
  executes : issuing s b p = some k
  fetched : fetches (s.core k) words = true
  straight : (s.core k).delay = none ∧ (s.core k).repeat_ = none
  quiet : (s.core k).ctrlLate = []

/-- What an instruction of core k reads. -/
def State.env (s : State) (b p k : Nat) : Env :=
  { s := s, b := b, p := p, c := s.core k, r := landAll (s.core k).later (s.core k).regs, free := s.free }

/-- The registers of a core with what its last instruction wrote. -/
def Core.landed (c : Core) : Regs := landAll c.late c.regs

/-- The registers that an instruction of a core leaves behind, its own writes apart: the pointers that its moves step stand at once, and
what earlier instructions wrote has landed (R421). -/
def Core.after (ptrs : List (Option (Nat × Word24))) (c : Core) : Regs :=
  landAll (c.late.filter fun w => !w.ptr) (landAll c.later (updatePointers ptrs c.regs))

/-- From s to u core k of cluster b issues an instruction that makes these stores: its banks and its cluster's memory hold them, those to
control registers wait for the next instruction (R421), and everything else of the core but its registers, its program counter and its
pipeline is as before, its program memory as far as its words were known; so are the other cores, Senak, the generations, host memory, DRAM, Clover, replay and the images. A store to a
cluster memory under test is not made (R633). -/
structure Beyond (b k : Nat) (stores : List (Bool × Nat × Word24)) (s u : State) : Prop where
  x : (u.core k).xmem = (stores.filter fun w => w.1 == false && decide (w.2.1 < 0x4000)).foldl (fun m w => wordSet m w.2.1 w.2.2) (s.core k).xmem
  y : (u.core k).ymem = (stores.filter fun w => w.1 && decide (w.2.1 < 0x4000)).foldl (fun m w => wordSet m w.2.1 w.2.2) (s.core k).ymem
  rest : u.core k = { s.core k with
    regs := (u.core k).regs, pc := (u.core k).pc, late := (u.core k).late, later := (u.core k).later, ctrlLate := (u.core k).ctrlLate
    forward := (u.core k).forward, delay := (u.core k).delay, repeat_ := (u.core k).repeat_, recent := (u.core k).recent
    cycles := (u.core k).cycles, xmem := (u.core k).xmem, ymem := (u.core k).ymem, prog := (u.core k).prog }
  known : ∀ a v, mget (s.core k).prog a = some v → mget (u.core k).prog a = some v
  cores : ∀ j, j ≠ k → u.core j = s.core j
  others : u.senak = s.senak ∧ u.gens = s.gens ∧ u.hostMem = s.hostMem ∧ u.rt.dram = s.rt.dram ∧ u.rt.clover = s.rt.clover ∧
    u.rt.fault = s.rt.fault ∧ u.rt.dsp.images = s.rt.dsp.images
  late : (u.core k).ctrlLate = (stores.filter fun w => spaceOf w.1 w.2.1 == some 1).map fun w => (w.2.1 - 0x10000, w.2.2)
  shared : mhas s.rt.test.running (b * 256 + 255) = false → u.rt.test = s.rt.test ∧
    (∀ j, j ≠ b → mget u.rt.dsp.shared j = mget s.rt.dsp.shared j) ∧
    mgetD u.rt.dsp.shared b [] = (stores.filter fun w => spaceOf w.1 w.2.1 == some 2).foldl (fun m w => wordSet m (w.2.1 - 0x20000) w.2.2)
      (mgetD s.rt.dsp.shared b [])
  banks : (∀ w ∈ stores, w.2.1 < 0x4000) → u.rt.dsp.shared = s.rt.dsp.shared ∧ u.rt.test = s.rt.test

/-- The core goes on at an address, in no delay slot and no repetition. -/
def Core.goesTo (pc : Nat) (c : Core) : Prop := c.pc = pc % 16384 ∧ c.delay = none ∧ c.repeat_ = none

/-- A parallel word: with its reserved bits 0 and legal moves, and where Q holds of it, the core goes on at the next word, the moves step
their pointers and make their stores, and the registers end as f gives them from those in which the moves' writes have landed. -/
def Operates (row : Time → Fin 16 → Fin 9 → BitVec 41 → Instr) (op mask : Nat) (Q : Nat → Prop) (f : Env → Nat → Regs → Regs) : Prop :=
  ∀ (t : Time) (b : Fin 16) (p : Fin 9) (w : BitVec 41) (k : Nat) (m : List Word24 × List Word24 × Eff) (s : State),
    Issues [op * 2 ^ 41 + w.toNat] b.val p.val k s → bits w.toNat 40 28 &&& mask = bits w.toNat 40 28 → Q w.toNat →
    ((s.advance t).env b.val p.val k).moves w.toNat = some m →
    ∃ u, exec (row t b p w) s = .next u ∧ (u.core k).goesTo ((s.core k).pc + 1) ∧ Beyond b.val k m.2.2.stores s u ∧
      (u.core k).regs = (s.core k).after m.2.2.ptrs ∧
      (u.core k).landed = f ((s.advance t).env b.val p.val k) w.toNat (landAll m.2.2.writes (u.core k).regs)

/-- A move that fetches an operand for its operation: a single load with register code 0 (R460). -/
def Move.fetch (m : Move) : Prop := m.kind = 1 ∧ m.store = false ∧ m.reg = 0

/-- A parallel word whose two moves fetch its operands: the registers end as f gives them from those in which the moves' other writes have
landed. -/
def OperatesOn (row : Time → Fin 16 → Fin 9 → BitVec 41 → Instr) (op mask : Nat) (f : Env → Nat → Word24 → Word24 → Regs → Regs) :
    Prop :=
  ∀ (t : Time) (b : Fin 16) (p : Fin 9) (w : BitVec 41) (k : Nat) (c d : Word24) (x y : Move) (e : Eff) (s : State),
    Issues [op * 2 ^ 41 + w.toNat] b.val p.val k s → bits w.toNat 40 28 &&& mask = bits w.toNat 40 28 →
    moveOf (bits w.toNat 27 14) = some (some x) → moveOf (bits w.toNat 13 0) = some (some y) → x.fetch → y.fetch →
    ((s.advance t).env b.val p.val k).moves w.toNat = some ([c, 0], [d, 0], e) →
    ∃ u, exec (row t b p w) s = .next u ∧ (u.core k).goesTo ((s.core k).pc + 1) ∧ Beyond b.val k [] s u ∧
      (u.core k).regs = (s.core k).after e.ptrs ∧
      (u.core k).landed = f ((s.advance t).env b.val p.val k) w.toNat c d
        (landAll (e.writes.filter fun w => match w with
          | .x _ _ => false
          | _ => true) (u.core k).regs)

/-- A general instruction, where its reserved bits are 0 and Q holds: the core makes these stores, and R holds of the core before it and
after it. -/
def Executes (row : Time → Fin 16 → Fin 9 → BitVec 40 → Instr) (op mask : Nat) (Q : Env → Nat → Prop)
    (stores : Env → Nat → List (Bool × Nat × Word24)) (R : Env → Nat → Core → Core → Prop) : Prop :=
  ∀ (t : Time) (b : Fin 16) (p : Fin 9) (w : BitVec 40) (k : Nat) (s : State),
    Issues [2 ^ 47 + op * 2 ^ 40 + w.toNat] b.val p.val k s → w.toNat &&& mask = w.toNat →
    Q ((s.advance t).env b.val p.val k) w.toNat →
    ∃ u, exec (row t b p w) s = .next u ∧ Beyond b.val k (stores ((s.advance t).env b.val p.val k) w.toNat) s u ∧
      R ((s.advance t).env b.val p.val k) w.toNat (s.core k) (u.core k)

/-- A long form, whose second word holds a 24-bit constant. -/
def ExecutesLong (row : Time → Fin 16 → Fin 9 → BitVec 40 → BitVec 48 → Instr) (op : Nat) (Q : Env → Nat → Nat → Prop)
    (stores : Env → Nat → Nat → List (Bool × Nat × Word24)) (R : Env → Nat → Nat → Core → Core → Prop) : Prop :=
  ∀ (t : Time) (b : Fin 16) (p : Fin 9) (w : BitVec 40) (v : BitVec 48) (k : Nat) (s : State),
    Issues [2 ^ 47 + op * 2 ^ 40 + w.toNat, v.toNat] b.val p.val k s → w.toNat % 2 ^ 34 = 0 → v.toNat < 2 ^ 24 →
    Q ((s.advance t).env b.val p.val k) w.toNat v.toNat →
    ∃ u, exec (row t b p w v) s = .next u ∧ Beyond b.val k (stores ((s.advance t).env b.val p.val k) w.toNat v.toNat) s u ∧
      R ((s.advance t).env b.val p.val k) w.toNat v.toNat (s.core k) (u.core k)

/-- From core c to core d an instruction of n words goes on and writes what f says, no pointer stepped. -/
def Core.writes (n : Nat) (f : Regs → Regs) (c d : Core) : Prop := d.goesTo (c.pc + n) ∧ d.regs = c.after [] ∧ d.landed = f d.regs

/-- From core c to core d a branch with two delay slots is under way, to a target or past them; f says what it writes (R455). -/
def Core.branches (target : Option Nat) (f : Regs → Regs) (c d : Core) : Prop :=
  d.pc = (c.pc + 1) % 16384 ∧ d.delay = some (2, target) ∧ d.repeat_ = none ∧ d.regs = c.after [] ∧ d.landed = f d.regs

/-- Registers with Z, N, V and C written, and OVF set where o holds. -/
def Regs.flagged (z n v c o : Bool) (r : Regs) : Regs :=
  { r with sw := (r.sw &&& ~~~15#24) ||| BitVec.ofNat 24 (b2n z + 2 * b2n n + 4 * b2n v + 8 * b2n c + 32 * b2n o) }

/-- Whether a value lies outside an accumulator's 56 bits. -/
def beyond56 (x : Int) : Bool := decide (x < -36028797018963968) || decide (36028797018963968 ≤ x)

/-- Accumulators take sums modulo 2^56; OVF is set where one lies outside 56 bits (R413). -/
def Regs.sums (l : List (Nat × Int)) (r : Regs) : Regs :=
  { r with
    acc := l.foldl (fun a x => a.set x.1 (BitVec.ofInt 56 x.2)) r.acc
    sw := if l.any fun x => beyond56 x.2 then r.sw ||| 32#24 else r.sw }

/-- Accumulator d takes v, the exact result being x: Z and N tell of v, V and OVF whether x is outside 56 bits, C is c (R457). -/
def Regs.takes (d : Nat) (v : Acc) (x : Int) (c : Bool) (r : Regs) : Regs :=
  ({ r with acc := r.acc.set d v } : Regs).flagged (v == 0) v.msb (beyond56 x) c (beyond56 x)

/-- Register Xa takes v: Z and N tell of v (R457). -/
def Regs.takesX (a : Nat) (v : Word24) (o c : Bool) (r : Regs) : Regs :=
  ({ r with x := r.x.set a v } : Regs).flagged (v == 0) v.msb o c false

/-- Accumulator d, which holds a, shifted arithmetically, left for a positive count and right for a negative one; C is the last bit
shifted out (R457, R465). -/
def Regs.shifted (d : Nat) (a : Acc) (n : Int) (r : Regs) : Regs :=
  if 0 ≤ n then r.takes d (a <<< n.toNat) (a.toInt * 2 ^ n.toNat) (decide (0 < n) && a.getLsbD (56 - n.toNat))
  else r.takes d (a.sshiftRight (-n).toNat) 0 (a.getLsbD ((-n).toNat - 1))

/-- Four accumulators' sums modulo 2^56; only V is written of the flags, set with OVF where a sum lies outside 56 bits (R457). -/
def Regs.folds (l : List (Nat × Int)) (r : Regs) : Regs :=
  { r with
    acc := l.foldl (fun a x => a.set x.1 (BitVec.ofInt 56 x.2)) r.acc
    sw := if l.any fun x => beyond56 x.2 then r.sw ||| 36#24 else r.sw &&& ~~~4#24 }

end Sys2Proof.Machine
end

