-- ==== Sys2Proof/Certificates/Slice0/Obligations.lean ====
section
/-! DEFINITION. The statements for the provers. -/

open Sys2Proof Sys2Proof.Machine

/-! The queue, the state after reset, and what holds of every step and of every command of Senak. -/

/-- The command at the front of the queue runs on the state with the rest of the queue; an empty queue leaves the device as it is, which is the
model's choice (log 1). -/
def Obligations.StepRunsTheFront : Prop :=
  (∀ (c : Instr) (l : List Instr) (s : State), step { s with pending := c :: l } = exec c { s with pending := l }) ∧
  (∀ s : State, s.pending = [] → step s = .next s)

/-- What reset leaves (R48, R49, R53, R64, R80, R86, R544, R546): generation 1 active, generation 2 staged as its copy, nothing armed or
previous; the registers of BAR0 at their reset values, every slot 0, and every vector masked. -/
def Obligations.ResetValues : Prop :=
  let s := State.reset
  s.pending = [] ∧ s.gens.active.number = 1 ∧ s.gens.staged = { s.gens.active with number := 2 } ∧ s.gens.previous = none ∧
  s.gens.armed = none ∧ s.senak.ready = false ∧ s.senak.safeBoot = false ∧ s.senak.scratch = 0 ∧ s.senak.devFault = 0 ∧
  s.senak.dwinBase = 0 ∧ s.senak.dwinErr = 0 ∧ s.senak.mbxErr = 0 ∧ s.senak.busy = 0 ∧ s.senak.done = 0 ∧ s.senak.irq = 0 ∧
  s.senak.doorbells = [] ∧ s.senak.pending = [] ∧ s.senak.nextSeq = 1 ∧ allZero s.senak.mask = true ∧
  (∀ a, memGet s.senak.slots a = 0) ∧ (∀ v, msixMasked s.senak.pcie v = true) ∧ s.senak.pcie.pba = 0 ∧
  s.senak.evq.base = 0 ∧ s.senak.evq.log2 = 12 ∧ s.senak.evq.holdoff = 0 ∧ s.senak.evq.en = false ∧ s.senak.evq.head = 0 ∧
  s.senak.evq.tail = 0 ∧ s.senak.evq.phase = true ∧ s.senak.evq.lost = 0 ∧ s.rt.time.state = .freeRun ∧ s.rt.time.slew = none ∧
  u8 s.rt.time.servo 0 = 0 ∧ u8 s.rt.time.servo 1 = 0 ∧ s.rt.clover.items = [] ∧ s.snap = none

/-- The state after reset meets the invariant that MemoryStaysCanonical keeps: every addressed memory is canonical. -/
def Obligations.ResetMeetsTheInvariant : Prop :=
  Safe State.reset

/-- Every step keeps every addressed memory canonical: the mailbox slots, host memory as the device knows it, and DRAM (log 12). -/
def Obligations.MemoryStaysCanonical : Prop :=
  ∀ s t : State, Safe s → step s = .next t → Safe t

/-- Every command answers a next state, from every state: none stops the model. What no command undoes: the queue is the sender's; the life
cycle changes only by MGMT.LIFECYCLE, by its row or from its slot, and only as the table of R658 says; an OTP item that is programmed stays programmed, and the anti-rollback counter does not fall (R655, R658, R659). -/
def Obligations.FusesOnlyRise : Prop :=
  ∀ (i : Instr) (s : State), ∃ t, exec i s = .next t ∧
    t.pending = s.pending ∧ s.rt.mgmt.rollback ≤ t.rt.mgmt.rollback ∧ (∀ b, s.rt.mgmt.otp.getLsbD b = true → t.rt.mgmt.otp.getLsbD b = true) ∧
    (t.rt.mgmt.lifecycle = s.rt.mgmt.lifecycle ∨ ((∃ r, i = .mgmtLifecycle r) ∨ ∃ t, i = .doorbellTake t) ∧
      ((s.rt.mgmt.lifecycle = 0 ∧ t.rt.mgmt.lifecycle = 1 ∧ s.rt.mgmt.otp.getLsbD 0 = true ∧ s.rt.mgmt.otp.getLsbD 2 = true) ∨
        (s.rt.mgmt.lifecycle = 1 ∧ t.rt.mgmt.lifecycle = 2) ∨ (s.rt.mgmt.lifecycle = 2 ∧ t.rt.mgmt.lifecycle = 3) ∨
        (s.rt.mgmt.lifecycle < 4 ∧ t.rt.mgmt.lifecycle = 4)))

/-- Any command of Senak that does not pass its checks (R60, R62): it answers the failed check that is earliest in the order of R62, with the
header's generation field and no data, and changes nothing but the counters of SYS.STATS and what completing a command changes; with EVENT
set SYS.CMD_DONE follows. A command that would be the 17th pending one answers NO_RESOURCE. Before READY, and while a commit is in
preparation, a row changes nothing, which is the model's reading (logs 13, 118). (The detail of BAD_PARAM is an offset in a slot, so it lies below 65,536.) -/
def Obligations.FailingCommands : Prop :=
  ∀ (c : Cmd) (row : Request → Instr), SenakRow c row → ∀ (r : Request) (s : State), Safe s →
    (s.senak.ready = false ∨ s.senak.preparing ≠ none → exec (row r) s = .next s) ∧
    (s.senak.ready = true → s.senak.preparing = none → ∀ f, c.verdict r s = some f → f ∈ c.allFails r (startCmd r s) ∧
      ((∀ g ∈ c.allFails r (startCmd r s), g.1 = .badParam → g.2 < 65536) → ∀ g ∈ c.allFails r (startCmd r s), f.1.rank ≤ g.1.rank) ∧
      ∃ t, exec (row r) s = .next t ∧ Answered r s.senak.nextSeq r.gen.toNat f.1 f.2 [] s t ∧ Beside (startCmd r s) t ∧
        (f.1 ≠ .ok → f.1 ≠ .pending → r.flags.getLsbD 0 = true → s.senak.evq.marker = 0 → s.senak.evq.backlog.length < 255 →
          t.senak.evq.backlog = s.senak.evq.backlog ++ [{
            code := 0x0180, sev := 0, obj := r.slot.val, hostSeq := r.hostSeq.toNat, detail := f.1.code * 65536 + f.2
            time := (s.advance r.at_).rt.time.now }])) ∧
    (s.senak.ready = true → s.senak.preparing = none → c.verdict r s = none → (c.effect r (startCmd r s)).status = .pending → 16 ≤ s.senak.pending.length →
      ∃ t, exec (row r) s = .next t ∧ Answered r s.senak.nextSeq r.gen.toNat .noResource 0 [] s t ∧ Beside (startCmd r s) t)

/-- An event that is raised (R68, R80, R651, R662): it waits behind those that wait, or, where 255 wait or the loss marker holds a count, it is
counted lost; the mask keeps an event that it does not let in from the ring, and the log takes one at or above its threshold. -/
def Obligations.RaisedEvents : Prop :=
  ∀ (e : Event) (s : State),
    let on := ¬ (s.rt.mgmt.level = 1 ∧ absentAtLevel1 e.code = true)
    let x := { e with time := s.rt.time.now }
    (on → maskAllows s.senak.mask e = true → s.senak.evq.marker = 0 → s.senak.evq.backlog.length < 255 →
      (s.raise e).senak = { s.senak with evq := { s.senak.evq with backlog := s.senak.evq.backlog ++ [x] } }) ∧
    (on → maskAllows s.senak.mask e = true → s.senak.evq.marker ≠ 0 ∨ 255 ≤ s.senak.evq.backlog.length →
      (s.raise e).senak.evq = { s.senak.evq with lost := Nat.min 65535 (s.senak.evq.lost + 1), marker := s.senak.evq.marker + 1 } ∧
      (s.raise e).senak.devFault = s.senak.devFault ||| 2#6) ∧
    (maskAllows s.senak.mask e = false → (s.raise e).senak = s.senak) ∧
    (on → s.rt.mgmt.threshold ≤ e.sev → (s.raise e).rt.mgmt.logNext = s.rt.mgmt.logNext + 1 ∧
      (s.rt.mgmt.log.length ≤ 4096 → (s.raise e).rt.mgmt.log.length ≤ 4096)) ∧
    (e.sev < s.rt.mgmt.threshold → (s.raise e).rt = s.rt) ∧ (¬ on → s.raise e = s)

/-- A block is read as it was laid out (R8, R10): each field of a block whose fields lie apart and inside it reads back, modulo its width, and a
byte that no field covers reads 0. -/
def Obligations.BlockFields : Prop :=
  ∀ (n : Nat) (l : List (Nat × Nat × Nat)), (∀ f ∈ l, f.1 + f.2.1 ≤ n) →
    l.Pairwise (fun f g => f.1 + f.2.1 ≤ g.1 ∨ g.1 + g.2.1 ≤ f.1) →
    (block n l).length = n ∧ (∀ f ∈ l, uN (block n l) f.1 f.2.1 = f.2.2 % 256 ^ f.2.1) ∧
    (∀ a, (∀ f ∈ l, a < f.1 ∨ f.1 + f.2.1 ≤ a) → (block n l).getD a 0 = 0)

/-- GEN.DISCARD (R101): it takes no parameters; the staged generation becomes a copy of the armed one, or of the active one where none is
armed, under its own number, and its changes are lost; nothing else changes. -/
def Obligations.DiscardReturnsTheStaged : Prop :=
  ∀ (r : Request) (s : State), Safe s → cmdGenDiscard.passes r s = true → r.len = 0 ∧
    ∃ t, exec (.genDiscard r) s = .next t ∧ Answered r s.senak.nextSeq s.gens.staged.number .ok 0 [] s t ∧
      Beside { startCmd r s with gens := { s.gens with staged := { (match s.gens.armed with
        | some a => a.gen
        | none => s.gens.active) with number := s.gens.staged.number, changes := 0 } } } t

/-- REC.RELEASE (R397): drain becomes the position given; one at or below drain completes with OK and changes nothing; one beyond sealed end,
where no earlier check fails, completes with BAD_PARAM. -/
def Obligations.ReleaseMovesDrain : Prop :=
  (∀ (r : Request) (s : State), Safe s → cmdRecRelease.passes r s = true →
    u64 r.params 0 ≤ s.rt.recorder.sealedEnd ∧
    ∃ t, exec (.recRelease r) s = .next t ∧ Answered r s.senak.nextSeq 0 .ok 0 [] s t ∧
      Beside ((cmdRecRelease.acting r s).modRec fun x =>
        { x with drain := if u64 r.params 0 ≤ x.drain then x.drain else u64 r.params 0 }) t) ∧
  (∀ (r : Request) (s : State), Safe s → s.senak.ready = true → s.senak.preparing = none → s.rt.recorder.sealedEnd < u64 r.params 0 →
    (∀ f ∈ cmdRecRelease.allFails r (startCmd r s), 4 ≤ f.1.rank) →
    ∃ t d, exec (.recRelease r) s = .next t ∧ Answered r s.senak.nextSeq r.gen.toNat .badParam d [] s t ∧ Beside (startCmd r s) t)

/-! Senak commands, group by group: where a command's checks pass, its row answers a next state with the answer and the effect that its
chapter gives, and changes nothing else. -/

/-- SYS and GEN commands but for those that arm and GEN.DISCARD (R76 to R82, R100, R105, R106): NOP copies its parameters; RESET starts
its delay and posts SYS.RESET_NOTICE; QUIESCE waits or ends; EVENT_MASK replaces the mask; STATS reports the counters and clears them where
asked; a cancelled commit's changes are counted with the staged ones; a snapshot is taken and released. -/
def Obligations.SysGenCommands : Prop :=
  Tells cmdSysNop .sysNop (fun r _ _ => slice r.params 0 r.len.toNat) ∧
  Tells cmdSysInfo .sysInfo (fun _ _ s => block 64 [(0, 4, 0x00010004), (4, 4, s.rt.mgmt.image.version), (8, 2, 0x4810),
    (0xA, 1, 0xB0), (0xB, 1, s.rt.mgmt.level), (0xC, 1, s.rt.mgmt.lifecycle), (0xD, 1, b2n Config.gradeI),
    (0x10, 2, coresInService s.rt.fault), (0x12, 2, sparesHeld s.rt.fault), (0x14, 1, s.rt.fault.campions.length),
    (0x15, 1, b2n (s.spareHeld 24)), (0x16, 1, s.rt.fault.mallows.length), (0x17, 1, b2n (s.spareHeld 29)),
    (0x18, 8, s.rt.dram.fitted), (0x20, 4, deviceLimit s.rt.fault s.gens.active s.rt.power.point),
    (0x24, 4, coreMHz s.rt.power.point), (0x28, 8, Config.deviceId.toNat)]) ∧
  Acts cmdSysReset .sysReset (fun r s => { s with senak := { s.senak with resetAt :=
    let e := s.rt.time.up + u32 r.params 4 * tUs
    match s.senak.resetAt with
    | none => some (u8 r.params 0, e)
    | some o => if e < o.2 ∨ (e = o.2 ∧ o.1 < u8 r.params 0) then some (u8 r.params 0, e) else some o } }) ∧
  (∀ (r : Request) (s : State), cmdSysReset.passes r s = true → exec (.sysReset r) s = .next ((runCmd cmdSysReset r s).post 0x0184 2 0
    (u8 r.params 0 * 16777216 + Nat.min 0xFFFFFF (u32 r.params 4)))) ∧
  Acts cmdSysEventMask .sysEventMask (fun r s => { s with senak := { s.senak with
    mask := if allZero (slice r.params 0 32) then [] else slice r.params 0 32 } }) ∧
  Completes cmdSysQuiesce .sysQuiesce .pending (fun r _ => u8 r.params 1 = 0)
    (fun r s => joined 0x0103 (u8 r.params 0) r (
      let s := if u8 r.params 0 = 32 ∧ 32 ∉ s.senak.stopped ∧ mhas s.senak.quiesce 32 = false then
          { s with rt := { s.rt with zip := mall s.rt.zip fun _ z => { z with waiting := false } } }
        else s
      { s with senak := { s.senak with quiesce := s.senak.quiesce ++
        [(u8 r.params 0, { deadline := s.rt.time.up + u32 r.params 4 * tUs, slot := r.slot.val, hostSeq := r.hostSeq.toNat })] } }))
    NoData ∧
  Completes cmdSysQuiesce .sysQuiesce .ok (fun r s => u8 r.params 1 ≠ 0 ∧ quiescing s (u8 r.params 0) = [])
    (fun r s => { s with senak := { s.senak with
      stopped := s.senak.stopped.filter (· != u8 r.params 0), quiesced := s.senak.quiesced.filter (· != u8 r.params 0) } }) NoData ∧
  TellsAndClears cmdSysStats .sysStats (fun r => u8 r.params 0 == 1)
    (fun _ s => block 32 (((s.snap.map (·.stats)).getD s.latchStats).map fun e => (e.1, if e.1 = 0 ∨ e.1 = 0x10 then 8 else 4, e.2)))
    (fun _ s =>
      let seen := (s.snap.map (·.leftStats)).getD s.latchStats
      let left := fun (m : Map Nat) => m.map fun e => (e.1,
        if e.1 = 0xC then if e.2 ≤ mgetD seen e.1 0 then 0 else e.2 else e.2 - mgetD seen e.1 0)
      { s with
        senak := { s.senak with stats := left s.senak.stats }, latchStats := left s.latchStats
        snap := s.snap.map fun n => { n with leftStats := left n.leftStats } }) ∧
  Tells cmdGenStatus .genStatus (fun _ _ s =>
    le 4 s.gens.active.number ++ le 4 ((s.gens.previous.map (·.number)).getD 0) ++ le 4 s.gens.staged.number ++
    le 4 ((s.gens.armed.map (·.gen.number)).getD 0) ++ timeBytes s.gens.activeSince ++
    ((s.gens.armed.map fun a => timeBytes a.boundary).getD (zeros 16)) ++ le 4 s.gens.staged.changes ++
    le 1 (b2n s.snap.isSome) ++ zeros 3 ++ ((s.snap.map fun n => timeBytes n.boundary).getD (zeros 16))) ∧
  (∀ (r : Request) (s : State) (a : Armed), Safe s → cmdGenCancel.passes r s = true → s.gens.armed = some a →
    ∃ t, exec (.genCancel r) s = .next t ∧ Answered r s.senak.nextSeq 0 .ok 0 [] s t ∧ a.rollback = false ∧
      t.gens = { s.gens with armed := none, staged := { s.gens.staged with
        changes := Nat.min 4294967295 (a.gen.changes + s.gens.staged.changes) } } ∧
      t.senak.pending = s.senak.pending.eraseP fun p => p.code == 0x0201 && p.obj == 0) ∧
  Completes cmdGenSnapshot .genSnapshot .ok (fun r _ => u8 r.params 0 = 0)
    (fun _ s => { s with snap := some {
      rt := s.latch, stats := s.latchStats, gen := s.gens.active, left := s.latch, leftStats := s.latchStats
      boundary := s.latchAt, expires := s.rt.time.up + 10 * tS } })
    (fun _ _ s data => data = timeBytes s.latchAt) ∧
  Completes cmdGenSnapshot .genSnapshot .ok (fun r _ => u8 r.params 0 ≠ 0) (fun _ s => { s with snap := none }) NoData

/-- GEN.COMMIT and GEN.ROLLBACK arm what preparation admits, under the number prepared, for the boundary of R94, and open a new
staged generation as its copy; what preparation does not admit is CAPACITY_EXCEEDED and arms nothing (R87, R90 to R95, R102). -/
def Obligations.GenArms : Prop :=
  (∀ (r : Request) (s : State) (g : Generation), Safe s → cmdGenCommit.passes r s = true → s.senak.pending.length < 16 →
    admitGen (startCmd r s) s.gens.staged = .ok g →
    ∃ t, exec (.genCommit r) s = .next t ∧ Answered r s.senak.nextSeq g.number .pending 0
        (le 4 g.number ++ le 4 t.gens.staged.number ++ timeBytes (commitBoundary r.params (startCmd r s).now)) s t ∧
      t.gens.armed = some { gen := g, boundary := commitBoundary r.params (startCmd r s).now, rollback := false, slot := r.slot.val
                            hostSeq := r.hostSeq.toNat, waitPower := decide (setPoint g < s.rt.power.point) } ∧
      t.gens.staged = { g with number := t.gens.staged.number, changes := 0 } ∧
      t.gens.active = s.gens.active ∧ t.gens.previous = s.gens.previous ∧
      t.senak.pending = s.senak.pending ++ [{ code := 0x0201, obj := 0, slot := r.slot.val, hostSeq := r.hostSeq.toNat, params := r.params }]) ∧
  (∀ (r : Request) (s : State) (p g : Generation), Safe s → cmdGenRollback.passes r s = true → s.senak.pending.length < 16 →
    s.gens.previous = some p → admitGen (startCmd r s) { p with changes := 0 } = .ok g →
    ∃ t, exec (.genRollback r) s = .next t ∧ Answered r s.senak.nextSeq g.number .pending 0
        (le 4 g.number ++ le 4 t.gens.staged.number ++ timeBytes (earliest (startCmd r s).now)) s t ∧
      t.gens.armed = some { gen := g, boundary := earliest (startCmd r s).now, rollback := true, slot := r.slot.val
                            hostSeq := r.hostSeq.toNat, waitPower := decide (setPoint g < s.rt.power.point) } ∧
      t.gens.staged = { g with number := t.gens.staged.number, changes := 0 } ∧
      t.gens.active = s.gens.active ∧ t.gens.previous = s.gens.previous ∧
      t.senak.pending = s.senak.pending ++ [{ code := 0x0202, obj := 0, slot := r.slot.val, hostSeq := r.hostSeq.toNat, params := r.params }]) ∧
  (∀ (r : Request) (s : State) (e : CapFail), Safe s → cmdGenCommit.passes r s = true → admitGen (startCmd r s) s.gens.staged = .error e →
    ∃ t, exec (.genCommit r) s = .next t ∧ Answered r s.senak.nextSeq r.gen.toNat .capacityExceeded e.code
        (le 2 e.code ++ zeros 2 ++ le 4 e.obj ++ le 4 e.demand ++ le 4 e.limit) s t ∧ Beside (startCmd r s) t)

/-- SCHED commands (R133 to R135), FAULT commands (R157 to R159) and DSP commands (R438 to R440). -/
def Obligations.SchedFaultDspCommands : Prop :=
  Tells cmdSchedStatus .schedStatus (fun _ _ s => block 32 [(0, 8, s.seenAt / tMs), (8, 4, s.seen.clover.sharedUse),
    (0xC, 4, s.seen.clover.reserveUse), (0x10, 4, s.seen.clover.spilled),
    (0x14, 1, if s.seen.clover.pressureFrom.isSome then 2 else b2n s.seen.clover.spilling)]) ∧
  TellsAndClears cmdSchedStats .schedStats (fun r => u8 r.params 0 == 1)
    (fun _ s => block 96 (s.seen.clover.stats.map fun e => (e.1, if e.1 < 0x10 then 8 else 4, e.2)))
    (fun _ s => s.clearSeen fun b rt => { rt with clover := { rt.clover with
      stats := clearMax (0x20 ≤ ·) b.clover.stats rt.clover.stats } }) ∧
  Tells cmdSchedFlow .schedFlow (fun r _ s =>
    let f := u32 r.params 0
    let q := if flowKind f = 2 then mgetD s.seen.clover.flows f {} else {}
    le 4 (s.seen.clover.items.filter fun i => i.2.flow == f && i.2.waits).length ++
    le 4 (s.seen.clover.items.filter fun i => i.2.flow == f && i.2.serving).length ++ le 4 q.oldest ++ le 4 q.next) ∧
  Tells cmdFaultStatus .faultStatus (fun r _ s =>
    let b := u8 r.params 0
    let f := s.seen.fault
    let c := f.cluster b
    let maps := if b < 16 then
        [siteMap ((c.pos.filter fun p => p.1 < 8).map (·.2)), siteMap c.spare.toList, siteMap c.fenced]
      else [b2n (f.placeOf b).isSome, b2n (f.spares.contains b), b2n (f.enginesFenced.contains b)]
    block 24 [(0, 2, maps.getD 0 0), (2, 2, maps.getD 1 0), (4, 2, maps.getD 2 0), (6, 2, mgetD s.seen.test.health b 0),
      (8, 4, blockLimit s.seen.power.point f b), (0xC, 4, blockDemand s.seenGen f b), (0x10, 1, if b = 24 ∨ b = 29 then (f.placeOf b).getD 0xFF else 0xFF),
      (0x11, 1, b2n (decide (b < 16) && c.sheds))]) ∧
  TellsAndClears cmdFaultStats .faultStats (fun r => u8 r.params 0 == 1)
    (fun _ s => block 64 (s.seen.fault.stats.map fun e => (e.1, 4, e.2)))
    (fun _ s => s.clearSeen fun b rt => { rt with fault := { rt.fault with stats := lessSeen rt.fault.stats b.fault.stats } }) ∧
  Acts cmdFaultInject .faultInject (fun r s => s.modFault fun f =>
    { f with injections := mset f.injections (u8 r.params 0 * 16 + u8 r.params 1) (u8 r.params 2) }) ∧
  Stages cmdDspPartition .dspPartition (fun r g => { g with
    partitions := if u16 r.params 2 = 0 then mdel g.partitions (u8 r.params 0) else mset g.partitions (u8 r.params 0) (slice r.params 0 32) }) ∧
  Defers cmdDspLoad .dspLoad 0x0C01 (fun r => r.slot.val) (fun r s => s.modDsp fun d =>
    { d with loading := d.loading ++ [(r.slot.val, memRead s.rt.dram.mem (u64 r.params 8) (u32 r.params 4))] }) ∧
  Tells cmdDspQuery .dspQuery (fun r g _ => mgetD g.partitions (u8 r.params 0) []) ∧
  Tells cmdDspStatus .dspStatus (fun r _ s =>
    let m := mgetD s.seen.dsp.images (u8 r.params 0) {}
    let on := m.stamp ≠ 0
    let b := m.inForce
    block 32 [(0, 1, if m.waiting.isSome then 1 else if on then 2 else 0), (1, 1, (clustersOf s.gens.active (u8 r.params 0)).length),
      (2, 2, if on then u16 b 0xE else 0), (4, 4, if on then u32 b 0x14 else 0),
      (8, 16, if on then uN (imageDigestOf b) 0 16 else 0), (0x18, 4, m.refusals), (0x1C, 4, m.bad)])

/-- LEG, CONF and ROUTE commands (R186, R189 to R194, R212, R217, R219 to R226): configuration of the staged generation, queries of a
generation, statistics with their clear, and the start and stop of a tone at the next tick. -/
def Obligations.LegConfRouteCommands : Prop :=
  Stages cmdLegSet .legSet (fun r g => { g with legs := mset g.legs (u16 r.params 0) (slice r.params 0 96) }) ∧
  Stages cmdLegDelete .legDelete (fun r g => { g with legs := mdel g.legs (u16 r.params 0) }) ∧
  Stages cmdLegDetector .legDetector (fun r g => { g with detectors := mset g.detectors (u8 r.params 0) (slice r.params 0 16) }) ∧
  Tells cmdLegQuery .legQuery (fun r g _ => slice (mgetD g.legs (u16 r.params 0) []) 0 96) ∧
  TellsAndClears cmdLegStats .legStats (fun r => u8 r.params 2 == 1)
    (fun r s => legStats (mgetD s.gens.active.legs (u16 r.params 0) []) (mgetD s.seen.audio.legs (u16 r.params 0) {}))
    (fun r s => s.clearSeen fun b rt => { rt with audio := { rt.audio with legs := mupd rt.audio.legs (u16 r.params 0) fun x =>
      let y := mgetD b.audio.legs (u16 r.params 0) {}
      { x with
        stats := lessSeen x.stats y.stats, rtp := { x.rtp with lostSeen := x.rtp.lostSeen + (y.rtp.lost - y.rtp.lostSeen) } } } }) ∧
  Acts cmdLegTonePlay .legTonePlay (fun r s => s.modAudio fun a =>
    let l := mgetD a.legs (u16 r.params 0) {}
    { a with legs := mset a.legs (u16 r.params 0) { l with toneNext := some (some (slice r.params 0 48)) } }) ∧
  Completes cmdLegToneStop .legToneStop .ok
    (fun r s => let l := mgetD s.rt.audio.legs (u16 r.params 0) {}; l.tone.isSome ∨ l.toneNext.isSome)
    (fun r s => s.modAudio fun a =>
      let l := mgetD a.legs (u16 r.params 0) {}
      { a with legs := mset a.legs (u16 r.params 0) { l with toneNext := some none } }) NoData ∧
  Completes cmdLegToneStop .legToneStop .ok
    (fun r s => let l := mgetD s.rt.audio.legs (u16 r.params 0) {}; l.tone = none ∧ l.toneNext = none) Nothing NoData ∧
  Stages cmdConfSet .confSet (fun r g => { g with confs := mset g.confs (u16 r.params 0) (slice r.params 0 96) }) ∧
  Stages cmdConfDelete .confDelete (fun r g => { g with confs := mdel g.confs (u16 r.params 0) }) ∧
  Stages cmdConfMember .confMember (fun r g =>
    { g with members := mset g.members (u16 r.params 0 * 8192 + u16 r.params 2) (slice r.params 0 8) }) ∧
  Stages cmdConfRemove .confRemove (fun r g => { g with members := mdel g.members (u16 r.params 0 * 8192 + u16 r.params 2) }) ∧
  Tells cmdConfQuery .confQuery (fun r g _ => slice (mgetD g.confs (u16 r.params 0) []) 0 96) ∧
  Tells cmdConfMembers .confMembers (fun r g _ =>
    let m := membersOf g (u16 r.params 0)
    let e := (m.drop (u16 r.params 2)).take 240
    slice (le 2 e.length ++ le 2 m.length ++ e.flatMap fun x => le 2 x.1 ++ le 1 (u8 x.2 4) ++ le 1 (u8 x.2 5)) 0 964) ∧
  TellsAndClears cmdConfStatus .confStatus (fun r => u8 r.params 2 == 1)
    (fun r s =>
      let n := u16 r.params 0
      let b := mgetD s.gens.active.confs n []
      let c := mgetD s.seen.audio.confs n {}
      let sel := if u8 b 3 = 0 then [] else c.selected.take 16
      putAt (putAt (block 64 [(0, 1, sel.length), (0x34, 2, c.sharedGroups), (0x36, 2, c.sharing), (0x38, 4, c.limited), (0x3C, 4, c.expired)])
        4 (sel.flatMap (le 2) ++ List.replicate (32 - 2 * sel.length) 0xFF))
        0x24 (sel.flatMap fun m => le 1 (levelOf (meanSquare c (confRate b) m))))
    (fun r s => s.clearSeen fun b rt => { rt with audio := { rt.audio with confs := mupd rt.audio.confs (u16 r.params 0) fun x =>
      let y := mgetD b.audio.confs (u16 r.params 0) {}
      { x with limited := x.limited - y.limited, expired := x.expired - y.expired } } }) ∧
  Stages cmdRouteSet .routeSet (fun r g => let b := slice r.params 0 12
    { g with routes := mset g.routes (routeKey (u8 b 0) (u16 b 2) (u16 b 4)) b }) ∧
  Stages cmdRouteDelete .routeDelete (fun r g =>
    { g with routes := mdel g.routes (routeKey (u8 r.params 0) (u16 r.params 2) (u16 r.params 4)) }) ∧
  Tells cmdRouteList .routeList (fun r g _ =>
    let l := routesTo g (u16 r.params 0)
    le 2 l.length ++ zeros 2 ++ l.flatMap (fun e => slice e.2 0 12) ++ List.replicate (96 - 12 * l.length) 0xFF) ∧
  Acts cmdRouteSapSet .routeSapSet (fun r s => s.modAudio fun a => let b := slice r.params 0 8
    { a with saps := mset a.saps (u8 b 0) { mgetD a.saps (u8 b 0) {} with next := some b } }) ∧
  Tells cmdRouteSapQuery .routeSapQuery (fun r _ s => sapBlock s (u8 r.params 0))

/-- VID, LAYOUT and OUT commands (R232, R261 to R267, R276, R289 to R297): a key request raises the encoder's cause or asks the sender; a
grab answers the picture's size and PENDING. -/
def Obligations.VidLayoutOutCommands : Prop :=
  Stages cmdVidSet .vidSet (fun r g => { g with vids := mset g.vids (u16 r.params 0) (slice r.params 0 112) }) ∧
  Stages cmdVidDelete .vidDelete (fun r g =>
    { g with vids := mdel g.vids (u16 r.params 0), paramsets := mdel g.paramsets (u16 r.params 0) }) ∧
  Stages cmdVidParamsets .vidParamsets (fun r g =>
    { g with paramsets := mset g.paramsets (u16 r.params 0) (slice r.params 0 (4 + u16 r.params 2)) }) ∧
  Tells cmdVidQuery .vidQuery (fun r g _ => slice (mgetD g.vids (u16 r.params 0) []) 0 112) ∧
  TellsAndClears cmdVidStats .vidStats (fun r => u8 r.params 2 == 1)
    (fun r s =>
      let v := u16 r.params 0
      let x := mgetD s.seen.video.vids v {}
      let enc := isEncode s.gens.active v
      block 64 ((x.stats.map fun e => (e.1, 4, e.2)) ++
        [(0x34, 4, if enc then fullnessAt (mgetD s.seenGen.vids v []) x (s.seenAt - x.start) else 0), (0x38, 1, x.meanQp),
          (0x39, 1, vidStateCode enc (s.seen.fault.orphans.contains (0x10000 + v)) x)]))
    (fun r s => s.clearSeen fun b rt => { rt with video := { rt.video with vids := mupd rt.video.vids (u16 r.params 0) fun x =>
      { x with stats := lessSeen x.stats (mgetD b.video.vids (u16 r.params 0) {}).stats } } }) ∧
  Completes cmdVidKeyframe .vidKeyframe .ok (fun r s => u8 (mgetD s.gens.active.vids (u16 r.params 0) []) 2 = 1)
    (fun r s => s.modVideo fun x => { x with vids := mupd x.vids (u16 r.params 0) fun v =>
      { v with
        keyCause := if v.coding.any (·.idr) then v.keyCause else some (v.keyCause.getD 2), stats := bump v.stats 0x24 } }) NoData ∧
  Completes cmdVidKeyframe .vidKeyframe .ok (fun r s => u8 (mgetD s.gens.active.vids (u16 r.params 0) []) 2 ≠ 1)
    (fun r s => requestVidKey (u16 r.params 0) (mgetD s.gens.active.vids (u16 r.params 0) []) s) NoData ∧
  Completes cmdVidGrab .vidGrab .pending Always
    (fun r s => joined 0x0706 r.slot.val r (
      let p := grabbed s (u16 r.params 0)
      let h := if isEncode s.gens.active (u16 r.params 0) then none else p.id.map fun i => (0x10000 + u16 r.params 0, i)
      (holdBuffer true h s).modVideo fun x => { x with grabs := x.grabs ++ [(r.slot.val, p, h)] }))
    (fun r _ s data => let p := grabbed s (u16 r.params 0)
      data = block 16 [(0, 2, p.w), (2, 2, p.h), (4, 4, pictureLength p)]) ∧
  Stages cmdLayoutSet .layoutSet (fun r g => { g with layouts := mset g.layouts (u16 r.params 0) (slice r.params 0 8) }) ∧
  Stages cmdLayoutLayer .layoutLayer (fun r g =>
    { g with layers := mset g.layers (u16 r.params 0 * 8 + u8 r.params 2) (slice r.params 0 36) }) ∧
  Defers cmdLayoutImage .layoutImage 0x0802 (fun r => slotKey (u16 r.params 0) (u8 r.params 2) (u8 r.params 3)) (fun r s =>
    let b := r.params
    let key := slotKey (u16 b 0) (u8 b 2) (u8 b 3)
    let source := memRead s.rt.dram.mem (u64 b 0x10) (imageLength b)
    s.modMallow fun m =>
      let i := mgetD m.images key {}
      { m with images := mset m.images key { i with loading := some (slice b 0 24, source) } }) ∧
  Stages cmdLayoutScaler .layoutScaler (fun r g =>
    { g with scalers := mset g.scalers (u8 r.params 0 * 4 + u8 r.params 1 * 2 + u8 r.params 2)
               (slice r.params 0 (if u8 r.params 1 = 1 then 392 else 520)) }) ∧
  Stages cmdLayoutGamma .layoutGamma (fun r g =>
    { g with gammas := mset g.gammas (u8 r.params 0 * 4 + u8 r.params 1) (slice r.params 0 516) }) ∧
  Acts cmdLayoutDelete .layoutDelete (fun r s => dropImages (stagedBy (fun g =>
    { g with layouts := mdel g.layouts (u16 r.params 0), layers := g.layers.filter fun e => e.1 / 8 != u16 r.params 0 }) s)) ∧
  Tells cmdLayoutQuery .layoutQuery (fun r g _ => slice (mgetD g.layouts (u16 r.params 0) []) 0 8 ++
    (List.range 8).flatMap fun l => slice (mgetD g.layers (u16 r.params 0 * 8 + l) (defaultLayer (u16 r.params 0) l)) 0 36) ∧
  Stages cmdOutSet .outSet (fun r g => { g with outs := mset g.outs (u8 r.params 0) (slice r.params 0 8) }) ∧
  Stages cmdOutRegion .outRegion (fun r g =>
    { g with regions := mset g.regions (u8 r.params 0 * 16 + u8 r.params 1) (slice r.params 0 16) }) ∧
  Stages cmdOutDelete .outDelete (fun r g =>
    { g with outs := mdel g.outs (u8 r.params 0), regions := g.regions.filter fun e => e.1 / 16 != u8 r.params 0 }) ∧
  Tells cmdOutQuery .outQuery (fun r g _ => slice (mgetD g.outs (u8 r.params 0) []) 0 8 ++
    (List.range 16).flatMap fun k =>
      slice (mgetD g.regions (u8 r.params 0 * 16 + k) (block 16 [(0, 1, u8 r.params 0), (1, 1, k)])) 0 16) ∧
  TellsAndClears cmdOutStats .outStats (fun r => u8 r.params 1 == 1)
    (fun r s =>
      let o := u8 r.params 0
      let x := mgetD s.seen.mallow.outs o {}
      let layout := u16 (mgetD s.gens.active.outs o []) 2
      let engine := if s.seen.fault.orphans.contains (0x20000 + o) then 255
        else ((mget s.gens.active.outAt o).bind fun p => mget s.seen.fault.places p).getD 255
      let cache := if (staticRun s.gens.active layout).isEmpty then 0 else match mget s.seen.mallow.surfaces layout with
        | some c => if c.ready then 2 else 1
        | none => 1
      block 48 ((x.stats.map fun e => (e.1, 4, e.2)) ++ [(0x20, 1, engine), (0x21, 1, cache),
        (0x22, 2, x.regions.foldl (fun (a : Nat) (e : Nat × Region) => a + if e.2.mismatch then 2 ^ e.1 else 0) 0)]))
    (fun r s => s.clearSeen fun b rt => { rt with mallow := { rt.mallow with outs := mupd rt.mallow.outs (u8 r.params 0) fun x =>
      { x with stats := lessSeen x.stats (mgetD b.mallow.outs (u8 r.params 0) {}).stats } } }) ∧
  Tells cmdOutSignatures .outSignatures (fun r _ s =>
    let x := mgetD s.seen.mallow.outs (u8 r.params 0) {}
    le 8 ((x.completed.map (·.1)).getD 0) ++ (List.range 16).flatMap fun k => le 4 (x.crcs.getD k 0))

/-- FWD commands (R299 to R307, R320 to R324, R331 to R338). -/
def Obligations.FwdCommands : Prop :=
  Stages cmdFwdRelaySet .fwdRelaySet (fun r g => { g with relays := mset g.relays (u16 r.params 0) (slice r.params 0 128) }) ∧
  Stages cmdFwdSubSet .fwdSubSet (fun r g => { g with subs := mset g.subs (u16 r.params 0) (slice r.params 0 80) }) ∧
  Stages cmdFwdLineSet .fwdLineSet (fun r g => { g with lines := mset g.lines (u16 r.params 0) (slice r.params 0 24) }) ∧
  Stages cmdFwdPolicerSet .fwdPolicerSet (fun r g =>
    let key := if u8 r.params 0 = 0 then 64 * u8 r.params 1 + u16 r.params 2 else 0x10000 + u16 r.params 2
    { g with policers := mset g.policers key (slice r.params 0 32) }) ∧
  Stages cmdFwdQueueSet .fwdQueueSet (fun r g =>
    let key := u8 r.params 0 * 16 + if u8 r.params 1 = 255 then 15 else u8 r.params 1
    { g with queues := mset g.queues key (slice r.params 0 16) }) ∧
  Stages cmdFwdColourMap .fwdColourMap (fun r g => { g with colourMap := slice r.params 0 64 }) ∧
  Stages cmdFwdDelete .fwdDelete (fun r g => match u8 r.params 0 with
    | 0 => { g with relays := mdel g.relays (u32 r.params 4) }
    | 1 => { g with subs := mdel g.subs (u32 r.params 4) }
    | 2 => { g with lines := mdel g.lines (u32 r.params 4) }
    | 3 => { g with policers := mdel g.policers (u32 r.params 4) }
    | 4 => { g with policers := mdel g.policers (0x10000 + u32 r.params 4) }
    | _ => { g with queues := mdel g.queues (queueKey (u32 r.params 4)) }) ∧
  Tells cmdFwdQuery .fwdQuery (fun r g _ => (fwdObject g (u8 r.params 0) (u32 r.params 4)).getD []) ∧
  TellsAndClears cmdFwdSubStats .fwdSubStats (fun r => u8 r.params 2 == 1)
    (fun r s =>
      let n := u16 r.params 0
      let g := s.gens.active
      let b := mgetD g.subs n []
      let x := s.seen.fwd.sub n
      let line := mgetD g.lines (u16 b 2) []
      let l := s.seen.fwd.line (u16 b 2)
      let m := fun o => mgetD x.stats o 0
      block 64 ([0, 0xC, 0x10, 0x14, 0x18, 0x1C].map (fun o => (o, 4, m o)) ++
        [(4, 8, m 4), (0x20, 4, x.rrLost), (0x24, 4, x.rrJitter), (0x28, 4, x.rtt), (0x2C, 1, x.state.code), (0x2D, 1, x.rung),
          (0x2E, 1, x.target), (0x30, 4, rungRate s.seen.fwd g (u16 b 4) x.rung line / 1000), (0x34, 4, lineAvail line l / 1000),
          (0x38, 4, lineQueued l), (0x3C, 2, m 0x3C), (0x3E, 2, m 0x3E)]))
    (fun r s => s.clearSeen fun b rt => { rt with fwd := { rt.fwd with subs := mupd rt.fwd.subs (u16 r.params 0) fun x =>
      { x with stats := lessSeen x.stats (mgetD b.fwd.subs (u16 r.params 0) {}).stats } } }) ∧
  TellsAndClears cmdFwdPortStats .fwdPortStats (fun r => u8 r.params 1 == 1)
    (fun r s =>
      let p := u8 r.params 0
      let q := (mgetD s.seen.fwd.ports p {}).queues
      block 80 (((s.seen.fwd.stats.filter fun e => e.1 / 256 == p).map fun e =>
          (e.1 % 256, if e.1 % 256 < 0x10 then 8 else 4, e.2)) ++
        (List.range 8).map fun i => (0x30 + 4 * i, 4, queuedBytes (mgetD q i []))))
    (fun r s => s.clearSeen fun b rt => { rt with fwd := { rt.fwd with
      stats := clearMax (fun k => k % 256 == 0x24) (b.fwd.stats.filter fun e => e.1 / 256 == u8 r.params 0) rt.fwd.stats } })

/-- KEY commands (R346 to R352, R360, R363, R366, R372 to R374). KEY.INSTALL puts a key of the given kind, profile and material into its slot
and counts it: a fresh index as given, below 2^15 by the device's choice, or the old slot's; an old receive key of the same profile stays for
the grace time. KEY.CRYPT joins the pending commands with one request for its slot, which takes its key and initial vector at once, or once the
queues are enabled. -/
def Obligations.KeyCommands : Prop :=
  Tells cmdKeyStatus .keyStatus (fun _ _ s => block 16 [(0, 1, siteMap (enginesIn s.seen)), (1, 1, b2n s.seen.sec.enabled),
    (4, 4, (s.seen.sec.slots.filter fun k => k.1 ≤ lastHostSlot).length), (8, 4, s.seen.sec.mismatches)]) ∧
  Acts cmdKeyErase .keyErase (fun r s => s.modSec fun x => { x with
    slots := x.slots.filter fun e => decide (e.1 < u32 r.params 0 ∨ u32 r.params 0 + u32 r.params 4 ≤ e.1) }) ∧
  Tells cmdKeyQuery .keyQuery (fun r _ s =>
    let n := u32 r.params 0
    let x := s.seen.sec
    let tail := [(2, 1, mgetD x.pages n 0xFF), (4, 4, mgetD x.installs n 0), (0x14, 4, mgetD x.counts (4 * n) 0),
      (0x18, 4, mgetD x.counts (4 * n + 1) 0), (0x1C, 4, mgetD x.counts (4 * n + 2) 0)]
    block 32 (match mget x.slots n with
      | none => tail
      | some k =>
        [(0, 1, k.kind), (1, 1, k.profile),
          (3, 1, if (k.kind = 1 ∧ (2 ^ 48 ≤ k.index ∨ 2 ^ 31 ≤ k.rtcp)) ∨ (k.kind = 3 ∧ 2 ^ 64 ≤ k.index) then 1
            else if k.grace.isSome then 2 else 0),
          (8, 8, if k.kind = 2 then k.win.top.getD 0 else k.index),
          (0x10, 4, if k.kind = 2 then k.winC.top.getD 0 else k.rtcp)] ++ tail)) ∧
  Acts cmdKeyBind .keyBind (fun r s => s.modSec fun x => { x with
    pages := if u8 r.params 4 = 0xFF then mdel x.pages (u32 r.params 0) else mset x.pages (u32 r.params 0) (u8 r.params 4) }) ∧
  Acts cmdKeyDerive .keyDerive (fun r s =>
    let k : KeySlot := { kind := u8 r.params 4
                         key := kdf s.rt.mgmt.rootKey "LNR-HOST" (idBytes ++ slice r.params 8 16) (8 * u8 r.params 5) }
    s.modSec fun x => { x with
      slots := mset x.slots (u32 r.params 0) k
      installs := mset x.installs (u32 r.params 0) (mgetD x.installs (u32 r.params 0) 0 + 1) }) ∧
  Completes cmdKeyQueues .keyQueues .ok (fun r _ => u8 r.params 0 ≠ 1)
    (fun _ s => s.modSec fun x => { x with enabled := false }) NoData ∧
  Completes cmdKeyQueues .keyQueues .ok (fun r _ => u8 r.params 0 = 1)
    (fun _ s => acceptWaiting (s.modSec fun x => { x with enabled := true })) NoData ∧
  TellsAndClears cmdKeyStats .keyStats (fun r => u8 r.params 0 == 1)
    (fun _ s => block 64 (s.seen.sec.stats.map fun e => (e.1, 4, e.2)))
    (fun _ s => s.clearSeen fun b rt => { rt with sec := { rt.sec with stats := lessSeen rt.sec.stats b.sec.stats } }) ∧
  (∀ (r : Request) (s : State) (m : Bytes), Safe s → cmdKeyInstall.passes r s = true → installMaterial r.params s.rt.sec = .ok m →
    ∃ t k, exec (.keyInstall r) s = .next t ∧ Answered r s.senak.nextSeq 0 .ok 0 [] s t ∧
      t.rt.sec.slots = mset s.rt.sec.slots (u32 r.params 0) k ∧
      t.rt.sec.installs = mset s.rt.sec.installs (u32 r.params 0) (mgetD s.rt.sec.installs (u32 r.params 0) 0 + 1) ∧
      k.kind = u8 r.params 4 ∧ k.profile = u8 r.params 5 ∧ k.key = slice m 0 (u8 r.params 0x14) ∧ k.salt = slice m 32 (u8 r.params 0x15) ∧
      (u8 r.params 7 = 0 → k.index = (if k.kind = 1 ∨ k.kind = 3 then u64 r.params 8 else 0) ∧
        k.rtcp = if k.kind = 1 then u32 r.params 0x10 else 0) ∧
      (u8 r.params 7 = 1 → k.index < 32768 ∧ k.rtcp = 0) ∧
      (∀ o, 2 ≤ u8 r.params 7 → mget s.rt.sec.slots (u32 r.params 0) = some o → k.index = o.index ∧ k.rtcp = o.rtcp ∧ k.win = o.win) ∧
      k.grace = (match mget s.rt.sec.slots (u32 r.params 0) with
        | some o => if k.kind = 2 ∧ o.kind = 2 ∧ o.profile = k.profile ∧ u16 r.params 0x16 ≠ 0 then
            some { key := o.key, salt := o.salt, win := o.win, winC := o.winC, until_ := (startCmd r s).up + u16 r.params 0x16 * tMs }
          else none
        | none => none)) ∧
  (∀ (r : Request) (s : State), Safe s → cmdKeyCrypt.passes r s = true → s.senak.pending.length < 16 →
    ∃ t c, exec (.keyCrypt r) s = .next t ∧ Answered r s.senak.nextSeq 0 .pending 0 [] s t ∧
      t.rt.sec.crypts = s.rt.sec.crypts ++ [c] ∧ c.slot = r.slot.val ∧
      t.senak.pending = s.senak.pending ++ [{ code := 0x0A06, obj := 0, slot := r.slot.val, hostSeq := r.hostSeq.toNat, params := r.params }] ∧
      (s.rt.sec.enabled = false → c.waits = true ∧ c.refused = false) ∧
      (s.rt.sec.enabled = true → c.waits = false) ∧
      (s.rt.sec.enabled = true → u8 r.params 4 ≠ 5 ∨ bit (u8 r.params 5) 0 = false → c.iv = slice r.params 8 16 ∧ c.refused = false ∧
        c.key = match s.rt.sec.usable (u32 r.params 0) (if u8 r.params 4 = 8 then 4 else 3) with
          | some k => some k.key
          | none => if u8 r.params 4 = 7 then some [] else none))

/-- REC and ZIP commands (R387 to R399, R404 to R409). A job that comes while Clover dispatches nothing to block 32 waits (R79). -/
def Obligations.RecZipCommands : Prop :=
  let zipShut := fun (s : State) => s.senak.stopped.contains 32 || mhas s.senak.quiesce 32 || s.boot.inReset.getLsbD 32
  Acts cmdRecConfig .recConfig (fun r s => s.modRec fun x => { x with modeNext := u8 r.params 0, segEvent := bit (u8 r.params 1) 0 }) ∧
  Stages cmdRecSelect .recSelect (fun r g =>
    let b := slice r.params 0 8
    let key := u8 b 0 * 65536 + u16 b 2
    { g with selections := if u8 b 1 = 0 then mdel g.selections key else mset g.selections key b }) ∧
  Tells cmdRecQuery .recQuery (fun r g _ => mgetD g.selections (u8 r.params 0 * 65536 + u16 r.params 2)
    (block 8 [(0, 1, u8 r.params 0), (2, 2, u16 r.params 2), (4, 1, 1 - u8 r.params 0)])) ∧
  Tells cmdRecStatus .recStatus (fun _ _ s =>
    let x := s.seen.recorder
    block 64 [(0, 8, x.chain), (8, 8, x.oldest), (0x10, 8, x.drain), (0x18, 8, x.sealedEnd), (0x20, 8, x.lastSeq),
      (0x28, 8, x.lastSecond), (0x30, 8, recSize s.rt.dram), (0x38, 1, x.mode),
      (0x39, 1, if !x.running then 2 else if x.missing.isSome then 1 else 0), (0x3C, 4, x.lost)]) ∧
  Completes cmdRecRead .recRead .ok (fun r s => readBytes r.params s = 0) Nothing
    (fun r _ _ data => data = le 8 (u64 r.params 0) ++ le 4 0 ++ zeros 4) ∧
  Completes cmdRecRead .recRead .pending (fun r s => readBytes r.params s ≠ 0)
    (fun r s => joined 0x0B04 r.slot.val r (s.modRec fun x =>
      { x with reads := x.reads ++ [(r.slot.val, u64 r.params 0, readBytes r.params s)] }))
    (fun r _ s data => data = le 8 (u64 r.params 0) ++ le 4 (readBytes r.params s) ++ zeros 4) ∧
  Defers cmdRecVerify .recVerify 0x0B06 (fun r => r.slot.val) Nothing ∧
  Acts cmdRecMark .recMark (fun r s => takeRecord
    { type := 6, object := u16 r.params 0, time := s.rt.time.now, data := slice r.params 4 (r.len.toNat - 4) } s) ∧
  Acts cmdRecClear .recClear (fun _ s => s.modRec fun x => { x with clearing := true }) ∧
  Defers cmdZipStart .zipStart 0x0B40 (fun r => u8 (slice r.params 0 48) 0) (fun r s =>
    let b := slice r.params 0 48
    let old := mgetD s.rt.zip (u8 b 0) {}
    let z : ZipCtx := if old.state ≠ .opened ∨ bit (u8 b 5) 0 then { result := old.result } else old
    let input := memRead s.rt.dram.mem (u64 b 8) (u32 b 0x10)
    { s with rt := { s.rt with zip := mset s.rt.zip (u8 b 0) { z with
        state := .running, waiting := zipShut s, job := b, outLen := u32 b 0x14, outOff := u64 b 0x18, input := input
        jobs := z.jobs ++ [(u8 b 2, u8 b 4, input)], consumed := 0, produced := 0 } } }) ∧
  Defers cmdZipResume .zipResume 0x0B41 (fun r => u8 r.params 0) (fun r s =>
    let z := mgetD s.rt.zip (u8 r.params 0) {}
    let z := { z with state := .running, waiting := zipShut s, outLen := u32 r.params 4, outOff := u64 r.params 8 }
    { s with rt := { s.rt with zip := mset s.rt.zip (u8 r.params 0) z } }) ∧
  Acts cmdZipReset .zipReset (fun r s =>
    let z := mgetD s.rt.zip (u8 r.params 0) {}
    { s with rt := { s.rt with zip := mset s.rt.zip (u8 r.params 0) { result := z.result } } }) ∧
  Tells cmdZipQuery .zipQuery (fun r _ s =>
    let z := mgetD s.seen.zip (u8 r.params 0) {}
    le 1 z.state.code ++ zeros 3 ++ slice z.result 0 32)

/-- TDM commands (R468, R481, R487 to R500): line settings wait for the next tick, cross-connects, bypasses and protection pairs are
versioned, a protection request selects again, and counters are the latched set. -/
def Obligations.TdmCommands : Prop :=
  Acts cmdTdmSdhSet .tdmSdhSet (fun r s => s.modTdm fun t => { t with waiting := mset t.waiting (sdhLine (u8 r.params 0)) (slice r.params 0 24) }) ∧
  Acts cmdTdmPdhSet .tdmPdhSet (fun r s => s.modTdm fun t => { t with waiting := mset t.waiting (1008 + u8 r.params 0) (slice r.params 0 8) }) ∧
  Acts cmdTdmTribSet .tdmTribSet (fun r s => s.modTdm fun t => { t with waiting := mset t.waiting (u16 r.params 0) (slice r.params 0 8) }) ∧
  Stages cmdTdmXcSet .tdmXcSet (fun r g =>
    { g with xcs := mset g.xcs (xcKey (u8 r.params 0) (u16 r.params 4) (u16 r.params 6)) (slice r.params 0 8) }) ∧
  Stages cmdTdmBypassSet .tdmBypassSet (fun r g => { g with bypasses := mset g.bypasses (u16 r.params 0) (slice r.params 0 132) }) ∧
  Stages cmdTdmProtSet .tdmProtSet (fun r g => { g with prots := mset g.prots (u16 r.params 0) (slice r.params 0 16) }) ∧
  Acts cmdTdmProtCmd .tdmProtCmd (fun r s => reselect (u16 r.params 0) (s.modTdm fun t => { t with
    requests := if u8 r.params 2 = 0 then mdel t.requests (u16 r.params 0) else mset t.requests (u16 r.params 0) (u8 r.params 2) })) ∧
  Stages cmdTdmDelete .tdmDelete (fun r g => match u8 r.params 0 with
    | 0 => { g with xcs := mdel g.xcs (xcKey (u8 r.params 1) (u16 r.params 4) (u16 r.params 6)) }
    | 1 => { g with bypasses := mdel g.bypasses (u16 r.params 4) }
    | _ => { g with prots := mdel g.prots (u16 r.params 4) }) ∧
  Tells cmdTdmQuery .tdmQuery (fun r g _ => (tdmObject g r.params).getD []) ∧
  Tells cmdTdmStatus .tdmStatus (fun r _ s =>
    let n := u16 r.params 2
    let t := s.seen.tdm
    let map := mgetD t.defects (lineNamed r.params) 0
    let port := fun p => mgetD t.ports p {}
    block 16 (match u8 r.params 0 with
      | 0 => [(0, 4, map), (4, 1, (port n).s1), (6, 2, ((port n).aus.getD 0 {}).offset)]
      | 1 => [(0, 4, map), (6, 2, if n < 1008 then (mgetD (port (n / 252)).tus (n % 252) {}).offset else 0)]
      | _ => [(0, 4, map), (5, 1, b2n (mgetD t.pairs n {}).protecting), (8, 4, 500 * ((mgetD t.pairs n {}).aligned.getD 0).natAbs)])) ∧
  TellsAndClears cmdTdmCounters .tdmCounters (fun r => u8 r.params 1 == 1)
    (fun r s =>
      let c := latchedCounts s (lineNamed r.params)
      block 64 ((0, 8, c.2) :: c.1.map fun e => (e.1, counterWidth (lineNamed r.params) e.1, e.2)))
    (fun r s =>
      let line := lineNamed r.params
      let read := (s.snap.map fun n => mgetD n.left.tdm.counts line []).getD (mgetD s.rt.tdm.latched line [])
      let clear := fun (rt : Runtime) => { rt with tdm := { rt.tdm with
        counts := mupd rt.tdm.counts line fun m => lessSeen m read
        latched := mupd rt.tdm.latched line fun m => lessSeen m read } }
      { s with rt := clear s.rt, latch := clear s.latch, snap := s.snap.map fun n => { n with left := clear n.left } }) ∧
  Completes cmdTdmCas .tdmCas .ok (fun r _ => u8 r.params 2 ≠ 1) Nothing
    (fun r _ s data => let s := { s with rt := s.seen }
      data = le 1 (codeOf s (u16 r.params 0)) ++ le 1 (outCode s (u16 r.params 0)) ++ zeros 2) ∧
  Completes cmdTdmCas .tdmCas .ok (fun r _ => u8 r.params 2 = 1)
    (fun r s => s.modTdm fun t => { t with written := mset t.written (u16 r.params 0) (u8 r.params 3) })
    (fun r _ s data => let s := { s with rt := s.seen }
      data = le 1 (codeOf s (u16 r.params 0)) ++ le 1 (outCode s (u16 r.params 0)) ++ zeros 2)

/-- NET commands (R506, R510, R514, R516 to R520): port, pair and class settings wait for the next tick; time stamps leave their queue
oldest first; a synchronous output drives its pin. -/
def Obligations.NetCommands : Prop :=
  Acts cmdNetPortSet .netPortSet (fun r s => s.modNet fun n => { n with portsNext := mset n.portsNext (u8 r.params 0) (r.params.take 32) }) ∧
  Acts cmdNetPairSet .netPairSet (fun r s => s.modNet fun n => { n with pairsNext := mset n.pairsNext (u8 r.params 0) (r.params.take 16) }) ∧
  Acts cmdNetClassSet .netClassSet (fun r s => s.modNet fun n =>
    { n with classesNext := mset n.classesNext (u8 r.params 0 * 64 + u8 r.params 1) (r.params.take 32) }) ∧
  Tells cmdNetQuery .netQuery (fun r _ s => match u8 r.params 0 with
    | 0 => portReport s (u8 r.params 1)
    | 1 => slice (s.rt.net.latestPair (u8 r.params 1)) 0 32
    | _ => slice (s.rt.net.latestClass (u8 r.params 1) (u8 r.params 2)) 0 32) ∧
  Completes cmdNetTsRead .netTsRead .ok Always
    (fun r s => s.modNet fun n => { n with
      tsQueue := mset n.tsQueue (u8 r.params 0) ((mgetD n.tsQueue (u8 r.params 0) []).drop (u8 r.params 1))
      tsLost := mset n.tsLost (u8 r.params 0) 0 })
    (fun r _ s data =>
      let l := (mgetD s.rt.net.tsQueue (u8 r.params 0) []).take (u8 r.params 1)
      data = block 8 [(0, 1, l.length), (4, 4, Nat.min 4294967295 (mgetD s.rt.net.tsLost (u8 r.params 0) 0))] ++
        l.flatMap fun e => le 2 e.1 ++ zeros 6 ++ timeBytes e.2) ∧
  Acts cmdNetSynceSet .netSynceSet (fun r s => syncePin false (u8 r.params 0) (s.modNet fun n =>
    { n with synce := mset n.synce (u8 r.params 0) (u8 r.params 1, u8 r.params 2, false) })) ∧
  TellsAndClears cmdNetStats .netStats (fun r => u8 r.params 1 == 1)
    (fun r s => (span 1 16).flatMap fun i => le 4 (mgetD s.seen.net.stats (u8 r.params 0 * 100 + i) 0))
    (fun r s => s.clearSeen fun b rt => { rt with net := { rt.net with
      stats := lessSeen rt.net.stats (b.net.stats.filter fun e => e.1 / 100 == u8 r.params 0) } })

/-- TIME commands (R526 to R531, R542 to R549): a set counter is stepped to the instant given or by the amount given, or armed for a
PPS edge; an adjustment starts or ends a slew at no more than the rate that the clamp leaves. -/
def Obligations.TimeCommands : Prop :=
  Tells cmdTimeStatus .timeStatus (fun _ _ s =>
    let b := s.seen.time
    let el := fun t => (b.up - t) / tS
    let rate : Int := (b.slew.map fun w => if w.offset < 0 then -(w.rate : Int) else (w.rate : Int)).getD 0
    let left : Int := (b.slew.map fun w =>
      let g := w.offset.natAbs - Nat.min w.offset.natAbs ((b.up - w.start) * w.rate / (tNs * 1000000000))
      if w.offset < 0 then -(g : Int) else (g : Int)).getD 0
    timeBytes s.seenAt ++ block 48 [
      (0, 1, b.state.code), (1, 1, b.phaseSrc), (2, 1, b.freqSrc),
      (3, 1, b2n b.slew.isSome + 2 * b2n b.limitPassed + 4 * b2n b.phasePresent + 8 * b2n b.freqPresent),
      (4, 4, sat32 (b.y + 1000 * rate)), (8, 4, sat32 (roundDiv b.theta tNs)), (0xC, 4, sat32 left),
      (0x10, 8, b.grandmaster), (0x18, 2, b.utc), (0x1A, 1, b.leap), (0x1B, 1, b.slavePort.getD 0xFF),
      (0x1C, 4, el b.stateSince), (0x20, 4, if b.state = .holdover then el b.stateSince else 0),
      (0x24, 4, b.pathDelay), (0x28, 2, b.steps)]) ∧
  Completes cmdTimeSet .timeSet .ok (fun r _ => u8 r.params 0 = 0)
    (fun r s => setUtc r.params (stepCounter ((timeAt r.params 8 : Int) - (s.rt.time.now : Int)) true s)) NoData ∧
  Completes cmdTimeSet .timeSet .ok (fun r _ => u8 r.params 0 = 1)
    (fun r s => setUtc r.params (stepCounter
      (if bit (u8 r.params 1) 1 then -(timeAt r.params 8 : Int) else (timeAt r.params 8 : Int)) true s)) NoData ∧
  Completes cmdTimeSet .timeSet .ok (fun r _ => 2 ≤ u8 r.params 0)
    (fun r s => s.modTime fun b => { b with armed := some r.params }) NoData ∧
  Acts cmdTimeAdjust .timeAdjust (fun r s => s.modTime fun b =>
    let d := sN r.params 0 4
    let room := if d < 0 then b.clamp + b.y else b.clamp - b.y
    { b with slew := if d = 0 then none else some ⟨d, Nat.min (u32 r.params 4) (room / 1000).toNat, b.up⟩ }) ∧
  (∀ (r : Request) (s : State), Safe s → cmdTimeServoSet.passes r s = true →
    ∃ t, exec (.timeServoSet r) s = .next t ∧ Answered r s.senak.nextSeq 0 .ok 0 [] s t ∧ t.rt.time.servo = r.params.take 32 ∧
      t.rt.time.phasePresent = (s.rt.time.phasePresent && u8 r.params 0 == u8 s.rt.time.servo 0) ∧
      t.rt.time.freqPresent = (s.rt.time.freqPresent && u8 r.params 1 == u8 s.rt.time.servo 1) ∧
      (u8 r.params 0 = u8 s.rt.time.servo 0 → u8 r.params 1 = u8 s.rt.time.servo 1 → t.rt.time.state = s.rt.time.state)) ∧
  Acts cmdTimePtpSet .timePtpSet (fun r s => s.modTime fun b => { b with ptp := mset b.ptp (u8 r.params 0) (r.params.take 48) }) ∧
  (∀ (r : Request) (s : State), Safe s → cmdTimePinsSet.passes r s = true →
    ∃ t, exec (.timePinsSet r) s = .next t ∧ Answered r s.senak.nextSeq 0 .ok 0 [] s t ∧ t.rt.time.pins = r.params.take 16 ∧
      (u8 r.params 0xA = 0 → t.rt.time.ppsOut = false ∧ mgetD t.boot.pins 0 true = false)) ∧
  Acts cmdTimeLaunchSet .timeLaunchSet (fun r s => s.modTime fun b => { b with launch := mset b.launch (u8 r.params 0) (r.params.take 8) }) ∧
  TellsAndClears cmdTimeStats .timeStats (fun r => u8 r.params 0 == 1)
    (fun r s => (span 1 16).flatMap fun i => le 4 (mgetD s.seen.time.stats (timeStat (u8 r.params 1) i) 0))
    (fun r s => s.clearSeen fun b rt => { rt with time := { rt.time with
      stats := clearMax (fun k => 100 ≤ k && k % 100 == 16)
        (b.time.stats.filter fun e => (span 1 16).any fun i => timeStat (u8 r.params 1) i == e.1) rt.time.stats } })

/-- HSP commands (R563, R564) and MEM commands (R570, R576 to R589). -/
def Obligations.HspMemCommands : Prop :=
  Acts cmdHspSet .hspSet (fun r s =>
    let p := mgetD s.rt.hsp (u8 r.params 0) {}
    { s with rt := { s.rt with hsp := mset s.rt.hsp (u8 r.params 0) { p with block := slice r.params 0 16 } } }) ∧
  Tells cmdHspQuery .hspQuery (fun r _ s => hspBlock s (u8 r.params 0)) ∧
  TellsAndClears cmdHspStats .hspStats (fun r => u8 r.params 1 == 1)
    (fun r s => (List.range 8).flatMap fun i => le 4 (mgetD (mgetD s.seen.hsp (u8 r.params 0) {}).stats i 0))
    (fun r s => s.clearSeen fun b rt => { rt with hsp := mupd rt.hsp (u8 r.params 0) fun p =>
      { p with stats := lessSeen p.stats (mgetD b.hsp (u8 r.params 0) {}).stats } }) ∧
  Tells cmdMemStatus .memStatus (fun _ _ s =>
    let d := s.seen.dram
    let c := s.seen.mgmt.config
    let size := fun (m : Map Nat) i => mgetD m i ([4, 0, 0, 4, 12, 2].getD i 0)
    let newMasks := (List.range 9).any fun i => mgetD c.masks i (defaultMasks.getD i 0) != d.mask i
    let newSizes := [0, 3, 4, 5].any fun i => size c.regions i != size d.sizes i
    block 32 [(0, 8, d.fitted), (8, 2, d.speed), (0xA, 1, d.state), (0xB, 1, d.failing), (0xC, 1, d.population.toNat),
      (0xD, 1, (List.range 8).foldl (fun m c => if 1 ≤ channelHot d.hot c then m + 2 ^ c else m) 0),
      (0xE, 1, b2n newMasks + 2 * b2n newSizes), (0x10, 4, d.scrubHours),
      (0x14, 4, if d.fitted = 0 then 0 else d.scrubLine * 64 * 1000 / d.fitted)]) ∧
  Completes cmdMemMap .memMap .ok (fun r _ => u8 r.params 0 = 0) Nothing
    (fun _ _ s data => data = (List.range 9).flatMap fun i => le 8 (s.rt.dram.mask i)) ∧
  Completes cmdMemMap .memMap .ok (fun r _ => u8 r.params 0 ≠ 0)
    (fun r s => s.writeFlash fun c => { c with
      masks := if u8 r.params 0 = 1 then (List.range 9).map fun i => (i, u64 r.params (8 + 8 * i)) else [] })
    (fun _ _ s data => data = (List.range 9).flatMap fun i => le 8 (s.rt.dram.mask i)) ∧
  Completes cmdMemRegions .memRegions .ok (fun r _ => u8 r.params 0 = 0) Nothing
    (fun _ _ s data => data = (List.range 7).flatMap fun i => le 8 (regionBase s.rt.dram i) ++ le 8 (regionSize s.rt.dram i)) ∧
  Completes cmdMemRegions .memRegions .ok (fun r _ => u8 r.params 0 ≠ 0)
    (fun r s => s.writeFlash fun c => { c with
      regions := [(0, u16 r.params 8), (3, u16 r.params 0xA), (4, u16 r.params 0xC), (5, u16 r.params 0xE)] })
    (fun _ _ s data => data = (List.range 7).flatMap fun i => le 8 (regionBase s.rt.dram i) ++ le 8 (regionSize s.rt.dram i)) ∧
  Acts cmdMemScrub .memScrub (fun r s => s.modDram fun d => { d with
    scrubHours := u16 r.params 0, timer := if s.rt.mgmt.level = 1 ∧ u32 r.params 4 ≠ 0 then u32 r.params 4 else d.timer }) ∧
  TellsAndClears cmdMemErrors .memErrors (fun r => u8 r.params 0 == 1)
    (fun _ s =>
      let d := s.seen.dram
      let entries := d.log.flatMap ErrEntry.bytes
      le 8 d.corrected ++ le 4 d.uncorrectable ++ le 4 d.passes ++ zeros 16 ++ entries ++ zeros (256 - entries.length))
    (fun _ s => s.clearSeen fun b rt => { rt with dram := { rt.dram with
      corrected := rt.dram.corrected - b.dram.corrected, uncorrectable := rt.dram.uncorrectable - b.dram.uncorrectable
      passes := rt.dram.passes - b.dram.passes } }) ∧
  Acts cmdMemInject .memInject (fun r s => s.modDram fun d => { d with
    inject := mset d.inject (u64 r.params 0 / 64) (u8 r.params 8, u8 r.params 9) })

/-- PWR, BOOT and TEST commands (R598, R605 to R608, R612, R624 to R628, R637, R640 to R644): a request for Deep sleep or Off takes effect
10 ms later, Sleep at once, and Run ends Sleep; BOOT.BLOCK_RESET empties the block, stops its dispatch and answers PENDING; a run is noted as
running and answers PENDING; a clear of health bits keeps the sites out of service until the next reset. -/
def Obligations.PwrBootTestCommands : Prop :=
  Tells cmdPwrStatus .pwrStatus (fun _ _ s =>
    let p := s.seen.power
    block 32 [(0, 1, if p.state = 0 ∧ p.idle then 1 else p.state), (1, 1, p.point),
      (2, 1, (p.volt.map fun v => if v.raising then 1 else 2).getD 0), (3, 1, b2n p.warn + 2 * b2n p.high), (4, 2, p.vddCore),
      (6, 2, sat32 (junction p.temps)), (8, 1, hottest p.temps),
      (9, 1, (p.unlocked.filter fun u => u.1 < 8).foldl (fun a u => a + 2 ^ u.1) 0), (0x10, 8, p.powered.toNat),
      (0x18, 4, p.wakes), (0x1C, 4, p.longest)]) ∧
  Stages cmdPwrSet .pwrSet (fun r g => { g with power := r.params.take 16 }) ∧
  Tells cmdPwrQuery .pwrQuery (fun _ g _ => slice g.power 0 16) ∧
  Acts cmdPwrThermalSet .pwrThermalSet (fun r s => s.modPower fun p => { p with warnAt := some (u8 r.params 0) }) ∧
  (∀ (r : Request) (s : State), Safe s → cmdPwrState.passes r s = true →
    ∃ t, exec (.pwrState r) s = .next t ∧ Answered r s.senak.nextSeq 0 .ok 0 [] s t ∧
      (u8 r.params 0 = 4 ∨ (u8 r.params 0 = 3 ∧ s.rt.power.state = 0) → t.rt.power.state = s.rt.power.state ∧
        t.rt.power.request = some (u8 r.params 0, (startCmd r s).up + 10 * tMs) ∧
        t.rt.power.wakeAt = if u8 r.params 0 = 3 ∧ allZero (slice r.params 8 16) = false then some (timeAt r.params 8) else none) ∧
      (u8 r.params 0 = 3 → s.rt.power.state ≠ 0 → t.rt.power = s.rt.power) ∧
      (u8 r.params 0 = 2 → s.rt.power.state = 0 →
        t.rt.power.state = 2 ∧ t.rt.power.vddCore = 620 ∧ t.rt.dram.selfRefresh = true) ∧
      (u8 r.params 0 = 0 → s.rt.power.state = 2 →
        t.rt.power.state = 0 ∧ t.rt.power.vddCore = coreMv s.rt.power.point ∧ t.rt.dram.selfRefresh = false)) ∧
  Tells cmdBootStatus .bootStatus (fun _ _ s =>
    let b := s.boot
    let choices := b2n (decide (2 ≤ s.rt.mgmt.lifecycle) || bit b.band 0) + 2 * b2n (s.rt.mgmt.recovered || bit b.band 1) +
      4 * b2n (bit b.band 2) + 8 * b2n (!s.rt.mgmt.recovered && bit b.band 3)
    block 48 [(0, 1, b.lastReset), (1, 1, b.cfgCode), (2, 1, b.band), (3, 1, choices), (4, 1, b.causes.toNat), (5, 1, b.otpFailures),
      (6, 1, s.rt.mgmt.config.pcieActions), (8, 4, b.bootMs), (0xC, 4, b.coldResets), (0x10, 4, b.warmResets), (0x14, 4, b.endpointResets),
      (0x18, 8, b.pendingRelease.foldl (fun m e => m + 2 ^ e.1) 0), (0x20, 8, b.inReset.toNat)]) ∧
  Acts cmdBootPcieSet .bootPcieSet (fun r s => s.writeFlash fun c => { c with pcieActions := u8 r.params 0 }) ∧
  (∀ (r : Request) (s : State), Safe s → cmdBootBlockReset.passes r s = true → s.senak.pending.length < 16 →
    ∃ t, exec (.bootBlockReset r) s = .next t ∧ Answered r s.senak.nextSeq 0 .pending 0 [] s t ∧
      t.senak.pending = s.senak.pending ++ [{ code := 0x1302, obj := u8 r.params 0, slot := r.slot.val, hostSeq := r.hostSeq.toNat, params := r.params }] ∧
      u8 r.params 0 ∈ t.senak.stopped ∧
      (u8 r.params 0 < 16 → mget t.rt.dsp.shared (u8 r.params 0) = none ∧ ∀ e ∈ t.rt.dsp.cores, e.1 / 16 ≠ u8 r.params 0)) ∧
  Defers cmdTestRun .testRun 0x1400 (fun r => u8 r.params 0 * 256 + u8 r.params 1) (fun r s => s.modTest fun t =>
    { t with running := mset t.running (u8 r.params 0 * 256 + u8 r.params 1) (r.slot.val, r.hostSeq.toNat) }) ∧
  Tells cmdTestReport .testReport (fun r _ s =>
    let b := u8 r.params 0
    let x := mgetD s.seen.test.reports (b * 256 + if 16 ≤ b ∧ b ≠ 31 then 0 else u8 r.params 1) {}
    block 32 [(0, 1, x.origin), (1, 1, x.result), (2, 1, x.element), (4, 8, x.signature), (0xC, 8, x.expected),
      (0x14, 4, x.patterns), (0x18, 4, x.address), (0x1C, 4, x.isolated)]) ∧
  Tells cmdTestHealth .testHealth (fun _ _ s =>
    block 80 ((s.seen.test.health.filter fun e => e.1 < 36).map (fun e => (2 * e.1, 2, e.2)) ++ [(0x48, 4, s.seen.test.everSet)])) ∧
  Acts cmdTestHealthClear .testHealthClear (fun r s => s.modTest fun x =>
    let b := u8 r.params 0
    let sites := (List.range 9).filter fun i => bit (mgetD x.health b 0) i
    let h := mgetD x.health b 0
    { x with health := mdel x.health b, out := if h = 0 then x.out else mset x.out b (mgetD x.out b 0 ||| h), unwritten := (x.unwritten.filter fun k => k / 256 != b) ++ sites.map (b * 256 + ·) })

/-- MGMT commands but for the life cycle and the fuses (R646 to R651, R655, R657, R661, R666 to R670). -/
def Obligations.MgmtCommands : Prop :=
  Tells cmdMgmtStatus .mgmtStatus (fun _ _ s =>
    let m := s.rt.mgmt
    let x := fun i => mgetD m.slots i { version := 0, security := 0 }
    block 64 [(0, 1, m.lifecycle), (1, 1, m.level), (2, 1, m.config.level), (3, 1, m.otp.toNat), (4, 1, m.running),
      (5, 1, b2n (m.slotValid 0) + 2 * b2n (m.slotValid 1) + 4 * b2n m.asTrial + 8 * b2n m.config.trial.isSome), (6, 1, m.rollback),
      (7, 1, alertCauses s), (8, 4, (x 0).version), (0xC, 4, (x 1).version), (0x10, 1, (x 0).security), (0x11, 1, (x 1).security),
      (0x14, 4, m.oldest), (0x18, 4, m.logNext - 1), (0x1C, 4, m.mirroredThrough)]) ∧
  Tells cmdMgmtSensors .mgmtSensors (fun _ _ s =>
    ((List.range 16).flatMap fun i => leI 2 (s.seen.power.temps.getD i 0)) ++
    ((List.range 8).flatMap fun i => le 2 (mgetD s.seen.mgmt.monitors i {}).mv) ++
    le 1 (s.seen.mgmt.monitors.foldl (fun a e => a + b2n e.2.out * 2 ^ e.1) 0) ++
    le 1 ((s.seen.power.unlocked.filter fun u => u.1 < 8).foldl (fun a u => a + 2 ^ u.1) 0) ++ zeros 14) ∧
  Tells cmdMgmtLogRead .mgmtLogRead (fun r _ s =>
    let l := (s.rt.mgmt.log.filter fun e => decide (u32 r.params 0 ≤ e.1)).take (u8 r.params 4)
    le 4 l.length ++ le 4 s.rt.mgmt.oldest ++ l.flatMap fun e => logBytes e.1 e.2) ∧
  Acts cmdMgmtConfig .mgmtConfig (fun r s => alertUpdate (s.modMgmt fun m =>
    { m with threshold := u8 r.params 0, alertMask := BitVec.ofNat 6 (u8 r.params 1) })) ∧
  Defers cmdMgmtFwWrite .mgmtFwWrite 0x1504 (fun r => u8 r.params 0) (fun _ s => s.modMgmt fun m => { m with flashHeld := false }) ∧
  Acts cmdMgmtFwActivate .mgmtFwActivate (fun r s => s.writeFlash fun c => { c with trial := some (u8 r.params 0) }) ∧
  Acts cmdMgmtFwConfirm .mgmtFwConfirm (fun _ s => (s.writeFlash fun c => { c with confirmed := s.rt.mgmt.running }).modMgmt fun m =>
    { m with asTrial := false, rollback := Nat.max m.rollback m.image.security }) ∧
  Acts cmdMgmtBehaviour .mgmtBehaviour (fun r s => s.writeFlash fun c => { c with level := u8 r.params 0 })

/-- MGMT.LIFECYCLE moves the life cycle, and the move to DECOMMISSIONED zeroises every key; MGMT.OTP_WRITE burns an item whose
read-back matches, which is a free value, and otherwise spoils it with INTERNAL_FAULT (R658 to R660, R671). -/
def Obligations.LifecycleAndFuses : Prop :=
  (∀ (r : Request) (s : State), Safe s → cmdMgmtLifecycle.passes r s = true →
    ∃ t, exec (.mgmtLifecycle r) s = .next t ∧ Answered r s.senak.nextSeq 0 .ok 0 [] s t ∧
      t.rt.mgmt.lifecycle = u8 r.params 0 ∧
      (u8 r.params 0 = 4 → t.rt.mgmt.rootKey = [] ∧ t.rt.sec.slots = [] ∧ t.rt.recorder.running = false) ∧
      (u8 r.params 0 ≠ 4 → t.rt.mgmt.rootKey = s.rt.mgmt.rootKey ∧ t.rt.sec = s.rt.sec ∧ t.rt.recorder = s.rt.recorder)) ∧
  (∀ (r : Request) (s : State), Safe s → cmdMgmtOtpWrite.passes r s = true →
    ∃ t, exec (.mgmtOtpWrite r) s = .next t ∧ t.free = s.free + 1 ∧
      (Config.freeNat s.free % 2 = 1 → Answered r s.senak.nextSeq r.gen.toNat .internalFault 0x1509 [] s t ∧ t.rt.mgmt.otp = s.rt.mgmt.otp ∧
        t.rt.mgmt.otpBad = s.rt.mgmt.otpBad ||| (1#3 <<< (u8 r.params 0 - 1))) ∧
      (Config.freeNat s.free % 2 ≠ 1 → Answered r s.senak.nextSeq 0 .ok 0 [] s t ∧ t.rt.mgmt.otpBad = s.rt.mgmt.otpBad ∧
        t.rt.mgmt.otp = s.rt.mgmt.otp ||| (1#3 <<< (u8 r.params 0 - 1)) ∧
        (u8 r.params 0 = 1 → t.rt.mgmt.rootKey = slice r.params 4 32) ∧ (u8 r.params 0 = 2 → t.rt.mgmt.imageDigest = slice r.params 4 48) ∧
        (u8 r.params 0 = 3 → t.rt.mgmt.macs = slice r.params 4 24)))

/-! Rows of the host interface, of the clocks and of the engines. -/

/-- Registers of BAR0 (R9, R45 to R47, R49, R54, R65): writes of DWIN_BASE and EVQ_BASE, the bits that a write of 1 clears, and the counts that
a read answers and clears; any run of bytes lands in the slots, four bytes at a register's offset write the register, and a write of a
register that is narrower than 32 bits is ignored and shows in DEV_FAULT. A read answers the slots' bytes, a register's value, or 0 where the
register is write-only or reserved; in a page or port whose domain is not ready it answers all ones and starts the wake.
(That one row carries every read, and a narrow one acts on its word, is the model's choice, log 162.) -/
def Obligations.HostRegisters : Prop :=
  (∀ v, Hosted (.dwinBaseWrite v) fun s => { s with senak := { s.senak with dwinBase := v.extractLsb' 0 11 } }) ∧
  (∀ v, Hosted (.devFaultClear v) fun s => { s with senak := { s.senak with devFault := s.senak.devFault &&& ~~~v.extractLsb' 0 6 } }) ∧
  (∀ v, Hosted (.mbxDoneClear false v) fun s => { s with senak := { s.senak with done := s.senak.done &&& ~~~(0#32 ++ v) } }) ∧
  (∀ v, Hosted (.mbxDoneClear true v) fun s => { s with senak := { s.senak with done := s.senak.done &&& ~~~(v ++ 0#32) } }) ∧
  Hosted .dwinErrRead (fun s => { s with
    wire := .read (le 4 s.senak.dwinErr) :: s.wire, senak := { s.senak with dwinErr := 0 } }) ∧
  Hosted .mbxErrRead (fun s => { s with
    wire := .read (le 4 s.senak.mbxErr) :: s.wire, senak := { s.senak with mbxErr := 0 } }) ∧
  Hosted .evqLostRead (fun s => { s with
    wire := .read (le 4 s.senak.evq.lost) :: s.wire, senak := { s.senak with evq := { s.senak.evq with lost := 0 } } }) ∧
  (∀ v, Hosted (.evqBaseWrite false v) fun s => if s.senak.evq.en then s else { s with senak := { s.senak with
    evq := { s.senak.evq with base := s.senak.evq.base.extractLsb' 20 32 ++ v.extractLsb' 12 20 } } }) ∧
  (∀ v, Hosted (.evqBaseWrite true v) fun s => if s.senak.evq.en then s else { s with senak := { s.senak with
    evq := { s.senak.evq with base := v ++ s.senak.evq.base.extractLsb' 0 20 } } }) ∧
  (∀ (off : Nat) (data : Bytes) (s : State), s.reachable = true → Safe s → data ≠ [] → 0x10000 ≤ off → off + data.length ≤ 0x20000 →
    ∃ t, exec (.bar0RegisterWrite off data) s = .next t ∧ memRead t.senak.slots (off - 0x10000) data.length = data ∧
      (∀ a, (a < off - 0x10000 ∨ off - 0x10000 + data.length ≤ a) → memGet t.senak.slots a = memGet s.senak.slots a) ∧
      t = { wakeIfAsleep s with senak := { (wakeIfAsleep s).senak with slots := t.senak.slots } }) ∧
  (∀ a b c d : Byte, Hosted (.bar0RegisterWrite 0x000C [a, b, c, d]) fun s =>
    { s with senak := { s.senak with scratch := d ++ c ++ b ++ a } }) ∧
  (∀ a b c d : Byte, Hosted (.bar0RegisterWrite 0x1014 [a, b, c, d]) fun s =>
    { s with senak := { s.senak with irq := s.senak.irq.extractLsb' 32 32 ++ (d ++ c ++ b ++ a) } }) ∧
  (∀ (a b c d : Byte) (s : State), ∃ t, exec (.bar0RegisterWrite 0x0014 [a, b, c, d]) s = .next t ∧
    exec (.dwinBaseWrite (d ++ c ++ b ++ a)) s = .next t) ∧
  (∀ (a b c d : Byte) (s : State), ∃ t, exec (.bar0RegisterWrite 0x1000 [a, b, c, d]) s = .next t ∧
    exec (.mbxRing s.rt.time.now (d ++ c ++ b ++ a)) s = .next t) ∧
  (∀ (off : Nat) (data : Bytes) (s : State), s.reachable = true → off < 0x10000 → isRegister (off / 4 * 4) = true →
    off + data.length ≤ 0x10000 → (off % 4 ≠ 0 ∨ data.length % 4 ≠ 0) →
    exec (.bar0RegisterWrite off data) s = .next (let s := wakeIfAsleep s
      { s with senak := { s.senak with devFault := s.senak.devFault ||| 16#6 } })) ∧
  (∀ (t : Time) (off n : Nat) (s : State), s.reachable = true → 0 < n → 0x10000 ≤ off → off + n ≤ 0x20000 →
    exec (.bar0ReadDomainNotReady t ⟨off, n⟩) s = .next (let s := wakeIfAsleep (s.advance t)
      { s with wire := .read (memRead s.senak.slots (off - 0x10000) n) :: s.wire })) ∧
  (∀ (t : Time) (off : Nat) (s : State), s.reachable = true → off < 0x10000 → off % 4 = 0 →
    isRegister off = false →
    exec (.bar0ReadDomainNotReady t ⟨off, 4⟩) s = .next (let s := wakeIfAsleep (s.advance t)
      { s with wire := .read (zeros 4) :: s.wire })) ∧
  (∀ (t : Time) (s : State), s.reachable = true →
    let u := wakeIfAsleep (s.advance t)
    let reads := fun (off : Nat) (v : Nat) => exec (.bar0ReadDomainNotReady t ⟨off, 4⟩) s = .next { u with wire := .read (le 4 v) :: u.wire }
    reads 0x0000 (0x4810B000 + 16 * s.rt.mgmt.level) ∧ reads 0x0008 u.senak.devFault.toNat ∧ reads 0x000C s.senak.scratch.toNat ∧
    reads 0x0010 s.rt.mgmt.image.version ∧ reads 0x0014 s.senak.dwinBase.toNat ∧ reads 0x1000 0 ∧ reads 0x1004 (s.senak.busy.toNat % 2 ^ 32) ∧
    reads 0x1008 (s.senak.busy.toNat / 2 ^ 32) ∧ reads 0x101C s.senak.doorbells.length ∧ reads 0x200C s.senak.evq.head) ∧
  (∀ (t : Time) (off n : Nat) (s : State), s.reachable = true → inBlock (off / 4 * 4) = true → 0 < n → off % 4 + n ≤ 4 →
    blockReady (off / 4 * 4) (wakeIfAsleep (s.advance t)) = false →
    ∃ u, exec (.bar0ReadDomainNotReady t ⟨off, n⟩) s = .next u ∧ u.wire.head? = some (.read (List.replicate n 0xFF)) ∧
      u.senak.devFault.getLsbD 5 = true ∧ u.rt.power.powered.getLsbD (blockDomain (off / 4 * 4)) = true)

/-- BAR2 (R49 to R51): an access reaches DRAM at DWIN_BASE × 1 GiB plus its offset, and one that is dropped reads ones, changes no
byte, and is counted. A line written takes its new check bytes, and a read of an uncorrectable line answers poisoned data (R577). (In Sleep an
access wakes the device first.) -/
def Obligations.Bar2Window : Prop :=
  (∀ (off : Nat) (data : Bytes) (s : State), s.reachable = true → s.rt.power.state = 0 → Safe s →
    s.senak.dwinBase.toNat * 2 ^ 30 + off + data.length ≤ s.rt.dram.fitted →
    (2 ≤ s.rt.mgmt.lifecycle → s.senak.dwinBase.toNat * 2 ^ 30 + off + data.length ≤ hwinSize s.rt.dram) →
    ∃ t, exec (.bar2Access (.write off data)) s = .next t ∧
      memRead t.rt.dram.mem (s.senak.dwinBase.toNat * 2 ^ 30 + off) data.length = data ∧
      (∀ a, (a < s.senak.dwinBase.toNat * 2 ^ 30 + off ∨ s.senak.dwinBase.toNat * 2 ^ 30 + off + data.length ≤ a) →
        memGet t.rt.dram.mem a = memGet s.rt.dram.mem a) ∧
      (∀ l, lineIn (s.senak.dwinBase.toNat * 2 ^ 30 + off) data.length l = false →
        mget t.rt.dram.corrupt l = mget s.rt.dram.corrupt l ∧ mget t.rt.dram.inject l = mget s.rt.dram.inject l) ∧
      (∀ l, lineIn (s.senak.dwinBase.toNat * 2 ^ 30 + off) data.length l = true → mget t.rt.dram.inject l = none ∧
        (mget s.rt.dram.inject l = none → mget t.rt.dram.corrupt l = none)) ∧
      t = { s with rt := { s.rt with dram := { s.rt.dram with
        mem := t.rt.dram.mem, inject := t.rt.dram.inject, corrupt := t.rt.dram.corrupt } } }) ∧
  (∀ (off n : Nat) (s : State), s.reachable = true → s.rt.power.state = 0 → s.senak.dwinBase.toNat * 2 ^ 30 + off + n ≤ s.rt.dram.fitted →
    (∀ l, lineIn (s.senak.dwinBase.toNat * 2 ^ 30 + off) n l = true → mget s.rt.dram.corrupt l = none) →
    (∀ i, i < n → recOpen s (s.senak.dwinBase.toNat * 2 ^ 30 + off + i) = false) →
    exec (.bar2Access (.read off n)) s =
      .next { s with wire := .read (memRead s.rt.dram.mem (s.senak.dwinBase.toNat * 2 ^ 30 + off) n) :: s.wire }) ∧
  (∀ (off n l dev : Nat) (s : State), s.reachable = true → s.rt.power.state = 0 → s.senak.dwinBase.toNat * 2 ^ 30 + off + n ≤ s.rt.dram.fitted →
    lineIn (s.senak.dwinBase.toNat * 2 ^ 30 + off) n l = true → mget s.rt.dram.corrupt l = some (1, dev) →
    ∃ u, exec (.bar2Access (.read off n)) s = .next u ∧ u.wire.head? = some .poisonedRead) ∧
  (∀ (off n : Nat) (s : State), s.reachable = true → s.rt.power.state = 0 → s.senak.dwinBase.toNat * 2 ^ 30 + off + n ≤ s.rt.dram.fitted →
    (∀ l, lineIn (s.senak.dwinBase.toNat * 2 ^ 30 + off) n l = true → mget s.rt.dram.corrupt l = none) →
    ∃ (d : Bytes) (k : Nat), exec (.bar2Access (.read off n)) s = .next { s with wire := .read d :: s.wire, free := k } ∧
      ∀ i, i < n → recOpen s (s.senak.dwinBase.toNat * 2 ^ 30 + off + i) = false →
        d.getD i 0 = memGet s.rt.dram.mem (s.senak.dwinBase.toNat * 2 ^ 30 + off + i)) ∧
  (∀ (off n : Nat) (s : State), s.reachable = true → s.rt.power.state = 0 → s.rt.dram.fitted < s.senak.dwinBase.toNat * 2 ^ 30 + off + n →
    exec (.bar2Access (.read off n)) s = .next { s with
      wire := .read (List.replicate n 0xFF) :: s.wire
      senak := { s.senak with dwinErr := Nat.min 65535 (s.senak.dwinErr + 1), devFault := s.senak.devFault ||| 8#6 } }) ∧
  (∀ (off : Nat) (data : Bytes) (s : State), s.reachable = true → s.rt.power.state = 0 →
    (s.rt.dram.fitted < s.senak.dwinBase.toNat * 2 ^ 30 + off + data.length ∨
      (2 ≤ s.rt.mgmt.lifecycle ∧ hwinSize s.rt.dram < s.senak.dwinBase.toNat * 2 ^ 30 + off + data.length)) →
    exec (.bar2Access (.write off data)) s = .next { s with
      senak := { s.senak with dwinErr := Nat.min 65535 (s.senak.dwinErr + 1), devFault := s.senak.devFault ||| 8#6 } })

/-- MSI-X and configuration (R42, R44, R70, R599): unmasking a vector sends the message it held, that of the event ring once its hold-off has
passed; Bus Master Enable and the power state say whether the function may send, and messages held for unmasked vectors go once it may; a
configuration read answers the identity and class of R42, at the places that PCI Express gives them (log 161). -/
def Obligations.MsixAndConfiguration : Prop :=
  (∀ (v : Fin 64) (s : State), s.reachable = true → ∃ t, exec (.msixVectorUnmask v) s = .next t ∧
    msixMasked t.senak.pcie v.val = false ∧ t.rt = (wakeIfAsleep s).rt ∧
    t.senak.evq = { (wakeIfAsleep s).senak.evq with lastMsg := t.senak.evq.lastMsg } ∧
    (∀ w : Fin 64, w ≠ v → msixMasked t.senak.pcie w.val = msixMasked s.senak.pcie w.val) ∧
    (s.senak.pcie.canSend = true → s.senak.pcie.pba.getLsbD v.val = true → (v.val = 0 → (wakeIfAsleep s).ringDue = true) →
      t.senak.pcie.pba.getLsbD v.val = false ∧ .msix v.val ∈ t.wire) ∧
    (s.senak.pcie.canSend = false → t.senak.pcie.pba = (wakeIfAsleep s).senak.pcie.pba ∧ t.wire = (wakeIfAsleep s).wire)) ∧
  (∀ (t : Time) (on : Bool) (s : State), s.reachable = true → ∃ u, exec (.pcieConfigAccess t (.busMaster on)) s = .next u ∧
    u.senak.pcie.bme = on ∧ u.senak.evq = { s.senak.evq with lastMsg := u.senak.evq.lastMsg } ∧
    (∀ w, u.senak.pcie.canSend = true → s.senak.pcie.pba.getLsbD w = true → w ≠ 0 → w < 64 → msixMasked s.senak.pcie w = false →
      u.senak.pcie.pba.getLsbD w = false ∧ .msix w ∈ u.wire) ∧ (on = false → u.senak.pcie.pba = s.senak.pcie.pba ∧ u.wire = s.wire)) ∧
  (∀ (t : Time) (on : Bool) (s : State), s.reachable = true → ∃ u, exec (.pcieConfigAccess t (.power on)) s = .next u ∧
    u.senak.pcie.d0 = on ∧ u.senak.evq = { s.senak.evq with lastMsg := u.senak.evq.lastMsg } ∧
    (∀ w, u.senak.pcie.canSend = true → s.senak.pcie.pba.getLsbD w = true → w ≠ 0 → w < 64 → msixMasked s.senak.pcie w = false →
      u.senak.pcie.pba.getLsbD w = false ∧ .msix w ∈ u.wire) ∧ (on = false → u.senak.pcie.pba = s.senak.pcie.pba ∧ u.wire = s.wire)) ∧
  Happens (fun t => .pcieConfigAccess t .turnOff) (fun s => s.reachable = true) (fun s => { s with senak := { s.senak with
    pcie := { s.senak.pcie with turnOff := true } } }) ∧
  (∀ i : Fin 4, ∀ v : BitVec 32, Happens (fun t => .pcieConfigAccess t (.bar i v)) (fun s => s.reachable = true) (fun s => { s with
    senak := { s.senak with pcie := { s.senak.pcie with bars := mset s.senak.pcie.bars i.val v.toNat } } })) ∧
  Happens (fun t => .pcieConfigAccess t (.read 0)) (fun s => s.reachable = true)
    (fun s => { s with wire := .read (le 4 0x48101FD7) :: s.wire }) ∧
  Happens (fun t => .pcieConfigAccess t (.read 8)) (fun s => s.reachable = true)
    (fun s => { s with wire := .read (le 4 0x0B4000B0) :: s.wire }) ∧
  Happens (fun t => .pcieConfigAccess t .other) (fun s => s.reachable = true) (fun s => s) ∧
  (∀ off, Happens (fun t => .pcieConfigAccess t (.read off)) (fun s => s.reachable = true)
    (fun s => { s with wire := .read (le 4 (configRead s.senak.pcie (off / 4)).toNat) :: s.wire }))

/-- Doorbells (R55, R56, R81, R90): one for an idle slot sets BUSY, clears DONE and joins the queue, one for a busy slot is refused and counted;
one that is taken leaves the queue and runs the command its slot holds, a commit or rollback in two takings, and the longest wait is kept,
rounded up to whole µs, which is the model's choice (logs 118, 163). -/
def Obligations.Doorbells : Prop :=
  (∀ (t : Time) (v : BitVec 32) (s : State), s.reachable = true → s.senak.busy &&& (1#64 <<< (v.toNat % 64)) = 0 →
    exec (.mbxRing t v) s = .next
      (let a := (wakeIfAsleep s).advance t
       { a with senak := { a.senak with
          busy := a.senak.busy ||| (1#64 <<< (v.toNat % 64)), done := a.senak.done &&& ~~~(1#64 <<< (v.toNat % 64))
          doorbells := a.senak.doorbells ++ [{ slot := v.toNat % 64, arrived := a.rt.time.up }] } })) ∧
  (∀ (t : Time) (v : BitVec 32) (s : State), s.reachable = true → s.senak.busy &&& (1#64 <<< (v.toNat % 64)) ≠ 0 →
    ∃ u, exec (.mbxRing t v) s = .next u ∧ u.senak.mbxErr = Nat.min 65535 (s.senak.mbxErr + 1) ∧
      u.senak.devFault.getLsbD 0 = true ∧ u.senak.busy = s.senak.busy ∧ u.senak.done = s.senak.done ∧
      u.senak.doorbells = s.senak.doorbells) ∧
  (∀ (t : Time) (s : State) (d : Doorbell) (l : List Doorbell), s.senak.doorbells = d :: l → s.senak.ready = true →
    s.senak.preparing = none → s.rt.power.request = none → s.rt.power.state < 3 →
    let a := s.advance t
    let code := uN (memRead a.senak.slots (d.slot * 1024 + 2) 2) 0 2
    let r := slotRequest a.senak.slots (Fin.ofNat 64 d.slot) t
    let b := { a with senak := { a.senak with doorbells := l } }
    (code = 0x0201 ∨ code = 0x0202 → exec (.doorbellTake t) s = .next
      { b with senak := { b.senak with preparing := some { code := code, request := r, arrived := d.arrived } } }) ∧
    (code ≠ 0x0201 → code ≠ 0x0202 → exec (.doorbellTake t) s = .next
      (let u := runCode code r (if wakesSleep code then wakeIfAsleep b else b)
       { u with senak := { u.senak with stats := bumpMax u.senak.stats 0xC (ceilDiv (a.rt.time.up - d.arrived) tUs) } }))) ∧
  (∀ (t : Time) (s : State) (p : Preparing), s.senak.preparing = some p → s.senak.ready = true →
    exec (.doorbellTake t) s = .next
      (let a := s.advance t
       let u := runCode p.code { p.request with at_ := t } { a with senak := { a.senak with preparing := none } }
       { u with senak := { u.senak with stats := bumpMax u.senak.stats 0xC (ceilDiv (a.rt.time.up - p.arrived) tUs) } })) ∧
  (∀ (c : Cmd) (r : Request) (s : State), c ∈ allCommands → c.code ≠ 0x0102 → c.code ≠ 0x1203 →
    runCode c.code r s = runCmd c r s) ∧
  (∀ (t : Time) (s : State), s.senak.ready = false ∨ (s.senak.preparing = none ∧
      (s.senak.doorbells = [] ∨ s.rt.power.request ≠ none ∨ 3 ≤ s.rt.power.state)) →
    exec (.doorbellTake t) s = .next (s.advance t))

/-- The event ring (R65 to R71): where it has room the oldest event, or else the loss marker, is written at TAIL with the phase bit,
and TAIL moves on; where the function cannot send the ring stops; HEAD and the hold-off release vector 0. -/
def Obligations.EventRing : Prop :=
  let vectorZero := fun (s : State) => if s.senak.pcie.canSend ∧ msixMasked s.senak.pcie 0 = false then
      { s with
        wire := .msix 0 :: s.wire
        senak := { s.senak with
          pcie := { s.senak.pcie with pba := s.senak.pcie.pba &&& ~~~1#64 }, evq := { s.senak.evq with lastMsg := some s.rt.time.up } } }
    else { s with senak := { s.senak with pcie := { s.senak.pcie with pba := s.senak.pcie.pba ||| 1#64 } } }
  (∀ v, Hosted (.evqSizeWrite v) fun s => { s with senak := { s.senak with evq :=
    let q := s.senak.evq
    let fresh := v.getLsbD 31 && !q.en
    { q with
      log2 := if q.en = false ∧ 8 ≤ v.toNat % 16 ∧ v.toNat % 16 ≤ 12 then v.toNat % 16 else q.log2
      holdoff := v.toNat / 256 % 256, en := v.getLsbD 31, head := if fresh then 0 else q.head, tail := if fresh then 0 else q.tail
      phase := fresh || q.phase } } }) ∧
  (∀ (t : Time) (s : State) (e : Event) (l : List Event), Safe s → s.senak.evq.en = true → s.senak.evq.backlog = e :: l →
    (s.senak.evq.tail + 1) % 2 ^ s.senak.evq.log2 ≠ s.senak.evq.head → s.senak.pcie.canSend = true →
    ∃ u, exec (.eventRingWrite t) s = .next u ∧ u.senak.evq.backlog = l ∧
      u.senak.evq.tail = (s.senak.evq.tail + 1) % 2 ^ s.senak.evq.log2 ∧
      u.senak.evq.phase = (if u.senak.evq.tail = 0 then !s.senak.evq.phase else s.senak.evq.phase) ∧
      memRead u.hostMem (s.senak.evq.base.toNat * 4096 + s.senak.evq.tail * 32) 32 = entryBytes e s.senak.evq.phase ∧
      (∀ a, (a < s.senak.evq.base.toNat * 4096 + s.senak.evq.tail * 32 ∨ s.senak.evq.base.toNat * 4096 + s.senak.evq.tail * 32 + 32 ≤ a) →
        memGet u.hostMem a = memGet s.hostMem a)) ∧
  (∀ (t : Time) (s : State), Safe s → s.senak.evq.en = true → s.senak.evq.backlog = [] → s.senak.evq.marker ≠ 0 →
    (s.senak.evq.tail + 1) % 2 ^ s.senak.evq.log2 ≠ s.senak.evq.head → s.senak.pcie.canSend = true →
    ∃ u, exec (.eventRingWrite t) s = .next u ∧ u.senak.evq.marker = 0 ∧
      u.senak.evq.tail = (s.senak.evq.tail + 1) % 2 ^ s.senak.evq.log2 ∧
      memRead u.hostMem (s.senak.evq.base.toNat * 4096 + s.senak.evq.tail * 32) 32 =
        entryBytes { code := 0x0182, sev := 2, obj := 0, detail := s.senak.evq.marker, time := (s.advance t).now } s.senak.evq.phase) ∧
  (∀ (t : Time) (s : State), s.senak.evq.en = true → (s.senak.evq.backlog ≠ [] ∨ s.senak.evq.marker ≠ 0) →
    (s.senak.evq.tail + 1) % 2 ^ s.senak.evq.log2 ≠ s.senak.evq.head → s.senak.pcie.canSend = false →
    exec (.eventRingWrite t) s = .next (let a := s.advance t
      { a with senak := { a.senak with evq := { a.senak.evq with en := false }, devFault := a.senak.devFault ||| 4#6 } })) ∧
  Happens .evqHoldoffExpiry (fun s => s.senak.evq.tail ≠ s.senak.evq.head ∧
      ∀ l, s.senak.evq.lastMsg = some l → l + s.senak.evq.holdoff * tUs ≤ s.rt.time.up)
    vectorZero ∧
  (∀ v, Hosted (.evqHeadWrite v) fun s =>
    let s := { s with senak := { s.senak with evq := { s.senak.evq with head := v.toNat % 4096 } } }
    if s.senak.evq.tail ≠ s.senak.evq.head ∧ ∀ l, s.senak.evq.lastMsg = some l → l + s.senak.evq.holdoff * tUs ≤ s.rt.time.up then
      vectorZero s else s)

/-- What time brings to generations and to the tick (R79, R97, R98, R102, R104, R105, R126, R154): a quiesce ends, a snapshot is
released, the armed generation becomes active, a boundary latches what queries read, and JOURNAL takes its copy. -/
def Obligations.GenerationEvents : Prop :=
  (∀ (t : Time) (b : Fin 36) (s : State) (q : Quiesce) (p : PendingCmd), quiescing s b.val = [q] → blockIdle (s.advance t) b.val = true →
    (s.senak.pending.find? fun p => p.code == 0x0103 && p.obj == b.val && p.slot == q.slot && p.hostSeq == q.hostSeq) = some p →
    ∃ u, exec (.quiesceIdle t b) s = .next u ∧ b.val ∈ u.senak.stopped ∧ b.val ∈ u.senak.quiesced ∧
      u.senak.quiesce = s.senak.quiesce.erase (b.val, q) ∧ u.senak.pending = s.senak.pending.erase p) ∧
  (∀ (t : Time) (b : Fin 36) (s : State) (q : Quiesce) (p : PendingCmd), quiescing s b.val = [q] → q.deadline ≤ (s.advance t).rt.time.up →
    (s.senak.pending.find? fun p => p.code == 0x0103 && p.obj == b.val && p.slot == q.slot && p.hostSeq == q.hostSeq) = some p →
    ∃ u, exec (.quiesceTimeout t b) s = .next u ∧ u.senak.stopped = s.senak.stopped ∧
      u.senak.quiesce = s.senak.quiesce.erase (b.val, q) ∧ u.senak.pending = s.senak.pending.erase p) ∧
  Happens .snapshotExpiry (fun s => ∃ n, s.snap = some n ∧ n.expires ≤ s.rt.time.up)
    (fun s => { s with snap := none }.raiseAt (s.rt.time.now / tMs * tMs) { code := 0x0282, sev := 1, obj := 0, detail := 0 }) ∧
  (∀ (s : State) (a : Armed), s.gens.armed = some a → a.waitPower = false → s.booted = true → s.rt.clover.items = [] →
    s.gens.reactivate = false →
    ∃ u, exec .genActivate s = .next u ∧ u.gens.active = a.gen ∧ u.gens.armed = none ∧
      u.gens.previous = if a.rollback then none else some s.gens.active) ∧
  (∀ s : State, s.gens.armed = none ∨ (∃ a, s.gens.armed = some a ∧ a.waitPower = true) → exec .genActivate s = .next s) ∧
  (∀ s : State, ∃ u, exec .tickBoundary s = .next u ∧ u.latch = u.rt ∧ u.latchAt = u.rt.time.now ∧ u.latchStats = u.senak.stats ∧
    (mediaRuns s = true → u.rt.clover.dispatched = false)) ∧
  (∀ (s : State) (a : Armed), mediaRuns s = true → s.rt.clover.items = [] → s.gens.reactivate = false → s.gens.armed = some a →
    ∃ u, exec .tickBoundary s = .next u ∧
      u.gens.active = if a.waitPower = false ∧ a.boundary ≤ (s.advance (nextBoundary s)).now then a.gen else s.gens.active) ∧
  (∀ (s : State) (o : Nat) (i : Item), mediaRuns s = true → s.rt.clover.items = [(o, i)] → i.waits = true → i.tickItem = false →
    i.ofStream = false → flowKind i.flow ≠ 2 →
    i.past (((s.advance (nextBoundary s)).now / tMs + 4294967295) % 4294967296) = true →
    ∃ u, exec .itemDeadline s = .next u ∧ u.rt.clover.items = [] ∧ u.rt.clover.stats = bump s.rt.clover.stats 0x10) ∧
  (∀ (t : Time) (s : State), mediaRuns s = true →
    (∀ k, s.rt.fault.journalTick = some k → k / 16 ≠ (s.advance t).now / tMs / 16) → ∃ u, exec (.contextJournalCopy t) s = .next u ∧
    u.journal = { legs := s.rt.audio.legs, confs := s.rt.audio.confs, vids := s.rt.video.vids, outs := s.rt.mallow.outs } ∧
    u.rt.fault.journal = s.rt.fault.selectors ∧ u.rt.fault.journalTick = some ((s.advance t).now / tMs)) ∧
  (∀ (t : Time) (k : Nat) (s : State), s.rt.fault.journalTick = some k → k / 16 = (s.advance t).now / tMs / 16 →
    exec (.contextJournalCopy t) s = .next (s.advance t)) ∧
  (∀ (t : Time) (s : State), (s.advance t).atBoundary = true → mediaRuns s = true → s.gens.reactivate = true →
    exec (.warmResume ⟨t, []⟩) s = .next (warmResume (s.advance t)) ∧ (warmResume (s.advance t)).gens.active = s.gens.active ∧
    (warmResume (s.advance t)).gens.reactivate = false) ∧
  (∀ (t : Time) (bad : List Nat) (s : State), s.gens.reactivate = false → exec (.warmResume ⟨t, bad⟩) s = .next (s.advance t))

/-- Clover (R114, R115, R117, R118, R122 to R124, R126 to R131, R138): an item enters at the next order, below the item that enqueued it
where a core did, a bad descriptor is discarded, a stalled producer goes on, blocks of 64 spill and return in the order of their ranks, the
free consumer at the rotating pointer takes the best item, and completion makes what the item computed take effect and releases it; a core's
item that ends its deadline tick or later is a fault of cause 4. (What ends a spill
episode and who raises back-pressure are logs 167 and 169.) -/
def Obligations.CloverRows : Prop :=
  let rank := fun (s : State) (i : Nat × Item) => i.2.rank s.rt.clover.tick * 2 ^ 40 + i.1
  (∀ (t : Time) (e : Enqueue) (s : State) (i : Item), s.coreClock = true → parseItem e.port e.desc = some i →
    (s.rt.clover.stalled.any fun p => p.1 == e.port && p.2.2 == e.by_.map fun b => (b.1.val, b.2.val)) = false →
    s.rt.clover.sharedUse < 114112 →
    ∃ u j, exec (.workItemEnqueue t e) s = .next u ∧ mget u.rt.clover.items s.rt.clover.nextOrder = some j ∧
      j.handler = i.handler ∧ j.flow = i.flow ∧ j.level = i.level ∧ j.object = i.object ∧ j.deadline = i.deadline ∧ j.target = i.target ∧
      j.input = i.input ∧ j.length = i.length ∧ j.reserve = none ∧
      j.state = (match e.by_.bind fun b => s.rt.clover.running b.1.val b.2.val with
        | some x => .nascent x.1
        | none => .waiting) ∧
      (∀ o, o ≠ s.rt.clover.nextOrder → (mget u.rt.clover.items o).map (·.state) = (mget s.rt.clover.items o).map (·.state)) ∧
      u.rt.clover.nextOrder = s.rt.clover.nextOrder + 1 ∧ u.rt.clover.stalled = s.rt.clover.stalled) ∧
  (∀ (t : Time) (e : Enqueue) (s : State), s.coreClock = true → parseItem e.port e.desc = none →
    ∃ u, exec (.workItemEnqueue t e) s = .next u ∧ u.rt.clover = { s.rt.clover with stats := bump s.rt.clover.stats 0x14 }) ∧
  (∀ (t : Time) (e : Enqueue) (s : State) (i : Item), s.coreClock = true → parseItem e.port e.desc = some i →
    (s.rt.clover.stalled.any fun p => p.1 == e.port && p.2.2 == e.by_.map fun b => (b.1.val, b.2.val)) = true →
    ∃ u, exec (.workItemEnqueue t e) s = .next u ∧ u.rt.clover.items = s.rt.clover.items ∧
      u.rt.clover.stalled = s.rt.clover.stalled ++ [(e.port, e.desc, e.by_.map fun b => (b.1.val, b.2.val))]) ∧
  (∀ (t : Time) (s : State) (p : Nat × Bytes × Option (Nat × Nat)) (i : Item), s.coreClock = true → nextStalled s.rt.clover = some p →
    parseItem p.1 p.2.1 = some i → s.rt.clover.sharedUse < 114112 →
    ∃ u j, exec (.enqueueStallRelease t) s = .next u ∧ u.rt.clover.stalled = s.rt.clover.stalled.erase p ∧
      mget u.rt.clover.items s.rt.clover.nextOrder = some j ∧ j.flow = i.flow ∧ j.level = i.level ∧ j.object = i.object ∧
      j.handler = i.handler ∧ j.deadline = i.deadline ∧ j.target = i.target ∧
      u.rt.clover.ptr = (p.1 + 1) % 64 ∧ u.rt.clover.nextOrder = s.rt.clover.nextOrder + 1 ∧
      (s.rt.clover.stalled.erase p = [] → u.rt.clover.pressureFrom = none) ∧
      (s.rt.clover.stalled.erase p ≠ [] → u.rt.clover.pressureFrom = s.rt.clover.pressureFrom)) ∧
  (∀ (t : Time) (s : State), s.coreClock = true → 106496 ≤ s.rt.clover.sharedUse → ∃ u, ∃ take rest : List (Nat × Item),
    exec (.spillBlock t) s = .next u ∧
    (take ++ rest).Perm (s.rt.clover.items.filter fun i => i.2.state == .waiting && i.2.reserve.isNone) ∧
    take.length = Nat.min (Nat.min 64 (16777216 - s.rt.clover.spilled)) (take.length + rest.length) ∧
    (∀ a ∈ take, ∀ b ∈ rest, rank s b ≤ rank s a) ∧
    u.rt.clover.items = (s.rt.clover.items.map fun i =>
      if i.1 ∈ take.map (·.1) then (i.1, { i.2 with state := .spilled }) else i) ∧ u.rt.clover.spilling = true) ∧
  (∀ (t : Time) (s : State), s.coreClock = true → s.rt.clover.sharedUse < 90112 → ∃ u, ∃ take rest : List (Nat × Item),
    exec (.refillBlock ⟨t, []⟩) s = .next u ∧ (take ++ rest).Perm (s.rt.clover.items.filter fun i => i.2.state == .spilled) ∧
    take.length = Nat.min 64 (take.length + rest.length) ∧ (∀ a ∈ take, ∀ b ∈ rest, rank s a ≤ rank s b) ∧
    u.rt.clover.items = s.rt.clover.items.map fun i => if i.1 ∈ take.map (·.1) then (i.1, { i.2 with state := .waiting }) else i) ∧
  (∀ (t : Time) (bad : List Nat) (s : State), s.coreClock = true → 90112 ≤ s.rt.clover.sharedUse → s.rt.clover.spilled ≠ 0 →
    exec (.refillBlock ⟨t, bad⟩) s = .next (s.advance t)) ∧
  (∀ (t : Time) (b : Fin 36) (p : Fin 9) (n o : Nat) (i : Item) (s : State), s.coreClock = true →
    consumerIn s.rt.fault b.val p.val = true →
    s.rt.clover.running b.val p.val = none → dispatchable s (serverOf s b.val) = true → nextItem s b.val = some (o, i) →
    s.domainReady (serverOf s b.val) = true → takerOf s o i = some (b.val, p.val) → badEntry s b.val i = none →
    mget s.rt.fault.injections (serverOf s b.val * 16 + p.val) = none →
    ∃ u, exec (.itemDispatch t b p n) s = .next (missLost (s.advance t) u) ∧
      (∀ e ∈ s.rt.clover.items, mget u.rt.clover.items e.1 ≠ none) ∧ u.rt.clover.dispatched = true ∧
      u.rt.clover.items = mset s.rt.clover.items o { i with state := .inService b.val p.val, began := startsUnder s i } ∧
      u.rt.clover.cptr = (b.val * 9 + p.val + 1) % 324 ∧ u.rt.fault.stats = bump s.rt.fault.stats 0x14 n) ∧
  (∀ (t : Time) (b : Fin 36) (p : Fin 9) (o : Nat) (i : Item) (s : State), s.rt.clover.running b.val p.val = some (o, i) →
    s.coreClock = true → coreDone s b.val p.val = true → engineWork s b.val i = false →
    (b.val < 16 → i.past (endedTick (s.advance t)) = false) → flowKind i.flow = 1 → i.flow ≠ noFlow →
    ∃ v, exec (.itemComplete t b p) s = .next (applyWork i v) ∧ mget v.rt.clover.items o = none ∧
      v.rt.fault.selectors = mset s.rt.fault.selectors i.flow (1 - mgetD s.rt.fault.selectors i.flow 0) ∧
      v.rt.audio = s.rt.audio ∧ v.rt.video = s.rt.video ∧ v.rt.mallow = s.rt.mallow ∧ v.gens = s.gens) ∧
  (∀ (t : Time) (b : Fin 36) (p : Fin 9) (o : Nat) (i : Item) (s : State) (h : b.val < 16), s.rt.clover.running b.val p.val = some (o, i) →
    s.coreClock = true → coreDone s b.val p.val = true → i.past (endedTick (s.advance t)) = true →
    ∃ u, exec (.itemComplete t b p) s = .next u ∧ exec (.coreFault t ⟨b.val, h⟩ p 3) s = .next u) ∧
  (∀ (t : Time) (b : Fin 36) (p : Fin 9) (s : State), coreDone s b.val p.val = false → exec (.itemComplete t b p) s = .next (s.advance t))

/-- Core faults, spares and shedding (R141 to R149): a faulting core is fenced and a held spare claims its position, the item it ran
is replayed once at level 0, the spare enters with its image, a tested core returns at a boundary, and a degraded cluster sheds.
Engine faults and errors in cluster memory (R144, R150, R152, R153): an engine is fenced and a held spare of its kind takes its
place, or what it served is orphaned; the item that met an uncorrectable error ends without output. -/
def Obligations.CoreAndEngineFaultRows : Prop :=
  (∀ (t : Time) (b : Fin 16) (p : Fin 9) (c : Fin 4) (site : Nat) (s : State), mget (s.rt.fault.cluster b.val).pos p.val = some site →
    s.rt.clover.running b.val p.val = none →
    ∃ u, exec (.coreFault t b p c) s = .next u ∧ mget (u.rt.fault.cluster b.val).pos p.val = none ∧
      site ∈ (u.rt.fault.cluster b.val).fenced ∧
      (p.val < 8 → mhas (s.rt.fault.cluster b.val).pos 8 = true → (s.rt.fault.cluster b.val).claim = none →
        (u.rt.fault.cluster b.val).claim = some (p.val, (s.advance t).rt.time.up))) ∧
  (∀ (t : Time) (b : Fin 16) (p : Fin 9) (c : Fin 4) (site o : Nat) (i : Item) (s : State),
    mget (s.rt.fault.cluster b.val).pos p.val = some site → s.rt.clover.running b.val p.val = some (o, i) → i.replayed = false →
    (∀ e ∈ s.rt.clover.items, e.2.ofStream = false) →
    ∃ u j, exec (.coreFault t b p c) s = .next u ∧ mget u.rt.clover.items o = some j ∧ j.object = i.object ∧ j.flow = i.flow ∧
      j.deadline = (if c.val = 3 then (i.deadline + 1) % 4294967296 else i.deadline) ∧ j.level = 0 ∧ j.replayed = true ∧ j.target = b.val ∧ j.state = .waiting) ∧
  (∀ (t : Time) (b : Fin 16) (s : State), (s.rt.fault.cluster b.val).claim ≠ none →
    ∃ u, exec (.spareLoaded t b) s = .next u ∧ (u.rt.fault.cluster b.val).loaded = true ∧
      (u.rt.fault.cluster b.val).claim = (s.rt.fault.cluster b.val).claim) ∧
  (∀ (t : Time) (b : Fin 16) (p : Nat) (c : Time) (site : Nat) (s : State), (s.advance t).atBoundary = true →
    (s.rt.fault.cluster b.val).claim = some (p, c) → mget (s.rt.fault.cluster b.val).pos 8 = some site →
    (s.rt.fault.cluster b.val).loaded = true → c + 20 * tUs ≤ (s.advance t).rt.time.up →
    ∃ u, exec (.spareEntry t b) s = .next u ∧ mget (u.rt.fault.cluster b.val).pos p = some site ∧
      (u.rt.fault.cluster b.val).claim = none) ∧
  (∀ (t : Time) (b : Fin 30) (r : UnitTest) (s : State), b.val < 16 → r.site.val ∈ (s.rt.fault.cluster b.val).fenced →
    mhas (s.rt.fault.cluster b.val).toTest r.site.val = false → mhas (s.rt.fault.cluster b.val).ended r.site.val = false →
    s.rt.mgmt.lifecycle ≠ 4 →
    ∃ u, exec (.coreSelftestEnd t b r) s = .next u ∧ mhas (u.rt.fault.cluster b.val).ended r.site.val = true ∧
      mget u.rt.dsp.cores (b.val * 16 + r.site.val) = some {}) ∧
  (∀ (t : Time) (b : Fin 30) (r : UnitTest) (s : State), 16 ≤ b.val → r.site.val = 0 → b.val ∈ s.rt.fault.enginesFenced →
    mhas s.rt.fault.enginesEnded b.val = false → s.rt.mgmt.lifecycle ≠ 4 →
    ∃ u, exec (.coreSelftestEnd t b r) s = .next u ∧ mhas u.rt.fault.enginesEnded b.val = true) ∧
  (∀ (t : Time) (b : Fin 30) (site p : Nat) (s : State), (s.advance t).atBoundary = true → b.val < 16 →
    (s.rt.fault.cluster b.val).ended = [(site, some p)] →
    ∃ u, exec (.coreReturn t b) s = .next u ∧ (u.rt.fault.cluster b.val).ended = [] ∧
      (u.rt.fault.cluster b.val).fenced = (s.rt.fault.cluster b.val).fenced.erase site ∧
      (p ∈ emptyPositions (s.rt.fault.cluster b.val) → mget (u.rt.fault.cluster b.val).pos p = some site) ∧
      (p ∉ emptyPositions (s.rt.fault.cluster b.val) →
        mget (u.rt.fault.cluster b.val).pos ((emptyPositions (s.rt.fault.cluster b.val)).headD 8) = some site)) ∧
  (∀ (t : Time) (b : Fin 30) (site : Nat) (s : State), (s.advance t).atBoundary = true → b.val < 16 →
    (s.rt.fault.cluster b.val).ended = [(site, none)] →
    ∃ u, exec (.coreReturn t b) s = .next u ∧ (u.rt.fault.cluster b.val).ended = [] ∧
      (u.rt.fault.cluster b.val).fenced = (s.rt.fault.cluster b.val).fenced.erase site ∧
      (u.rt.fault.cluster b.val).pos = (s.rt.fault.cluster b.val).pos) ∧
  (∀ (t : Time) (b : Fin 30) (ok : Bool) (s : State), (s.advance t).atBoundary = true → 16 ≤ b.val →
    mget s.rt.fault.enginesEnded b.val = some ok →
    ∃ u, exec (.coreReturn t b) s = .next u ∧ mhas u.rt.fault.enginesEnded b.val = false ∧
      u.rt.fault.enginesFenced = s.rt.fault.enginesFenced.erase b.val ∧
      (ok = false → u.rt.fault.places = s.rt.fault.places ∧ u.rt.fault.spares = s.rt.fault.spares) ∧
      (ok = true → b.val ∈ u.rt.fault.spares ∨ ∃ p, mget u.rt.fault.places p = some b.val)) ∧
  (∀ (t : Time) (b : Fin 16) (s : State), (s.advance t).atBoundary = true → (s.rt.fault.cluster b.val).degraded = true →
    shedding s b.val ≠ ([], []) →
    ∃ u, exec (.loadShedStart t b) s = .next u ∧ (u.rt.fault.cluster b.val).shedLegs = (shedding s b.val).1 ∧
      (u.rt.fault.cluster b.val).shedRoutes = (shedding s b.val).2) ∧
  (∀ (t : Time) (b : Fin 16) (s : State), (s.advance t).atBoundary = true →
    ((s.rt.fault.cluster b.val).shedLegs ≠ [] ∨ (s.rt.fault.cluster b.val).shedRoutes ≠ []) →
    clusterCharge s.gens.active b.val ≤ clusterLimit s.rt.fault s.rt.power.point b.val →
    ∃ u, exec (.loadShedEnd t b) s = .next u ∧ (u.rt.fault.cluster b.val).shedLegs = [] ∧ (u.rt.fault.cluster b.val).shedRoutes = []) ∧
  (∀ (row : Time → Instr) (e p x : Nat) (t : Time) (s : State),
    ((∃ n : Fin 9, e = 16 + n.val ∧ (row = (.campionEngineFault · n) ∨ row = (.campionSliceWatchdog · n))) ∨
      (∃ n : Fin 5, e = 25 + n.val ∧ row = (.mallowEngineFault · n))) →
    s.rt.fault.placeOf e = some p → (s.rt.fault.spares.find? fun x => decide (x < 25) == decide (e < 25)) = some x →
    ∃ u, exec (row t) s = .next u ∧ e ∈ u.rt.fault.enginesFenced ∧ mget u.rt.fault.places p = some x ∧
      u.rt.fault.spares = s.rt.fault.spares.erase x ∧ u.rt.fault.orphans = s.rt.fault.orphans) ∧
  (∀ (row : Time → Instr) (e p : Nat) (t : Time) (s : State),
    ((∃ n : Fin 9, e = 16 + n.val ∧ (row = (.campionEngineFault · n) ∨ row = (.campionSliceWatchdog · n))) ∨
      (∃ n : Fin 5, e = 25 + n.val ∧ row = (.mallowEngineFault · n))) →
    s.rt.fault.placeOf e = some p → (s.rt.fault.spares.find? fun x => decide (x < 25) == decide (e < 25)) = none →
    ∃ u, exec (row t) s = .next u ∧ e ∈ u.rt.fault.enginesFenced ∧ mget u.rt.fault.places p = none ∧
      u.rt.fault.orphans = s.rt.fault.orphans ++
        (if e < 25 then (s.gens.active.vidAt.filter fun v => v.2 == p).map fun v => 0x10000 + v.1
        else (s.gens.active.outAt.filter fun v => v.2 == p).map fun v => 0x20000 + v.1)) ∧
  (∀ (t : Time) (b : Fin 16) (p : Fin 9) (page : Bool) (s : State), s.rt.clover.running b.val p.val = none →
    exec (.clusterMemoryUe t b p page) s = .next (let a := s.advance t
      { a with rt := { a.rt with fault := { a.rt.fault with stats := bump a.rt.fault.stats 0x10 } } })) ∧
  (∀ (t : Time) (b : Fin 16) (p : Fin 9) (page : Bool) (o : Nat) (i : Item) (s : State), s.rt.clover.running b.val p.val = some (o, i) →
    flowKind i.flow ≠ 2 → i.ofStream = false →
    ∃ u, exec (.clusterMemoryUe t b p page) s = .next u ∧ mget u.rt.clover.items o = none)

/-- What time brings to a leg and to a serial audio port (R170, R173, R182, R186, R217).
The tick items of legs and conferences, and a leg's packets (R165 to R179, R196 to R205): a leg's item runs its receive and then
its send chain, and on a TDM leg leaves eight octets for the line; a packet that fails the checks of R166 is counted, and one that
passes makes its leg play. -/
def Obligations.AudioRows : Prop :=
  (∀ n : Fin 8192, Happens (.toneCommandTakeEffect · n) (fun s => (s.leg n.val).toneNext ≠ none ∧ s.rt.time.now % tMs = 0)
    (modLeg n.val fun l => { l with tone := (l.toneNext.getD none).map fun b => (b, 0), toneNext := none })) ∧
  (∀ n : Fin 8192, Happens (.legToneDone · n) (fun s => ∃ b k, (s.leg n.val).tone = some (b, k) ∧ u8 b 0xA ≠ 0 ∧ repeatMs b * u8 b 0xA ≤ k)
    (fun s => (modLeg n.val (fun l => { l with tone := none }) s).post 0x0588 0 n.val 0)) ∧
  (∀ n : Fin 8192, Happens (.ecReenableExpiry · n) (fun s => (s.leg n.val).ecDisabled = true ∧ 250 ≤ (s.leg n.val).quietMs)
    (fun s => (modLeg n.val (fun l => { l with ecDisabled := false }) s).post 0x0587 1 n.val 0)) ∧
  (∀ n : Fin 8192, Happens (.legMediaTimeout · n)
    (fun s => (s.leg n.val).rxState = .playing ∧ u16 (mgetD s.gens.active.legs n.val []) 0x1E ≠ 0 ∧
      (s.leg n.val).rtp.lastValid + u16 (mgetD s.gens.active.legs n.val []) 0x1E * tMs ≤ s.rt.time.up)
    (fun s => (modLeg n.val (fun l => { l with rxState := .timedOut }) s).post 0x0583 2 n.val 0)) ∧
  (∀ n : Fin 8192, Happens (.jbHeldDecay · n) (fun s => mhas s.gens.active.legs n.val = true ∧ (s.leg n.val).lateAt + 10 * tS ≤ s.rt.time.up)
    (modLeg n.val fun l => { l with held := l.held - 1, lateAt := l.lateAt + 10 * tS })) ∧
  (∀ (t : Time) (n : Fin 8192) (b : Bytes) (s : State), mget s.gens.active.legs n.val = some b → (s.advance t).now % tMs = 0 →
    (s.advance t).now / tMs % (if s.rt.mgmt.level = 2 then 500 else 200) = 0 → u8 b 0xE = 0 → (s.leg n.val).rxState = .playing → (s.leg n.val).anchor ≠ none →
    ((s.leg n.val).d < (s.leg n.val).target b → exec (.jbDelayStep t n) s =
      .next (modLeg n.val (fun l => { l with d := l.d + 1, insert := true, stats := bump l.stats 0x40 }) (s.advance t))) ∧
    ((s.leg n.val).target b < (s.leg n.val).d → (s.leg n.val).dropIn = none → ∃ u k, exec (.jbDelayStep t n) s = .next u ∧
      (u.leg n.val).dropIn = some k ∧ k < 20 ∧
      (∀ j, j < 20 → (nextEnergies b 20 (s.advance t).now (s.leg n.val)).getD k 0 ≤ (nextEnergies b 20 (s.advance t).now (s.leg n.val)).getD j 0)) ∧
    ((s.leg n.val).target b = (s.leg n.val).d → exec (.jbDelayStep t n) s = .next (s.advance t))) ∧
  (∀ p : Fin 4, Happens (.sapStop · p) (fun s => s.rt.time.now % tMs = 0 ∧ (mgetD s.rt.audio.saps p.val {}).next ≠ none)
    (fun s => { s with rt := { s.rt with audio := { s.rt.audio with
      saps := mset s.rt.audio.saps p.val { mgetD s.rt.audio.saps p.val {} with stopped := true, since := s.rt.time.up } } } })) ∧
  (∀ p : Fin 4, Happens (.sapRestart · p)
    (fun s => s.rt.time.now % tMs = 0 ∧ (mgetD s.rt.audio.saps p.val {}).stopped = true ∧ s.boot.phase = .running ∧
      (mgetD s.rt.audio.saps p.val {}).since < s.rt.time.up)
    (fun s => { s with rt := { s.rt with audio := { s.rt.audio with
      saps := mset s.rt.audio.saps p.val
        { mgetD s.rt.audio.saps p.val {} with
          block := (mgetD s.rt.audio.saps p.val {}).next.getD (mgetD s.rt.audio.saps p.val {}).block, next := none, stopped := false } } } })) ∧
  (∀ (t : Time) (x : LegTick) (b : Bytes) (s : State), mget s.gens.active.legs x.leg.val = some b →
    serviceOf (s.advance t) x.leg.val = none →
    ∃ u, exec (.legItem t x) s = .next u ∧ u = legTxTick x.leg.val b (legRxTick x.leg.val b x (s.advance t)) ∧
      (u8 b 2 = 1 → (u.leg x.leg.val).tdmOut =
        slice (encodeFrame b ((legRxTick x.leg.val b x (s.advance t)).leg x.leg.val).enc (u.leg x.leg.val).lastSend) 0 8)) ∧
  (∀ (t : Time) (x : LegTick) (o : Nat) (i : Item) (s : State), serviceOf (s.advance t) x.leg.val = some (o, i) →
    exec (.legItem t x) s = .next (deferWork o (.leg x) (s.advance t))) ∧
  (∀ (t : Time) (n : Fin 2048) (b : Bytes) (s : State), mget s.gens.active.confs n.val = some b →
    serviceOf (s.advance t) (0x2000 + n.val) = none →
    ∃ u, exec (.confItem t n) s = .next u ∧
      (u.conf n.val).outs = ((if eqStable b then id else unstableOuts (Config.freeNat s.free))
        ((confTick n.val b (s.advance t)).1 ((s.advance t).conf n.val))).outs ∧
      (u.conf n.val).selected = ((confTick n.val b (s.advance t)).1 ((s.advance t).conf n.val)).selected) ∧
  (∀ (t : Time) (n : Fin 2048) (o : Nat) (i : Item) (s : State), serviceOf (s.advance t) (0x2000 + n.val) = some (o, i) →
    exec (.confItem t n) s = .next (deferWork o .conf (s.advance t))) ∧
  (∀ (t : Time) (n : Fin 8192) (b : Bytes) (a : Time) (f : Frame) (s v : State), mget s.gens.active.legs n.val = some b → u8 b 2 ≠ 3 →
    (s.advance t).stalls 30 = false → popInbox n.val (s.advance t) = (some (a, f), v) → bit (u8 b 5) 7 = false →
    ((frameRtp f).version ≠ 2 → exec (.legRxPacket t n) s = .next (bumpLeg n.val 0x24 1 v)) ∧
    ((frameRtp f).version = 2 → (frameRtp f).pt = u8 b 0x23 → u8 b 0x58 = 0 →
      ((s.leg n.val).rtp.accept (u32 b 0x4C) (frameRtp f).ssrc).1 = true →
      ∃ u, exec (.legRxPacket t n) s = .next u ∧ (u.leg n.val).rxState = .playing)) ∧
  (∀ (t : Time) (n : Fin 8192) (s : State), mgetD s.rt.net.inbox n.val [] = [] → exec (.legRxPacket t n) s = .next (s.advance t)) ∧
  (∀ (t : Time) (n : Fin 8192) (s : State), (s.advance t).stalls 30 = true → exec (.legRxPacket t n) s = .next (s.advance t))

/-- RTCP (R187, R248, R251, R312, R313, R318): a report leaves when its interval has passed and closes it, and a sender report that
arrives gives the time of the last report. -/
def Obligations.Rtcp : Prop :=
  (∀ (t : Time) (n : Fin 8192) (b : Bytes) (s : State), mget s.gens.active.legs n.val = some b → u8 b 2 = 0 → bit (u8 b 5) 3 = true →
    (s.leg n.val).stopped = false → (s.leg n.val).rtcpAt ≤ (s.advance t).rt.time.up →
    ∃ u, exec (.rtcpSend t (.leg n)) s = .next u ∧ (u.leg n.val).sentSince = false ∧
      (u.leg n.val).rtp.receivedPrior = (u.leg n.val).rtp.received) ∧
  (∀ (t : Time) (v : Fin 4096) (b : Bytes) (s : State), mget s.gens.active.vids v.val = some b →
    (isEncode s.gens.active v.val = false ∨ allZero (slice b 0x44 16) = false) → (s.vid v.val).rtcpAt ≤ (s.advance t).rt.time.up →
    ∃ u, exec (.rtcpSend t (.vid v)) s = .next u ∧ (u.vid v.val).sentSince = false ∧
      (u.vid v.val).rtp.receivedPrior = (u.vid v.val).rtp.received) ∧
  (∀ (t : Time) (n : Fin 4096) (b : Bytes) (s : State), mget s.gens.active.relays n.val = some b →
    (s.rt.fwd.relay n.val).rtcpAt ≤ (s.advance t).rt.time.up →
    ∃ u, exec (.rtcpSend t (.relay n)) s = .next u ∧ (u.rt.fwd.relay n.val).rtp.receivedPrior = (u.rt.fwd.relay n.val).rtp.received) ∧
  (∀ (t : Time) (n : Fin 32768) (b : Bytes) (s : State), mget s.gens.active.subs n.val = some b →
    (s.rt.fwd.sub n.val).rtcpAt ≤ (s.advance t).rt.time.up →
    ∃ u, exec (.rtcpSend t (.sub n)) s = .next u ∧ (u.rt.fwd.sub n.val).sentSince = false) ∧
  (∀ (t : Time) (n : Fin 8192) (a : Time) (f : Frame) (c : Nat) (body : Bytes) (s v : State), mhas s.gens.active.legs n.val = true →
    (s.advance t).stalls 30 = false → popInbox (0x100000 + n.val) (s.advance t) = (some (a, f), v) → rtcpParts (f.data.length / 4 + 1) f.data = [(c, 200, body)] →
    ∃ u, exec (.rtcpReceive t (.leg n)) s = .next u ∧ (u.leg n.val).rtp.lastSr = some (beNat (slice body 6 4), (s.advance t).rt.time.up)) ∧
  (∀ (t : Time) (n : Fin 4096) (a : Time) (f : Frame) (c : Nat) (body : Bytes) (s v : State), mhas s.gens.active.relays n.val = true →
    (s.advance t).stalls 30 = false → popInbox (0x180000 + n.val) (s.advance t) = (some (a, f), v) → rtcpParts (f.data.length / 4 + 1) f.data = [(c, 200, body)] →
    ∃ u, exec (.rtcpReceive t (.relay n)) s = .next u ∧
      (u.rt.fwd.relay n.val).sr = some (beNat (slice body 4 8), beNat (slice body 12 4), (s.advance t).rt.time.up)) ∧
  (∀ (t : Time) (o : RtcpObject) (key : Nat) (s : State),
    key = 0x100000 + (match o with
      | .leg n => n.val
      | .vid v => 0x3000 + v.val
      | .relay v => 0x80000 + v.val
      | .sub n => 0x90000 + n.val) →
    mgetD s.rt.net.inbox key [] = [] ∨ (s.advance t).stalls 30 = true → exec (.rtcpReceive t o) s = .next (s.advance t))

/-- Video rows (R236 to R260, R267): a valid packet counts for its stream, a picture past its timeout is complete, a clean
random-access picture makes the stream clean, a picture's coding starts at its instant and ends with its last slice. -/
def Obligations.VideoRows : Prop :=
  (∀ (t : Time) (v : Fin 4096) (b : Bytes) (x : Vid) (a : Time) (f : Frame) (s w : State),
    mget s.gens.active.vids v.val = some b → u8 b 2 = 0 → mget s.rt.video.vids v.val = some x → (s.advance t).stalls 30 = false →
    popInbox (0x3000 + v.val) (s.advance t) = (some (a, f), w) → bit (u8 b 0x67) 1 = false →
    ((frameRtp f).version ≠ 2 → exec (.videoRtpReceive t v) s = .next (bumpVid v.val 0x2C 1 w)) ∧
    ((frameRtp f).version = 2 → (frameRtp f).pt = u8 b 0x33 → (x.rtp.accept (u32 b 0x58) (frameRtp f).ssrc).1 = true →
      ∃ u, exec (.videoRtpReceive t v) s = .next u ∧ (u.vid v.val).rtp.lastValid = (s.advance t).rt.time.up)) ∧
  (∀ (t : Time) (v : Fin 4096) (s : State), (s.advance t).stalls 30 = true → exec (.videoRtpReceive t v) s = .next (s.advance t)) ∧
  (∀ (t : Time) (v : Fin 4096) (q : Assembly) (s : State), q ∈ (s.vid v.val).assembling →
    ∃ u, exec (.assembleTimeout t v) s = .next u ∧
      (q.firstUp + u16 (mgetD s.gens.active.vids v.val []) 0x24 * tMs ≤ (s.advance t).rt.time.up →
        q ∉ (u.vid v.val).assembling ∧ ∃ c ∈ (u.vid v.val).complete, c.ts = q.ts ∧ c.packets = []) ∧
      ((s.advance t).rt.time.up < q.firstUp + u16 (mgetD s.gens.active.vids v.val []) 0x24 * tMs → q ∈ (u.vid v.val).assembling)) ∧
  (∀ v : Fin 4096, Happens (.vidMediaTimeout · v)
    (fun s => ((s.vid v.val).state = .clean ∨ (s.vid v.val).state = .tainted) ∧ u16 (mgetD s.gens.active.vids v.val []) 0x26 ≠ 0 ∧
      (s.vid v.val).rtp.lastValid + u16 (mgetD s.gens.active.vids v.val []) 0x26 * tMs ≤ s.rt.time.up)
    (fun s => (modVid v.val (fun x => { x with state := .timedOut }) s).post 0x0784 2 v.val 0)) ∧
  (∀ (t : Time) (v : Fin 4096) (d : DecodeResult) (q : SeqFacts) (i : Item) (e p : Nat) (a : Assembly) (l : List Assembly) (s : State),
    onEngine (s.advance t) (0x3000 + v.val) = some (i, e, p) → (∀ y ∈ s.rt.video.leaving, y.1 ≠ v.val) →
    (s.vid v.val).complete = a :: l → (s.vid v.val).state ≠ .timedOut → d.sps = some q →
    (seqReason i.began q ≠ 0 → ∃ u, exec (.videoDecodePicture t v d) s = .next u ∧ (u.vid v.val).state = .unsupported ∧
      (u.vid v.val).complete = l ∧ (u.vid v.val).pics = (s.vid v.val).pics) ∧
    (seqReason i.began q = 0 →
      (if (s.vid v.val).window.1 = (s.advance t).now / (100 * tMs) then (s.vid v.val).window.2 else 0) +
        q.w * q.h * (layerShare (u8 i.began 0xD) (u8 i.began 0xF)).1 / (layerShare (u8 i.began 0xD) (u8 i.began 0xF)).2
        ≤ windowAllowance i.began →
      d.rap = true → (decodeBits i.began a d (s.vid v.val)).areas = [] → (decodeBits i.began a d (s.vid v.val)).missing = 0 →
      ∃ u, exec (.videoDecodePicture t v d) s = .next u ∧ (u.vid v.val).state = .clean ∧ (u.vid v.val).complete = l ∧
        u.rt.video.pictures = s.rt.video.pictures + 1)) ∧
  (∀ (t : Time) (v : Fin 4096) (d : DecodeResult) (c : SliceCode) (s : State), onEngine (s.advance t) (0x3000 + v.val) = none →
    exec (.videoDecodePicture t v d) s = .next (s.advance t) ∧ exec (.videoEncodeSlice t v c) s = .next (s.advance t)) ∧
  (∀ (t : Time) (v : Fin 4096) (b : Bytes) (k : Time) (s : State), mget s.gens.active.vids v.val = some b → (s.vid v.val).keyAt = some k →
    (s.vid v.val).merged = true → k + u16 b 0x1E * tMs ≤ (s.advance t).rt.time.up →
    ∃ u, exec (.keyIntervalEnd t v) s = .next u ∧ (u.vid v.val).merged = false ∧ (u.vid v.val).keyAt = some (s.advance t).rt.time.up) ∧
  (∀ (t : Time) (n : Fin 64) (p : PendingCmd) (g : Nat × Picture × Option (Nat × Nat)) (s : State), s.findPending 0x0706 n.val = some p →
    (s.rt.video.grabs.find? fun g => g.1 == n.val) = some g →
    ∃ u, exec (.vidGrabDone t n) s = .next u ∧ u.senak.pending = s.senak.pending.erase p ∧ u.rt.video.grabs = s.rt.video.grabs.erase g ∧
      u.rt.dram.mem = memWrite s.rt.dram.mem (u64 p.params 8) (pictureOctets g.2.1)) ∧
  (∀ (t : Time) (v : Fin 4096) (b : Bytes) (x : Vid) (s : State), mget s.gens.active.vids v.val = some b → u8 b 2 = 1 →
    mget s.rt.video.vids v.val = some x → x.coding = none → x.queue = [] → pictureTime x.start x.next (u16 b 8) ≤ (s.advance t).now →
    0x10000 + v.val ∉ s.rt.fault.orphans →
    let idr := x.next == 0 || (u16 b 0x1C != 0 && x.next % u16 b 0x1C == 0) || x.idrMoved ||
      (x.keyCause.isSome && idrRipe b x (pictureTime x.start x.next (u16 b 8)))
    let budget := fullnessAt b x (pictureOffset x.next (u16 b 8)) - nalBits (headerNals v.val b x.next idr)
    ∃ u, exec (.encodePictureStart t v) s = .next u ∧ (u.vid v.val).next = x.next + 1 ∧ (u.vid v.val).queue = [] ∧
      (budget < floorCost b idr → (u.vid v.val).coding = none) ∧
      (floorCost b idr ≤ budget → (s.advance t).coreClock = true →
        (s.advance t).rt.clover.reserveOf 1000 + (sliceTable b).length ≤ 16384 →
        ∃ c, (u.vid v.val).coding = some c ∧ c.taken.index = x.next ∧ c.taken.block = b ∧ c.idr = idr ∧ c.left = budget ∧ c.slice = 0)) ∧
  (∀ (t : Time) (v : Fin 4096) (c : SliceCode) (k : Coding) (i : Item) (e p : Nat) (s : State),
    onEngine (s.advance t) (0x3000 + v.val) = some (i, e, p) → (∀ y ∈ s.rt.video.leaving, y.1 ≠ v.val) →
    (s.vid v.val).coding = some k → (s.vid v.val).queue = [] →
    ∃ u, exec (.videoEncodeSlice t v c) s = .next u ∧
      (k.slice + 1 = (sliceTable k.taken.block).length → (u.vid v.val).coding = none ∧ mget u.rt.fault.openSlices v.val = none) ∧
      (k.slice + 1 ≠ (sliceTable k.taken.block).length → ∃ k', (u.vid v.val).coding = some k' ∧ k'.slice = k.slice + 1 ∧
        k'.taken = k.taken ∧ mget u.rt.fault.openSlices v.val = some ((sliceTable k.taken.block).length - k.slice - 1)))

/-- Composition (R270 to R272, R276, R284 to R286, R577): a frame starts at its instant or is skipped where four buffers are used, a
completed frame replaces the one before it, one with an uncorrectable input is abandoned, a flattened layout is ready, and a loaded image
stands in its slot. -/
def Obligations.CompositionRows : Prop :=
  (∀ (t : Time) (o : Fin 64) (b : Bytes) (x : OutRun) (s : State), mget s.gens.active.outs o.val = some b →
    mget s.rt.mallow.outs o.val = some x → pictureTime x.start x.next (u16 b 4) ≤ (s.advance t).now → 0x20000 + o.val ∉ s.rt.fault.orphans →
    ∃ u, exec (.composeFrameStart t o) s = .next u ∧ (u.out o.val).next = x.next + 1 ∧
      (x.composing = none → buffersUsed x < 4 → (s.advance t).coreClock = true → (s.advance t).rt.clover.reserveOf 1000 + 1 ≤ 16384 →
        ∃ c, (u.out o.val).composing = some c ∧ c.index = x.next ∧ c.block = b ∧
          c.picture = (composeFrame (s.advance t) s.gens.active b).1) ∧
      (x.composing ≠ none ∨ 4 ≤ buffersUsed x → (u.out o.val).composing = x.composing ∧ (u.out o.val).completed = x.completed ∧
        mgetD (u.out o.val).stats 4 0 = mgetD x.stats 4 0 + 1)) ∧
  (∀ (t : Time) (o : Fin 64) (b : Bytes) (x : OutRun) (s : State), mget s.gens.active.outs o.val = some b →
    mget s.rt.mallow.outs o.val = some x → (s.advance t).now < pictureTime x.start x.next (u16 b 4) →
    exec (.composeFrameStart t o) s = .next (s.advance t)) ∧
  (∀ (t : Time) (o : Fin 64) (c : Composing) (i : Item) (e p : Nat) (s : State),
    onEngine (s.advance t) (0x4000 + o.val) = some (i, e, p) → (∀ y ∈ s.rt.mallow.leaving, y.1 ≠ o.val) → (s.out o.val).composing = some c →
    (∃ u, exec (.composeFrameComplete t ⟨o, false⟩) s = .next u ∧ (u.out o.val).composing = none ∧
      (u.out o.val).completed = some (c.index, c.picture)) ∧
    (∃ u, exec (.composeFrameComplete t ⟨o, true⟩) s = .next u ∧ (u.out o.val).composing = none ∧
      (u.out o.val).completed = (s.out o.val).completed ∧ mgetD (u.out o.val).stats 8 0 = mgetD (s.out o.val).stats 8 0 + 1)) ∧
  (∀ (t : Time) (n : Fin 256) (i : Item) (e p : Nat) (c : Surface) (s : State), flattening (s.advance t) n.val = some (i, e, p) →
    mget s.rt.mallow.surfaces n.val = some c → c.ready = false → c.mark = i.input →
    ∃ u, exec (.layoutFlatten t n) s = .next u ∧
      u.rt.mallow.surfaces = mset s.rt.mallow.surfaces n.val { c with ready := true, readyAt := (s.advance t).now }) ∧
  (∀ (t : Time) (n : Fin 256) (s : State), flattening (s.advance t) n.val = none → exec (.layoutFlatten t n) s = .next (s.advance t)) ∧
  (∀ (t : Time) (l : Fin 256) (y : Fin 8) (k : Fin 2) (p : PendingCmd) (i : ImgSlot) (b src : Bytes) (s : State),
    s.findPending 0x0802 (slotKey l.val y.val k.val) = some p → mget s.rt.mallow.images (slotKey l.val y.val k.val) = some i →
    i.loading = some (b, src) →
    layoutHeld s (slotKey l.val y.val k.val / 16) = true →
    ∃ u j, exec (.layoutImageDone t l y k) s = .next u ∧ u.senak.pending = s.senak.pending.erase p ∧
      mget u.rt.mallow.images (slotKey l.val y.val k.val) = some j ∧ j.block = some b ∧ j.loading = none ∧
      (memRead s.rt.dram.mem (u64 b 0x10) (imageLength b) = src → j.data = src))

/-- Forwarding rows (R300 to R329): arrivals are counted and frames of a bad length discarded, buckets refill, a silent source is lost,
rates move on at 100 ms, a TMMBR lowers its line, keys are asked for again, queues release, a free port sends, and Sorrel's memory
errors are contained. -/
def Obligations.ForwardingRows : Prop :=
  (∀ (t : Time) (p : Fin 4) (f : Frame) (s : State), s.rt.net.isUp p.val = true →
    (u16 (s.rt.net.port p.val) 2 < f.len ∨ f.len < 64 ∧ ∀ v, mediaConsumer s.gens.active (s.rt.net.named p.val) f ≠ some (.relay v false)) →
    exec (.ethFrameReceive t p f 0) s = .next (bumpNet p.val 4 (bumpNet p.val 1 (s.advance t)))) ∧
  (∀ (t : Time) (p : Fin 4) (f : Frame) (c : Fin 3) (s : State), s.rt.net.isUp p.val = true → 64 ≤ f.len →
    f.len ≤ u16 (s.rt.net.port p.val) 2 → (f.fcsOk = false ∨ c = 2) →
    exec (.ethFrameReceive t p f c) s =
      .next (receiveBad p.val (s.rt.net.named p.val) f (bumpNet p.val 3 (countArrival p.val c.val (s.advance t))))) ∧
  (∀ (t : Time) (p : Fin 4) (f : Frame) (s : State), s.rt.net.isUp p.val = true → 64 ≤ f.len → f.len ≤ u16 (s.rt.net.port p.val) 2 →
    f.fcsOk = true →
    exec (.ethFrameReceive t p f 0) s = .next (if f.etherType = 0x8808 then bumpNet p.val 5 (bumpNet p.val 1 (s.advance t))
      else receiveWhole p.val (s.rt.net.named p.val) f (bumpNet p.val 1 (s.advance t)))) ∧
  (∀ (t : Time) (p : Fin 4) (f : Frame) (c : Fin 3) (s : State), s.rt.net.isUp p.val = false →
    exec (.ethFrameReceive t p f c) s = .next (s.advance t)) ∧
  (∀ (t : Time) (k : Nat) (x : Buckets) (s : State), mget s.rt.fwd.policers k = some x → ∃ u y, exec (.policerInterval t) s = .next u ∧
    mget u.rt.fwd.policers k = some y ∧ y = refill (mgetD s.gens.active.policers k []) (s.advance t).now x ∧
    y.c ≤ u32 (mgetD s.gens.active.policers k []) 0xC * 16777216 ∧ y.at_ = (s.advance t).now / tUs) ∧
  (∀ (t : Time) (v : Fin 4096) (b : Bytes) (s : State), mget s.gens.active.relays v.val = some b → u16 b 0x38 ≠ 0 →
    (s.rt.fwd.relay v.val).lost = false → (s.rt.fwd.relay v.val).rtp.lastValid + u16 b 0x38 * tMs ≤ (s.advance t).rt.time.up →
    ∃ u, exec (.fwdSourceTimeout t v) s = .next u ∧ (u.rt.fwd.relay v.val).lost = true ∧
      ∀ e ∈ subsOfSource s.gens.active v.val, mhas s.rt.fwd.subs e.1 = true → (u.rt.fwd.sub e.1).state = .sourceLost) ∧
  Happens .rateWindow (fun s => s.rt.time.now % (100 * tMs) = 0)
    (fun s => s.gens.active.lines.foldl (fun s e => retarget e.1 s) { s with rt := { s.rt with fwd := { s.rt.fwd with
      rates := s.rt.fwd.rates.map fun r => (r.1, { windows := (0, 0) :: r.2.windows.take 10 }) } } }) ∧
  (∀ (t : Time) (n : Fin 32768) (owner : BitVec 32) (bps : Nat) (b : Bytes) (s : State), mget s.gens.active.subs n.val = some b →
    bit (u8 (mgetD s.gens.active.lines (u16 b 2) []) 0x13) 0 = true →
    ∃ u v, exec (.tmmbrReceive t n owner bps) s = .next u ∧ u = retarget (u16 b 2) v ∧ (v.rt.fwd.line (u16 b 2)).tmmbr = some bps) ∧
  (∀ (t : Time) (n : Fin 32768) (b : Bytes) (w : Time) (s : State), mget s.gens.active.subs n.val = some b →
    (s.rt.fwd.sub n.val).waiting = some w → w + u16 b 0x42 * tMs ≤ (s.advance t).rt.time.up →
    ∃ u, exec (.keyWaitExpiry t n) s = .next u ∧ (u.rt.fwd.sub n.val).waiting = some (s.advance t).rt.time.up) ∧
  (∀ (t : Time) (v : Fin 4096) (b : Bytes) (c : Nat) (k : Time) (s : State), mget s.gens.active.relays v.val = some b →
    (s.rt.fwd.relay v.val).merged = some c → (s.rt.fwd.relay v.val).keyAt = some k → k + u16 b 0x3A * tMs ≤ (s.advance t).rt.time.up →
    ∃ u, exec (.relayKeyIntervalEnd t v) s = .next u ∧ (u.rt.fwd.relay v.val).merged = none ∧
      (u.rt.fwd.relay v.val).keyAt = some (s.advance t).rt.time.up) ∧
  (∀ (t : Time) (leg : Fin 8192) (q : Lined) (s : State), (s.rt.fwd.line leg.val).queue = [q] →
    (q.length * 8 * bitUnit ≤ lineTokens (mgetD s.gens.active.lines leg.val (s.rt.fwd.line leg.val).block) (s.rt.fwd.line leg.val) (s.advance t).rt.time.up →
      ∃ u, exec (.shaperRelease t leg) s = .next u ∧ (u.rt.fwd.line leg.val).queue = []) ∧
    (lineTokens (mgetD s.gens.active.lines leg.val (s.rt.fwd.line leg.val).block) (s.rt.fwd.line leg.val) (s.advance t).rt.time.up < q.length * 8 * bitUnit →
      exec (.shaperRelease t leg) s = .next (s.advance t))) ∧
  (∀ (t : Time) (p : Fin 4) (o : Outbound) (s v : State), portFree (s.advance t) p.val = true → s.rt.net.isUp p.val = true →
    mgetD s.rt.time.queues p.val [] = [] → wfqNext p.val (wfqCount (s.advance t) p.val) (s.advance t) = (v, some o) →
    ∃ u, exec (.portTransmit t p) s = .next u ∧ u = startFrame p.val o v ∧ .frame p.val v.now o.packet ∈ u.wire) ∧
  (∀ (t : Time) (p : Fin 4) (f : Timed) (l : List Timed) (s : State), portFree (s.advance t) p.val = true →
    mgetD s.rt.time.queues p.val [] = f :: l → f.launch ≤ (s.advance t).now →
    exec (.portTransmit t p) s = .next (launchTimed p.val (s.advance t))) ∧
  (∀ (t : Time) (p : Fin 4) (s : State), portFree (s.advance t) p.val = false → exec (.portTransmit t p) s = .next (s.advance t)) ∧
  (∀ (t : Time) (p : Fin 4) (s : State), ∃ u, exec (.sorrelEccError t (.corrected p)) s = .next u ∧
    u.rt.fwd = { s.rt.fwd with corrected := s.rt.fwd.corrected + 1, stats := bump s.rt.fwd.stats (p.val * 256 + 0x2C) }) ∧
  (∀ (t : Time) (k : Nat) (b : Bytes) (s : State), mget s.gens.active.policers k = some b →
    ∃ u, exec (.sorrelEccError t (.policer k)) s = .next u ∧
      u.rt.fwd.policers = mset s.rt.fwd.policers k { c := u32 b 0xC * 16777216, e := u32 b 0x14 * 16777216, at_ := (s.advance t).now / tUs })

/-- Security rows (R344, R351, R353, R360, R363 to R367): the oldest request of a queue is taken by an engine, a grace key ends, a lost
slot is empty, a generic operation writes its output, and a user page's GO, done bit and error count act as its registers say. -/
def Obligations.SecurityRows : Prop :=
  (∀ (t : Time) (q : Fin 2) (e : Fin 3) (r : SecReq) (l : List SecReq) (s : State), s.rt.sec.enabled = true →
    s.rt.sec.nextQueue = some q.val → mgetD s.rt.sec.waiting q.val [] = r :: l →
    let v := secTurn q.val (bumpSec (q.val + 1) ((s.advance t).modSec fun x =>
      { x with waiting := if l = [] then mdel x.waiting q.val else mset x.waiting q.val l }))
    exec (.cryptoRequest t q e 0) s = .next (if enginesUp s = [] then bumpSec 16 v else runRequest r v)) ∧
  (∀ (t : Time) (q : Fin 2) (e m : Fin 3) (s : State), s.rt.sec.nextQueue ≠ some q.val ∨ s.rt.sec.enabled = false →
    exec (.cryptoRequest t q e m) s = .next (s.advance t)) ∧
  (∀ (s : State) (a b : SecReq), s.rt.sec.waiting = [(0, [a]), (1, [b])] →
    s.rt.sec.nextQueue = some (if s.rt.sec.turn % 20 = 1 then 1 else 0)) ∧
  (∀ (t : Time) (n : Nat) (k : KeySlot) (g : Grace) (s : State), mget s.rt.sec.slots n = some k → k.grace = some g →
    ∃ u, exec (.graceKeyExpiry t n) s = .next u ∧
      mget u.rt.sec.slots n = some (if g.until_ ≤ (s.advance t).rt.time.up then { k with grace := none } else k)) ∧
  (∀ (t : Time) (n : Nat) (s : State), n < 65536 → ∃ u, exec (.keySlotLost t ⟨n, false⟩) s = .next u ∧ mget u.rt.sec.slots n = none ∧
    ∀ i, i ≠ n → mget u.rt.sec.slots i = mget s.rt.sec.slots i) ∧
  (∀ (t : Time) (n : Nat) (s : State), n < 65536 → exec (.keySlotLost t ⟨n, true⟩) s = .next (bumpSec 12 (s.advance t))) ∧
  (∀ (t : Time) (e : Fin 3) (c : Crypt) (l : List Crypt) (p : PendingCmd) (key : Bytes) (s : State), s.rt.sec.crypts = c :: l →
    s.findPending 0x0A06 0 = some p → s.rt.sec.enabled = true → enginesUp s ≠ [] → c.key = some key → c.refused = false →
    let op := u8 p.params 4
    let aad := if isGcm op then u32 p.params 0x18 else 0
    let g := genericOp op key c.iv (memRead s.rt.dram.mem (u64 p.params 0x20) aad)
      (memRead s.rt.dram.mem (u64 p.params 0x20 + aad) (u32 p.params 0x1C)) (slice p.params 0x30 16)
    g.result = 0 →
    ∃ u, exec (.keyCryptDone ⟨t, e, 0⟩) s = .next u ∧ u.senak.pending = s.senak.pending.erase p ∧ u.rt.sec.crypts = l ∧
      u.rt.dram.mem = memWrite s.rt.dram.mem (u64 p.params 0x28) (g.out ++ slice g.tag 0 32 ++ slice g.iv 0 16)) ∧
  (∀ (t : Time) (n : Fin 16) (v : BitVec 32) (s : State), s.reachable = true → s.senak.heldWrites = [] →
    blockReady (0x100000 + n.val * 0x1000) s = true → (mgetD s.rt.sec.user n.val {}).busy = false →
    exec (.pgCtrlGo t n v) s = .next (pageGo n.val (modPage n.val (fun p =>
      { p with op := v.toNat / 16 % 16, part := v.toNat / 256 % 4 }) (s.advance t)))) ∧
  (∀ (t : Time) (n : Fin 16) (v : BitVec 32) (s : State), s.reachable = true → s.senak.heldWrites = [] →
    blockReady (0x100000 + n.val * 0x1000) s = true → (mgetD s.rt.sec.user n.val {}).busy = true →
    exec (.pgCtrlGo t n v) s = .next (modPage n.val (fun p => { p with err := Nat.min 65535 (p.err + 1) }) (s.advance t))) ∧
  (∀ (t : Time) (n : Fin 16) (e m : Fin 3) (r : Nat) (k : Option Bytes) (s : State), (mgetD s.rt.sec.user n.val {}).snap = some (k, r) →
    ∃ u, exec (.pageOperationDone ⟨t, e, m⟩ n) s = .next u ∧ (mgetD u.rt.sec.user n.val {}).busy = false ∧
      (mgetD u.rt.sec.user n.val {}).done = true ∧ (mgetD u.rt.sec.user n.val {}).snap = none ∧
      (enginesUp s = [] → (mgetD u.rt.sec.user n.val {}).result = 6) ∧
      (enginesUp s ≠ [] → m = 0 → r ≠ 0 → (mgetD u.rt.sec.user n.val {}).result = r)) ∧
  (∀ (n : Fin 16) (v : BitVec 32) (s : State), s.reachable = true → s.senak.heldWrites = [] →
    blockReady (0x100000 + n.val * 0x1000) s = true → (mgetD s.rt.sec.user n.val {}).busy = false →
    exec (.pgStatusDoneClear n v) s = .next (modPage n.val (fun p => { p with done := p.done && !v.getLsbD 1 }) s)) ∧
  (∀ (n : Fin 16) (s : State), s.reachable = true → blockReady (0x100000 + n.val * 0x1000) s = true →
    exec (.pgErrRead n) s = .next (modPage n.val (fun p => { p with err := 0 })
      { s with wire := .read (le 4 (mgetD s.rt.sec.user n.val {}).err) :: s.wire }))

/-- Recorder, compression and image rows (R378, R384, R388, R390, R396, R398, R404, R435, R439): records reach their segment, segments
open and seal by their second, a clear starts a new chain, and copies, checks, jobs and image loads end with their commands. -/
def Obligations.RecorderRows : Prop :=
  (∀ (t : Time) (x : Record) (l : List Record) (s : State), s.rt.recorder.arriving = x :: l → s.rt.recorder.running = false →
    exec (.recordArrive t) s = .next ((s.advance t).modRec fun r => { r with arriving := l })) ∧
  (∀ (t : Time) (x : Record) (l : List Record) (g : Seg) (s : State), s.rt.recorder.arriving = x :: l → s.rt.recorder.running = true →
    s.rt.recorder.seg = some g → g.second < x.time / tS → s.rt.recorder.staged + (x.bytes 0).length ≤ 8388608 →
    exec (.recordArrive t) s = .next ((s.advance t).modRec fun r => { r with arriving := l, staging := r.staging ++ [x] })) ∧
  (∀ (t : Time) (x : Record) (l : List Record) (g : Seg) (s : State), s.rt.recorder.arriving = x :: l → s.rt.recorder.running = true →
    s.rt.recorder.seg = some g → x.time / tS = g.second →
    exec (.recordArrive t) s = .next (putRecord g (x.bytes (x.time % tS / tNs)) ((s.advance t).modRec fun r => { r with arriving := l }))) ∧
  (∀ (t : Time) (s : State), (s.advance t).now % tS = 0 → s.rt.recorder.running = true → s.rt.recorder.clearing = false →
    (∀ k, s.rt.recorder.lastOpen = some k → k < (s.advance t).now / tS) → s.rt.recorder.reserved = none → s.rt.recorder.seg = none →
    s.rt.recorder.missing = none → hasRoom (s.modRec fun r => { r with mode := r.modeNext }) (s.rt.recorder.used + segReserve) = true →
    ∃ u g, exec (.segmentOpen t) s = .next u ∧ u.rt.recorder.seg = some g ∧ g.second = (s.advance t).now / tS ∧
      g.gen = s.gens.active.number ∧ g.records = 0) ∧
  (∀ (t : Time) (e m : Fin 3) (g : Seg) (s : State), s.rt.recorder.seg = some g → s.rt.recorder.running = true → s.rt.sec.enabled = true →
    ((g.second + 1) * tS + 2 * tMs ≤ (s.advance t).now → s.rt.recorder.staging = [] → s.rt.recorder.reserved = none →
      ∃ u, exec (.segmentSeal ⟨t, e, m⟩) s = .next u ∧ u.rt.recorder.seg = none ∧ u.rt.recorder.seq = s.rt.recorder.seq + 1 ∧
        u.rt.recorder.lastSeq = s.rt.recorder.seq ∧ u.rt.recorder.sealedEnd = segEnd g.start g.body) ∧
    ((s.advance t).now < (g.second + 1) * tS + 2 * tMs → exec (.segmentSeal ⟨t, e, m⟩) s = .next (s.advance t))) ∧
  (∀ (t : Time) (s : State), (s.advance t).now % tS = 0 → s.rt.recorder.running = true →
    (s.rt.recorder.clearing = false → exec (.recClearApply t) s = .next (s.advance t)) ∧
    (s.rt.recorder.clearing = true → ∃ u, exec (.recClearApply t) s = .next u ∧ u.rt.recorder.clearing = false ∧
      u.rt.recorder.seq = 0 ∧ u.rt.recorder.sealedEnd = 0 ∧ u.rt.recorder.link = zeros 32 ∧ u.rt.recorder.seg = none ∧
      u.rt.recorder.held = [])) ∧
  (∀ (t : Time) (n : Fin 64) (p : PendingCmd) (x : Nat × Nat × Nat) (s : State), s.findPending 0x0B04 n.val = some p →
    (s.rt.recorder.reads.find? fun x => x.1 == n.val) = some x → s.rt.dram.corrupt = [] →
    ∃ u, exec (.recReadDone t n false) s = .next u ∧ u.senak.pending = s.senak.pending.erase p ∧
      u.rt.recorder.reads = s.rt.recorder.reads.erase x ∧ u.hostMem = memWrite s.hostMem (u64 p.params 8) (recRead s x.2.1 x.2.2)) ∧
  (∀ (t : Time) (n : Fin 64) (p : PendingCmd) (s : State), s.findPending 0x0B06 n.val = some p → s.rt.dram.corrupt = [] →
    let e := verifySegment (recorderKey s) (memRead s.rt.dram.mem (u64 p.params 0) (u64 p.params 8)) (slice p.params 0x10 32)
    exec (.recVerifyDone t n) s = .next ((s.advance t).endPending p (if e = 0 then .ok else .authFailed) e)) ∧
  (∀ (t : Time) (c : Fin 64) (fault : Bool) (p : PendingCmd) (s : State), (mgetD s.rt.zip c.val {}).state = .running →
    (mgetD s.rt.zip c.val {}).waiting = false →
    (s.senak.pending.find? fun p => (p.code == 0x0B40 || p.code == 0x0B41) && p.obj == c.val) = some p →
    let z := mgetD s.rt.zip c.val {}
    let x := zipOutcome s.rt.mgmt.level fault (Config.freeNat s.free) (memRead s.rt.dram.mem (u64 z.job 8) z.input.length) z
    ∃ u, exec (.zipJobEnd t c fault) s = .next u ∧ u.senak.pending = s.senak.pending.erase p ∧ mgetD u.rt.zip c.val {} = x.2.2 ∧
      u.rt.dram.mem = memWrite (memWrite s.rt.dram.mem z.outOff x.1) (u64 z.job 0x20) x.2.1) ∧
  (∀ (t : Time) (n : Fin 64) (c : PendingCmd) (b : Bytes) (s : State), s.findPending 0x0C01 n.val = some c →
    (s.rt.dsp.loading.find? fun x => x.1 == n.val) = some (n.val, b) → memRead s.rt.dram.mem (u64 c.params 8) (u32 c.params 4) = b →
    badHeader b = none → imageTrusted s b = true →
    ∃ u, exec (.dspLoadDone t n) s = .next u ∧ u.senak.pending = s.senak.pending.erase c ∧
      u.rt.dsp.loading = s.rt.dsp.loading.erase (n.val, b) ∧
      (mgetD u.rt.dsp.images (u8 c.params 0) {}).waiting = some (b, (s.advance t).rt.time.up)) ∧
  (∀ (t : Time) (q : Nat) (m : Images) (b : Bytes) (w : Time) (s : State), (s.advance t).now % tMs = 0 → s.rt.dsp.images = [(q, m)] →
    m.waiting = some (b, w) → w + tMs ≤ (s.advance t).rt.time.up →
    ∃ u, exec (.imageActivate t) s = .next u ∧ mgetD u.rt.dsp.images q {} = { m with inForce := b, stamp := s.rt.dsp.stamps + 1, waiting := none })

/-! Instructions of the Yarrow cores. -/

/-- The multiplies of a Yarrow core (rows of R452 to R461): a lane's product is exact, doubled where bit 28 (F) is 1; accumulators take
sums modulo 2^56, the sum before forwarded to an accumulation that follows it, and only SW.OVF can change of SW. -/
def Obligations.YarrowMultiplies : Prop :=
  let all := fun (_ : Nat) => True
  let prod := fun (w : Nat) (a b : Word24) => a.toInt * b.toInt * (if bit w 28 then 2 else 1)
  let d := fun w => bits w 40 39
  let xa := fun (e : Env) w => e.r.x.getD (bits w 38 36) 0
  let xb := fun (e : Env) w => e.r.x.getD (bits w 35 33) 0
  let x := fun (e : Env) i => e.r.x.getD i 0
  let was := fun (e : Env) i => (e.accIn i).toInt
  Operates .yarrowNop 0x00 0 all (fun _ _ r => r) ∧
  Operates .yarrowMpy 0x01 0x1FE1 all (fun e w r => { r with acc := r.acc.set (d w) (BitVec.ofInt 56 (prod w (xa e w) (xb e w))) }) ∧
  Operates .yarrowMac 0x02 0x1FE1 all (fun e w r => r.sums [(d w, was e (d w) + prod w (xa e w) (xb e w))]) ∧
  Operates .yarrowMsu 0x03 0x1FE1 all (fun e w r => r.sums [(d w, was e (d w) - prod w (xa e w) (xb e w))]) ∧
  Operates .yarrowQmpy 0x04 1 all (fun e w r => r.sums
    [(0, prod w (x e 0) (x e 4)), (1, prod w (x e 1) (x e 5)), (2, prod w (x e 2) (x e 6)), (3, prod w (x e 3) (x e 7))]) ∧
  Operates .yarrowQmac 0x05 1 all (fun e w r => r.sums
    [(0, was e 0 + prod w (x e 0) (x e 4)), (1, was e 1 + prod w (x e 1) (x e 5)),
     (2, was e 2 + prod w (x e 2) (x e 6)), (3, was e 3 + prod w (x e 3) (x e 7))]) ∧
  Operates .yarrowCmpy 0x06 1 all (fun e w r => r.sums
    [(0, prod w (x e 0) (x e 4)), (1, prod w (x e 1) (x e 5)), (2, prod w (x e 0) (x e 5)), (3, prod w (x e 1) (x e 4))]) ∧
  OperatesOn .yarrowFtap 0x07 3 (fun e w c s r =>
    let on := fun i => if bit w 29 then 0 else was e i
    let r := r.sums [(0, on 0 + prod w c s), (1, on 1 + prod w c (x e 4)), (2, on 2 + prod w c (x e 5)), (3, on 3 + prod w c (x e 6))]
    { r with x := ((r.x.set 4 s).set 5 (x e 4)).set 6 (x e 5) }) ∧
  OperatesOn .yarrowMacm 0x08 0x1801 (fun e w c s r => r.sums [(d w, was e (d w) + prod w c s)])

/-- The accumulator operations of a Yarrow core (rows of R452, R457, R461 to R463) and CVT (R414): each result, its flags, and
nothing else. -/
def Obligations.YarrowAccumulators : Prop :=
  let all := fun (_ : Nat) => True
  let d := fun w => bits w 40 39
  let ad := fun (e : Env) w => e.r.acc.getD (bits w 40 39) 0
  let as := fun (e : Env) w => e.r.acc.getD (bits w 38 37) 0
  let acc := fun (e : Env) i => (e.r.acc.getD i 0).toInt
  let half := fun w (v : Int) => if bit w 28 then v / 2 else v
  let at47 := fun (v : Word24) => v.toInt * 16777216
  let xa := fun (e : Env) w => e.r.x.getD (bits w 38 36) 0
  Operates .yarrowAddAcc 0x10 0x1E00 all (fun e w r => r.takes (d w) (ad e w + as e w) ((ad e w).toInt + (as e w).toInt)
    (decide (2 ^ 56 ≤ (ad e w).toNat + (as e w).toNat))) ∧
  Operates .yarrowSubAcc 0x11 0x1E00 all (fun e w r => r.takes (d w) (ad e w - as e w) ((ad e w).toInt - (as e w).toInt)
    (decide ((as e w).toNat ≤ (ad e w).toNat))) ∧
  Operates .yarrowAddx 0x12 0x1F00 all (fun e w r =>
    let b := BitVec.ofInt 56 (at47 (xa e w))
    r.takes (d w) (ad e w + b) ((ad e w).toInt + at47 (xa e w)) (decide (2 ^ 56 ≤ (ad e w).toNat + b.toNat))) ∧
  Operates .yarrowSubx 0x13 0x1F00 all (fun e w r =>
    let b := BitVec.ofInt 56 (at47 (xa e w))
    r.takes (d w) (ad e w - b) ((ad e w).toInt - at47 (xa e w)) (decide (b.toNat ≤ (ad e w).toNat))) ∧
  Operates .yarrowNeg 0x14 0x1800 all (fun e w r => r.takes (d w) (-ad e w) (-(ad e w).toInt) (ad e w == 0)) ∧
  Operates .yarrowAbs 0x15 0x1800 all (fun e w r =>
    r.takes (d w) (if (ad e w).msb then -ad e w else ad e w) ((ad e w).toInt.natAbs : Int) false) ∧
  Operates .yarrowClr 0x16 0x1800 all (fun _ w r => r.takes (d w) 0 0 false) ∧
  Operates .yarrowMova 0x17 0x1E00 all (fun e w r => r.takes (d w) (as e w) 0 false) ∧
  Operates .yarrowTst 0x1A 0x1800 all (fun e w r => r.flagged (ad e w == 0) (ad e w).msb false false false) ∧
  Operates .yarrowCfold 0x1B 0 all (fun e _ r => r.folds [(1, acc e 0 - acc e 1), (3, acc e 2 + acc e 3)]) ∧
  Operates .yarrowBfly 0x1C 1 all (fun e w r =>
    let re := at47 (e.r.x.getD 2 0)
    let im := at47 (e.r.x.getD 3 0)
    r.folds [(0, half w (re + acc e 1)), (1, half w (re - acc e 1)), (2, half w (im + acc e 3)), (3, half w (im - acc e 3))]) ∧
  Operates .yarrowNorm 0x1D 0x1F00 all (fun e w r =>
    let n := headroom (ad e w)
    let v := if 0 ≤ n then ad e w <<< n.toNat else (ad e w).sshiftRight (-n).toNat
    { r.takes (d w) v 0 false with x := r.x.set (bits w 38 36) (BitVec.ofInt 24 n) }) ∧
  Operates .yarrowCvt 0x1E 0x1FFC (fun w => bits w 35 30 ≤ 32) (fun e w r =>
    let v := roundShift (swRnd e.r.sw) (bits w 35 30) (ad e w).toInt
    let fits := decide (-8388608 ≤ v) && decide (v ≤ 8388607)
    let y := if fits || !swSaten e.r.sw then BitVec.ofInt 24 v else if v < 0 then 0x800000#24 else 0x7FFFFF#24
    { r with
      x := r.x.set (bits w 38 36) y
      sw := (r.sw &&& ~~~7#24) ||| BitVec.ofNat 24 (b2n (y == 0) + 2 * b2n y.msb +
        (if fits then 0 else if swSaten e.r.sw then 16 else 4)) })

/-- The operations of a Yarrow core on X registers, the block exponents (rows of R452, R457 and R462): each result, its flags, and
nothing else. -/
def Obligations.YarrowWords : Prop :=
  let all := fun (_ : Nat) => True
  let a := fun w => bits w 38 36
  let xa := fun (e : Env) w => e.r.x.getD (bits w 38 36) 0
  let xb := fun (e : Env) w => e.r.x.getD (bits w 35 33) 0
  let fits := fun (v : Int) => decide (-8388608 ≤ v) && decide (v ≤ 8388607)
  let exponent := fun (r : Regs) (v : Int) => { r with be := if v < r.be.toInt then BitVec.ofInt 6 v else r.be }
  let room := fun (u : Acc) => min (headroom u) 31
  let acc := fun (e : Env) i => e.r.acc.getD i 0
  Operates .yarrowBexpX 0x20 0x700 all (fun e w r => exponent r (r24 (xa e w))) ∧
  Operates .yarrowBexpAcc 0x21 0x1800 all (fun e w r => exponent r (room (acc e (bits w 40 39)))) ∧
  Operates .yarrowBexpq 0x22 0 all (fun e _ r =>
    exponent r (min (min (room (acc e 0)) (room (acc e 1))) (min (room (acc e 2)) (room (acc e 3))))) ∧
  Operates .yarrowAddX 0x28 0x7E0 all (fun e w r => r.takesX (a w) (xa e w + xb e w)
    (!fits ((xa e w).toInt + (xb e w).toInt)) (decide (2 ^ 24 ≤ (xa e w).toNat + (xb e w).toNat))) ∧
  Operates .yarrowSubX 0x29 0x7E0 all (fun e w r => r.takesX (a w) (xa e w - xb e w)
    (!fits ((xa e w).toInt - (xb e w).toInt)) (decide ((xb e w).toNat ≤ (xa e w).toNat))) ∧
  Operates .yarrowCmp 0x2A 0x7E0 all (fun e w r => r.flagged (xa e w == xb e w) (xa e w - xb e w).msb
    (!fits ((xa e w).toInt - (xb e w).toInt)) (decide ((xb e w).toNat ≤ (xa e w).toNat)) false) ∧
  Operates .yarrowAnd 0x2B 0x7E0 all (fun e w r => r.takesX (a w) (xa e w &&& xb e w) false false) ∧
  Operates .yarrowOr 0x2C 0x7E0 all (fun e w r => r.takesX (a w) (xa e w ||| xb e w) false false) ∧
  Operates .yarrowXor 0x2D 0x7E0 all (fun e w r => r.takesX (a w) (xa e w ^^^ xb e w) false false)

/-- Shifts of a Yarrow core (R465): ASH by its count and ASHB by BE, left modulo 2^56 for a positive count and right arithmetically for a
negative one; LSL, ASR and LSR of an X register by 0 to 23. (Their flags are R457's.) -/
def Obligations.YarrowShifts : Prop :=
  let all := fun (_ : Nat) => True
  let low := fun w => bits w 35 31 ≤ 23
  let d := fun w => bits w 40 39
  let ad := fun (e : Env) w => e.r.acc.getD (bits w 40 39) 0
  let a := fun w => bits w 38 36
  let xa := fun (e : Env) w => e.r.x.getD (bits w 38 36) 0
  let by_ := fun w => bits w 35 31
  Operates .yarrowAsh 0x18 0x1FF0 (fun w => -56 ≤ signed 7 (bits w 38 32) ∧ signed 7 (bits w 38 32) ≤ 55)
    (fun e w r => r.shifted (d w) (ad e w) (signed 7 (bits w 38 32))) ∧
  Operates .yarrowAshb 0x19 0x1800 all (fun e w r => r.shifted (d w) (ad e w) e.r.be.toInt) ∧
  Operates .yarrowLsl 0x2E 0x7F8 low (fun e w r => r.takesX (a w) (xa e w <<< by_ w) false
    (decide (0 < by_ w) && (xa e w).getLsbD (24 - by_ w))) ∧
  Operates .yarrowAsr 0x2F 0x7F8 low (fun e w r => r.takesX (a w) ((xa e w).sshiftRight (by_ w)) false
    (decide (0 < by_ w) && (xa e w).getLsbD (by_ w - 1))) ∧
  Operates .yarrowLsr 0x30 0x7F8 low (fun e w r => r.takesX (a w) (xa e w >>> by_ w) false
    (decide (0 < by_ w) && (xa e w).getLsbD (by_ w - 1)))

/-- The moves, loads and stores of a Yarrow core (rows of R446, R449, R453, and MODP of R426), each for every register code up to 50: a
register takes the value under its code, and a store writes one word. An accumulator is read by conversion with shift 24, which may set
SAT or V, and written as R446 places it. -/
def Obligations.YarrowMoves : Prop :=
  let rd := fun w => bits w 39 34
  let no := fun (_ : Env) (_ : Nat) => ([] : List (Bool × Nat × Word24))
  let no2 := fun (_ : Env) (_ _ : Nat) => ([] : List (Bool × Nat × Word24))
  let put := fun (code : Nat) (v : Word24) (r : Regs) => (writeReg code v).land r
  let mark := fun (m : Nat) (r : Regs) => { r with sw := r.sw ||| BitVec.ofNat 24 m }
  let indexed := fun (e : Env) w => (e.c.regs.p.getD (bits w 33 31) 0 + e.c.regs.n.getD (bits w 33 31) 0).toNat
  let low := fun (_ : Env) w => w % 16384
  let mayLoad := fun (y : Bool) (at_ : Env → Nat → Nat) (e : Env) w => rd w ≤ 50 ∧ (e.load 0 y (at_ e w)).isSome = true
  let loads := fun (y : Bool) (at_ : Env → Nat → Nat) (e : Env) w c d => Core.writes 1 (put (rd w) ((e.load 0 y (at_ e w)).getD 0)) c d
  let mayStore := fun (y : Bool) (at_ : Env → Nat → Nat) (e : Env) w => rd w ≤ 50 ∧ e.storable y (at_ e w) = true
  let stored := fun (y : Bool) (at_ : Env → Nat → Nat) (e : Env) w => [(y, at_ e w, (e.r.read24 (rd w)).1)]
  let stores := fun (e : Env) w c d => Core.writes 1 (mark (e.r.read24 (rd w)).2) c d
  let whole := fun code => 8 ≤ code ∧ code < 12
  Executes .yarrowMove 0x00 0xFFF0000000 (fun _ w => rd w ≤ 50 ∧ bits w 33 28 ≤ 50) no (fun e w => Core.writes 1 fun r =>
    if whole (rd w) ∧ whole (bits w 33 28) then { r with acc := r.acc.set (rd w - 8) (e.r.acc.getD (bits w 33 28 - 8) 0) }
    else put (rd w) (e.r.read24 (bits w 33 28)).1 (mark (e.r.read24 (bits w 33 28)).2 r)) ∧
  Executes .yarrowMovei16 0x01 0xFC0000FFFF (fun _ w => rd w ≤ 50) no
    (fun _ w => Core.writes 1 (put (rd w) ((BitVec.ofNat 16 w).signExtend 24))) ∧
  ExecutesLong .yarrowMovei24 0x41 (fun _ w _ => rd w ≤ 50) no2 (fun _ w v => Core.writes 2 (put (rd w) (BitVec.ofNat 24 v))) ∧
  Executes .yarrowLdXDirect 0x02 0xFC00003FFF (mayLoad false low) no (loads false low) ∧
  Executes .yarrowLdYDirect 0x03 0xFC00003FFF (mayLoad true low) no (loads true low) ∧
  Executes .yarrowStXDirect 0x04 0xFC00003FFF (mayStore false low) (stored false low) stores ∧
  Executes .yarrowStYDirect 0x05 0xFC00003FFF (mayStore true low) (stored true low) stores ∧
  Executes .yarrowLdXIndexed 0x06 0xFF80000000 (mayLoad false indexed) no (loads false indexed) ∧
  Executes .yarrowLdYIndexed 0x07 0xFF80000000 (mayLoad true indexed) no (loads true indexed) ∧
  Executes .yarrowStXIndexed 0x08 0xFF80000000 (mayStore false indexed) (stored false indexed) stores ∧
  Executes .yarrowStYIndexed 0x09 0xFF80000000 (mayStore true indexed) (stored true indexed) stores ∧
  ExecutesLong .yarrowLdXLong 0x42 (fun e w v => rd w ≤ 50 ∧ (e.load 0 false v).isSome = true) no2
    (fun e w v => Core.writes 2 (put (rd w) ((e.load 0 false v).getD 0))) ∧
  ExecutesLong .yarrowLdYLong 0x43 (fun e w v => rd w ≤ 50 ∧ (e.load 0 true v).isSome = true) no2
    (fun e w v => Core.writes 2 (put (rd w) ((e.load 0 true v).getD 0))) ∧
  ExecutesLong .yarrowStXLong 0x44 (fun e w v => rd w ≤ 50 ∧ e.storable false v = true) (fun e w v => [(false, v, (e.r.read24 (rd w)).1)])
    (fun e w _ => Core.writes 2 (mark (e.r.read24 (rd w)).2)) ∧
  ExecutesLong .yarrowStYLong 0x45 (fun e w v => rd w ≤ 50 ∧ e.storable true v = true) (fun e w v => [(true, v, (e.r.read24 (rd w)).1)])
    (fun e w _ => Core.writes 2 (mark (e.r.read24 (rd w)).2)) ∧
  Executes .yarrowModp 0x0A 0x3E0000000 (fun _ w => 0 < bits w 30 29) no (fun e w c d =>
    let n := bits w 33 31
    let m := e.c.regs.m.getD n 0
    let p := e.c.regs.p.getD n 0
    let step : Int := match bits w 30 29 with
      | 1 => 1
      | 2 => -1
      | _ => (e.c.regs.n.getD n 0).toInt
    d.goesTo (c.pc + 1) ∧ d.regs = c.after [some (n, stepPointer m p step)] ∧
      d.landed = mark (if descriptor m = 3 then 64 else 0) d.regs)

/-- The branches, REP and return of a Yarrow core (rows of R423, R454, R455 and R464): a branch goes to its target after two delay slots,
LCNZ decrements LC unless it is 0, CALL writes P7, RTI restores SW, and REP arms the repetition of the next instruction.
Delay slots and repetitions (R421, R422, R464), shown on NOP and BRA: the second slot ends at the target; a repeated instruction stays
at its address until its last repetition, and under a count of 0 it is discarded; a branch in a delay slot or under REP is an illegal
instruction, a core fault of cause 3. -/
def Obligations.YarrowFlow : Prop :=
  (let no := fun (_ : Env) (_ : Nat) => ([] : List (Bool × Nat × Word24))
   let code := fun w => bits w 19 16
   -- the registers once everything before has landed, as a branch sees them
   let seen := fun (e : Env) => landAll e.c.late (landAll e.c.later e.c.regs)
   let z := fun e => (seen e).sw.getLsbD 0
   let n := fun e => (seen e).sw.getLsbD 1
   let v := fun e => (seen e).sw.getLsbD 2
   let carry := fun e => (seen e).sw.getLsbD 3
   let sat := fun e => (seen e).sw.getLsbD 4
   let taken := fun (e : Env) (cc : Nat) => match cc with
     | 0 => true
     | 1 => z e
     | 2 => !z e
     | 3 => n e != v e
     | 4 => n e == v e
     | 5 => !z e && n e == v e
     | 6 => z e || n e != v e
     | 7 => v e
     | 8 => !v e
     | 9 => carry e
     | 10 => !carry e
     | 11 => sat e
     | _ => decide (2 ≤ (seen e).lc.toNat)
   let jumps := fun (e : Env) (cc target : Nat) (c d : Core) =>
     d.pc = (c.pc + 1) % 16384 ∧ d.repeat_ = none ∧ d.delay = some (2, if taken e cc then some (target % 16384) else none) ∧
       (cc ≠ 12 → d.regs = c.after [] ∧ d.landed = d.regs) ∧
       (cc = 12 → d.regs = { c.after [] with lc := if (seen e).lc = 0 then 0 else (seen e).lc - 1 } ∧ d.landed = d.regs)
   Executes .yarrowBra 0x10 0xF3FFF (fun _ w => code w ≤ 12) no (fun e w => jumps e (code w) (w % 16384)) ∧
   Executes .yarrowJmp 0x12 0x3800F0000 (fun _ w => code w ≤ 12) no
     (fun e w => jumps e (code w) ((seen e).p.getD (bits w 33 31) 0).toNat) ∧
   Executes .yarrowCall 0x11 0x3FFF (fun _ _ => True) no (fun _ w c => Core.branches (some (w % 16384))
     (fun r => { r with p := r.p.set 7 (BitVec.ofNat 24 (c.pc + 3)) }) c) ∧
   Executes .yarrowRti 0x13 0 (fun _ _ => True) no (fun _ _ c => Core.branches (some c.ipc.toNat)
     (fun r => { r with sw := c.isw &&& 0xF7F#24 }) c) ∧
   Executes .yarrowRepImm 0x14 0x1FFF (fun _ w => 1 ≤ w % 8192 ∧ w % 8192 ≤ 4096) no (fun _ w c d =>
     d.pc = (c.pc + 1) % 16384 ∧ d.delay = none ∧ d.repeat_ = some (w % 8192) ∧ d.regs = c.after [] ∧ d.landed = d.regs) ∧
   Executes .yarrowRepLc 0x15 0 (fun e _ => (seen e).lc.toNat ≤ 4096) no (fun e _ c d =>
     d.pc = (c.pc + 1) % 16384 ∧ d.delay = none ∧ d.repeat_ = some (seen e).lc.toNat ∧ d.regs = c.after [] ∧ d.landed = d.regs)) ∧
  (∀ (t : Time) (b : Fin 16) (p : Fin 9) (k : Nat) (s : State), issuing s b.val p.val = some k → (s.core k).ctrlLate = [] →
     (fetches (s.core k) [0] = true →
     (∀ (target : Option Nat), (s.core k).delay = some (2, target) → (s.core k).repeat_ = none →
       ∃ u, exec (.yarrowNop t b p 0) s = .next u ∧ (u.core k).pc = ((s.core k).pc + 1) % 16384 ∧ (u.core k).delay = some (1, target)) ∧
     (∀ (target : Option Nat), (s.core k).delay = some (1, target) → (s.core k).repeat_ = none →
       ∃ u, exec (.yarrowNop t b p 0) s = .next u ∧ (u.core k).pc = target.getD (((s.core k).pc + 1) % 16384) ∧ (u.core k).delay = none) ∧
     (∀ (n : Nat), (s.core k).delay = none → (s.core k).repeat_ = some n → 2 ≤ n →
       ∃ u, exec (.yarrowNop t b p 0) s = .next u ∧ (u.core k).pc = (s.core k).pc ∧ (u.core k).repeat_ = some (n - 1)) ∧
     (∀ (n : Nat), (s.core k).delay = none → (s.core k).repeat_ = some n → n ≤ 1 →
       ∃ u, exec (.yarrowNop t b p 0) s = .next u ∧ (u.core k).pc = ((s.core k).pc + 1) % 16384 ∧ (u.core k).repeat_ = none)) ∧
     (∀ (w : BitVec 40), fetches (s.core k) [2 ^ 47 + 0x10 * 2 ^ 40 + w.toNat] = true →
       ((s.core k).delay.isSome = true ∨ (s.core k).repeat_.isSome = true) →
       exec (.yarrowBra t b p w) s = .next (coreFault b.val p.val 3 false (s.advance t))))

/-- Illegal instructions (R444): a word with a reserved operand bit set, a reserved register code, a shift outside its range, a reserved
condition code and a repetition count of 0 are core faults of cause 3, shown on the first operation of each kind. -/
def Obligations.YarrowIllegal : Prop :=
  let faultsP := fun (row : Time → Fin 16 → Fin 9 → BitVec 41 → Instr) (op : Nat) (bad : Nat → Prop) =>
    ∀ (t : Time) (b : Fin 16) (p : Fin 9) (w : BitVec 41) (k : Nat) (s : State), Issues [op * 2 ^ 41 + w.toNat] b.val p.val k s →
      bad w.toNat → exec (row t b p w) s = .next (coreFault b.val p.val 3 false (s.advance t))
  let faultsG := fun (row : Time → Fin 16 → Fin 9 → BitVec 40 → Instr) (op : Nat) (bad : Nat → Prop) =>
    ∀ (t : Time) (b : Fin 16) (p : Fin 9) (w : BitVec 40) (k : Nat) (s : State), Issues [2 ^ 47 + op * 2 ^ 40 + w.toNat] b.val p.val k s →
      bad w.toNat → exec (row t b p w) s = .next (coreFault b.val p.val 3 false (s.advance t))
  faultsP .yarrowNop 0x00 (fun w => bits w 40 28 ≠ 0) ∧
  faultsP .yarrowMac 0x02 (fun w => bits w 32 29 ≠ 0) ∧
  faultsP .yarrowAsh 0x18 (fun w => signed 7 (bits w 38 32) < -56 ∨ 55 < signed 7 (bits w 38 32)) ∧
  faultsP .yarrowCvt 0x1E (fun w => 32 < bits w 35 30) ∧
  faultsP .yarrowLsl 0x2E (fun w => 23 < bits w 35 31) ∧
  faultsP .yarrowNop 0x00 (fun w => bits w 27 26 = 1 ∧ 12 ≤ bits w 18 15) ∧
  faultsG .yarrowMove 0x00 (fun w => 50 < bits w 39 34 ∨ 50 < bits w 33 28) ∧
  faultsG .yarrowMovei16 0x01 (fun w => bits w 33 16 ≠ 0) ∧
  faultsG .yarrowBra 0x10 (fun w => 12 < bits w 19 16) ∧
  faultsG .yarrowRepImm 0x14 (fun w => w % 8192 = 0 ∨ 4096 < w % 8192)

/-- Register codes (R445, R446): what is written under a code reads back under it, as far as the register is wide, and every register under
another code reads as before, the codes of one accumulator apart. -/
def Obligations.YarrowRegisterCodes : Prop :=
  ∀ (r : Regs) (c : Nat) (v : Word24), c ≤ 50 → r.x.length = 8 → r.acc.length = 4 → r.p.length = 8 → r.n.length = 8 → r.m.length = 8 →
    let u := (writeReg c v).land r
    (∀ j, j ≤ 50 → j ≠ c → (c < 8 ∨ 24 ≤ c ∨ j < 8 ∨ 24 ≤ j ∨ j % 4 ≠ c % 4) → ¬ (8 ≤ j ∧ j < 12) → u.word j = r.word j) ∧
    ((c < 8 ∨ (16 ≤ c ∧ c < 48)) → u.word c = v) ∧
    (8 ≤ c ∧ c < 12 → u.acc.getD (c - 8) 0 = BitVec.ofInt 56 (v.toInt * 16777216)) ∧
    (12 ≤ c ∧ c < 16 → u.word c = (v.setWidth 8).signExtend 24) ∧
    (c = 48 → u.word c = (v.setWidth 13).setWidth 24) ∧
    (c = 49 → u.word c = (v.setWidth 6).signExtend 24) ∧
    (c = 50 → u.word c = v &&& 0xF7F#24)

/-- Words in their 4-byte containers (R416): a word written reads back, byte 3 holds its sign, and every other word is as before.
Circular and linear pointer steps (R426): a linear step wraps modulo 2^24; a circular step by less than the length of its buffer leaves
the pointer in the buffer, moved by the step, the length or both. -/
def Obligations.YarrowWordsAndPointers : Prop :=
  (∀ (m : Mem) (a : Nat) (v : Word24), m.wf = true →
     (wordSet m a v).wf = true ∧ wordAt (wordSet m a v) a = v ∧ memGet (wordSet m a v) (4 * a + 3) = (if v.msb then 0xFF#8 else 0#8) ∧
     (∀ b, b ≠ a → wordAt (wordSet m a v) b = wordAt m b)) ∧
  (∀ (p : Word24) (n : Int), stepPointer 0 p n = p + BitVec.ofInt 24 n) ∧
  (∀ (m p : Word24) (n : Int), descriptor m = 1 →
    let base := p.toNat / 16384 * 16384 + 64 * bits m.toNat 21 14
    let len := if bits m.toNat 13 0 = 0 then 16384 else bits m.toNat 13 0
    base ≤ p.toNat → p.toNat < base + len → -(len : Int) ≤ n → n ≤ len →
      base ≤ (stepPointer m p n).toNat ∧ (stepPointer m p n).toNat < base + len ∧
      (((stepPointer m p n).toNat : Int) = p.toNat + n ∨ ((stepPointer m p n).toNat : Int) = p.toNat + n + len ∨
        ((stepPointer m p n).toNat : Int) = p.toNat + n - len))

/-! Rows of the cores, the stream ports, the clocks, DRAM, power, resets and lines. -/

/-- Control register writes of an executing core, and its interrupts (R419, R423, R427, R428, R430, R431).
DMA of a core (R427, R432): GO takes the source as it stands, no rows are done at once, a range outside R432 is a core fault of cause
3, a busy channel ignores it; and a transfer that completes writes what its source held. -/
def Obligations.CoreControlAndDma : Prop :=
  (∀ (t : Time) (b : Fin 16) (p : Fin 9) (k : Nat) (s : State), issuing s b.val p.val = some k →
     let c := s.core k
     let at_ := s.advance t
     exec (.itemCtrlDone t b p) s = .next (modCore k (fun c => { c with done := true }) at_) ∧
     (∀ (v : BitVec 8), exec (.intPendClear t b p v) s = .next (modCore k (fun c => { c with pend := c.pend &&& ~~~v }) at_)) ∧
     (∀ (ch : Fin 4) (x y : Bool), exec (.dmaStatClear t b p ch x y) s = .next (modCore k (fun c =>
       let d := c.dma.getD ch.val {}
       { c with dma := c.dma.set ch.val { d with done := d.done && !x, err := d.err && !y } }) at_)) ∧
     -- DOORBELL raises source 4 on every core of the cluster at a named position
     (∀ (pos : BitVec 9), ∃ u, exec (.doorbellWrite t b p pos) s = .next u ∧
       u = { at_ with rt := { at_.rt with dsp := { at_.rt.dsp with cores := u.rt.dsp.cores } } } ∧
       ∀ j, ((∃ q, q < 9 ∧ pos.getLsbD q = true ∧ coreKey s b.val q = some j) →
           u.core j = { s.core j with pend := (s.core j).pend ||| 0x10#8 }) ∧
         (¬ (∃ q, q < 9 ∧ pos.getLsbD q = true ∧ coreKey s b.val q = some j) → u.core j = s.core j)) ∧
     -- ENQ_GO: a refused enqueue leaves Clover alone and says why; any other is an enqueue of the descriptor
     (let d := c.enq.flatMap fun w => le 2 w.toNat
      (∀ q r, partitionOf s.gens.active b.val = some q → refusal s.gens.active q d = some r → ∃ u, exec (.enqGo t b p) s = .next u ∧
         u.core k = { c with refused := true, reason := r } ∧ u.rt.clover = s.rt.clover) ∧
      ((partitionOf s.gens.active b.val = none ∨ ∃ q, partitionOf s.gens.active b.val = some q ∧ refusal s.gens.active q d = none) →
         exec (.enqGo t b p) s = .next (enqueueItem b.val d (some (b.val, p.val)) (modCore k (fun c => { c with refused := false }) at_)))) ∧
     -- an interrupt is taken at a boundary outside delay slots and repetitions: the lowest source that is pending and enabled
     (let r := landAll c.late (landAll c.later c.regs)
      c.delay = none → c.repeat_ = none → c.ctrlLate = [] →
      (∀ n, r.sw.getLsbD 11 = true → (c.pend &&& c.en).getLsbD n = true → (∀ j, j < n → (c.pend &&& c.en).getLsbD j = false) →
         exec (.interruptEntry t b p) s = .next (modCore k (fun c => { c with
           regs := { r with sw := r.sw &&& ~~~0x800#24 }, late := [], later := [], ctrlLate := [], forward := []
           ipc := BitVec.ofNat 14 c.pc, isw := r.sw, pend := c.pend &&& ~~~(1#8 <<< n), pc := 2 * n }) at_)) ∧
      ((r.sw.getLsbD 11 = false ∨ c.pend &&& c.en = 0) → ∃ u, exec (.interruptEntry t b p) s = .next u ∧ u.core k = c))) ∧
  (∀ (t : Time) (b : Fin 16) (p : Fin 9) (ch : Fin 4) (irq : Bool) (k : Nat) (s : State), issuing s b.val p.val = some k →
    let old := (s.core k).dma.getD ch.val {}
    let s1 := modCore k (fun c => { c with dma := c.dma.set ch.val { old with irq := irq } }) (s.advance t)
    let d := (s1.core k).dma.getD ch.val {}
    (old.busy = true → exec (.dmaCtrlGo t b p ch irq) s = .next (s.advance t)) ∧
    (old.busy = false → dmaAllowed s1 b.val (s1.core k) d = false →
      exec (.dmaCtrlGo t b p ch irq) s = .next (coreFails b.val p.val 3 s1)) ∧
    (old.busy = false → dmaAllowed s1 b.val (s1.core k) d = true → d.rows = 0 → exec (.dmaCtrlGo t b p ch irq) s =
      .next (modCore k (fun c => { c with
        pend := if d.irq then c.pend ||| (1#8 <<< ch.val) else c.pend
        dma := c.dma.set ch.val { d with done := true } }) s1)) ∧
    (old.busy = false → dmaAllowed s1 b.val (s1.core k) d = true → 0 < d.rows → exec (.dmaCtrlGo t b p ch irq) s =
      .next (modCore k (fun c => { c with dma := c.dma.set ch.val { d with
        busy := true, snap := d.sources.map fun a => (sourceByte s k a).getD 0 } }) s1))) ∧
  (∀ (t : Time) (b : Fin 16) (p : Fin 9) (ch : Fin 4) (failing : List Nat) (s : State),
    (∀ k, coreKey s b.val p.val = some k → ((s.core k).dma.getD ch.val {}).busy = false) →
      exec (.dmaDone t b p ch failing) s = .next (s.advance t)) ∧
  -- one row from DRAM to DRAM
  (∀ (t : Time) (b : Fin 16) (p : Fin 9) (ch : Fin 4) (k : Nat) (s : State), coreKey s b.val p.val = some k → Safe s →
    let d := (s.core k).dma.getD ch.val {}
    d.busy = true → d.rows = 1 → d.valid = true → d.src + d.len ≤ s.rt.dram.fitted → d.dst + d.len ≤ s.rt.dram.fitted →
    d.src + d.len ≤ 2 ^ 40 → d.dst + d.len ≤ 2 ^ 40 → s.rt.dram.corrupt = [] → d.snap = memRead s.rt.dram.mem d.src d.len →
    ∃ u, exec (.dmaDone t b p ch []) s = .next u ∧ memRead u.rt.dram.mem d.dst d.len = memRead s.rt.dram.mem d.src d.len ∧
      (∀ a, (a < d.dst ∨ d.dst + d.len ≤ a) → memGet u.rt.dram.mem a = memGet s.rt.dram.mem a) ∧
      u.core k = { s.core k with
        pend := if d.irq then (s.core k).pend ||| (1#8 <<< ch.val) else (s.core k).pend
        dma := (s.core k).dma.set ch.val { d with busy := false, done := true, snap := [] } })

/-- Host stream port registers (R47, R559, R560): a write of a tail, a size or the error bits where PCIe is ready and nothing is held; a
write in the active state before the domain is ready waits, and is applied in order; a read of such a block answers ones and shows in
DEV_FAULT.
FIFO words (R551 to R553): a word enters at the back with even parity while there is room for it, and leaves from the front; a word
whose parity fails, or that an upset reaches, is delivered with its poison tag; an empty FIFO delivers the idle item. -/
def Obligations.StreamPortRegistersAndFifos : Prop :=
  (let ready := fun (off : Nat) (s : State) => s.reachable = true ∧ s.senak.heldWrites = [] ∧ blockReady off s = true
   let base := fun (h : Fin 64) => 0x200000 + h.val * 0x100
   let sized := fun (v : BitVec 32) (d : HspDir) =>
     let n := v.toNat % 16
     let d1 := { d with log2 := if d.en = false ∧ 6 ≤ n ∧ n ≤ 12 then n else d.log2, en := v.getLsbD 31 }
     if v.getLsbD 31 = true ∧ d.en = false then { d1 with head := 0, tail := 0, phase := true } else d1
   (∀ h v s, ready (base h + 0xC) s → exec (.hspInTailWrite h v) s = .next (modHsp h.val (fun p =>
     { p with inb := { p.inb with tail := v.toNat % 4096 } }) s)) ∧
   (∀ h v s, ready (base h + 0x2C) s → exec (.hspOutTailWrite h v) s = .next (modHsp h.val (fun p =>
     { p with outb := { p.outb with tail := v.toNat % 4096 } }) s)) ∧
   (∀ h v s, ready (base h + 8) s → exec (.hspSizeWrite h false v) s = .next (modHsp h.val (fun p => { p with inb := sized v p.inb }) s)) ∧
   (∀ h v s, ready (base h + 0x28) s → exec (.hspSizeWrite h true v) s = .next (modHsp h.val (fun p => { p with outb := sized v p.outb }) s)) ∧
   (∀ h v s, ready (base h + 0x44) s → exec (.hspErrClear h v) s = .next (modHsp h.val (fun p =>
     { p with err := p.err &&& ~~~v.extractLsb' 0 3 }) s)) ∧
   (∀ (h : Fin 64) (v : BitVec 32) (s : State), s.reachable = true → s.rt.power.state = 0 → blockReady (base h + 0xC) s = false →
     ∃ u, exec (.hspInTailWrite h v) s = .next u ∧ u.senak.heldWrites = s.senak.heldWrites ++ [⟨base h + 0xC, v.toNat⟩] ∧
       u.rt.hsp = s.rt.hsp ∧ u.rt.power.powered.getLsbD 35 = true) ∧
   (∀ (t : Time) (h : Fin 64) (v : BitVec 32) (l : List HeldWrite) (s : State), s.senak.heldWrites = ⟨base h + 0xC, v.toNat⟩ :: l →
     blockReady (base h + 0xC) s = true → ∃ u, exec (.heldBar0WriteApply t) s = .next u ∧ u.senak.heldWrites = l ∧
       u.hspPort h.val = { s.hspPort h.val with inb := { (s.hspPort h.val).inb with tail := v.toNat % 4096 } }) ∧
   (∀ (t : Time) (s : State), s.senak.heldWrites = [] → exec (.heldBar0WriteApply t) s = .next (s.advance t)) ∧
   (∀ (t : Time) (off : Nat) (s : State), s.reachable = true → s.rt.power.state = 0 → off % 4 = 0 → inBlock off = true → blockReady off s = false →
     ∃ u, exec (.bar0ReadDomainNotReady t ⟨off, 4⟩) s = .next u ∧ u.wire.head? = some (.read (le 4 0xFFFFFFFF)) ∧
       u.senak.devFault = s.senak.devFault ||| 0x20#6 ∧
       u.rt.power.powered.getLsbD (if off < 0x200000 then 31 else 35) = true)) ∧
  (∀ (t : Time) (h : Fin 64) (out : Bool) (w : BitVec 64) (last : Bool) (s : State), (dirOf s h.val out).words.length < 4096 →
    ∃ u x, exec (.fifoWrite t h out w last) s = .next u ∧ (dirOf u h.val out).words = (dirOf s h.val out).words ++ [x] ∧
      x.data = w ∧ x.last = last ∧
      (b2n x.parity + b2n last + ((List.range 64).map fun i => b2n (w.getLsbD i)).foldl (· + ·) 0) % 2 = 0) ∧
  (∀ (t : Time) (h : Fin 64) (out : Bool) (w : BitVec 64) (last : Bool) (s : State), 4096 ≤ (dirOf s h.val out).words.length →
    exec (.fifoWrite t h out w last) s = .next (s.advance t)) ∧
  (∀ (t : Time) (h : Fin 64) (out : Bool) (upset : Bool) (x : FifoWord) (l : List FifoWord) (s : State),
    (dirOf s h.val out).words = x :: l → ∃ u, exec (.fifoRead t h out upset) s = .next u ∧ (dirOf u h.val out).words = l ∧
      u.wire = .fifo x.data x.last false (x.fails != upset) :: s.wire ∧
      (u.hspPort h.val).badWords = (s.hspPort h.val).badWords + b2n (x.fails != upset)) ∧
  (∀ (t : Time) (h : Fin 64) (out : Bool) (upset : Bool) (s : State), (dirOf s h.val out).words = [] →
    exec (.fifoRead t h out upset) s = .next { s.advance t with wire := .fifo (-1) false true false :: s.wire })

/-- Packets of host stream ports (R553, R555, R556, R558, R561): a descriptor that is served gets its status and phase in host memory and
the ring's index moves on; one that breaks R555 gets status 4, a poisoned packet status 1, a packet without a consumer status 3. -/
def Obligations.StreamPortPackets : Prop :=
  let completed := fun (h : Nat) (out : Bool) (status written : Nat) (s u : State) =>
    let d := dirOf s h out
    let e := dirOf u h out
    memRead u.hostMem (d.base.toNat * 4096 + 32 * d.head + 0x10) 8 =
      le 4 written ++ [BitVec.ofNat 8 status, if d.phase then 1 else 0, 0, 0] ∧
    e.head = (d.head + 1) % 2 ^ d.log2 ∧ e.phase = (if (d.head + 1) % 2 ^ d.log2 = 0 then !d.phase else d.phase) ∧
    e.base = d.base ∧ e.log2 = d.log2 ∧ e.tail = d.tail ∧ e.en = d.en
  let served := fun (out : Bool) (h : Nat) (s : State) =>
    let d := dirOf s h out
    d.en = true ∧ d.head % 2 ^ d.log2 ≠ d.tail % 2 ^ d.log2 ∧ s.senak.pcie.canSend = true ∧ (out = false → s.stalls 35 = false)
  let desc := fun (out : Bool) (h : Nat) (s : State) => memRead s.hostMem ((dirOf s h out).base.toNat * 4096 + 32 * (dirOf s h out).head) 16
  let long := fun (e : Bytes) => u32 e 8
  let wellIn := fun (e : Bytes) => u32 e 12 = 0 ∧ 1 ≤ long e ∧ long e ≤ 16384
  let wellOut := fun (e : Bytes) => u32 e 12 = 0 ∧ 64 ≤ long e ∧ long e ≤ 16384 ∧ long e % 64 = 0
  let kind := fun (h : Nat) (s : State) => u8 (hspBlock s h) 1
  (∀ (t : Time) (h : Fin 64) (x : Bool) (s : State), ¬ served false h.val s → exec (.hspInboundFetch t h x) s = .next (s.advance t)) ∧
  (∀ (t : Time) (h : Fin 64) (x : Bool) (s : State), Safe s → served false h.val s → ¬ wellIn (desc false h.val s) →
    ∃ u, exec (.hspInboundFetch t h x) s = .next u ∧ completed h.val false 4 0 s u ∧ (u.hspPort h.val).err = (s.hspPort h.val).err ||| 4#3) ∧
  (∀ (t : Time) (h : Fin 64) (s : State), Safe s → served false h.val s → wellIn (desc false h.val s) →
    (s.hspPort h.val).inb.words.length + (long (desc false h.val s) + 7) / 8 ≤ 4096 →
    ∃ u, exec (.hspInboundFetch t h true) s = .next u ∧ completed h.val false 1 0 s u ∧ (u.hspPort h.val).err = (s.hspPort h.val).err ||| 1#3) ∧
  (∀ (t : Time) (h : Fin 64) (s : State), Safe s → served false h.val s → wellIn (desc false h.val s) →
    (s.hspPort h.val).inb.words.length + (long (desc false h.val s) + 7) / 8 ≤ 4096 →
    ∃ u, exec (.hspInboundFetch t h false) s = .next u ∧
      completed h.val false (if kind h.val s = 0 ∧ hspLeg s.gens.active h.val = none then 3 else 0) 0 s u) ∧
  (∀ (t : Time) (h : Fin 64) (x : Bool) (s : State), ¬ served true h.val s → exec (.hspOutboundWrite t h x) s = .next (s.advance t)) ∧
  (∀ (t : Time) (h : Fin 64) (x : Bool) (s : State), (s.hspPort h.val).outb.lengths = [] →
    exec (.hspOutboundWrite t h x) s = .next (s.advance t)) ∧
  (∀ (t : Time) (h : Fin 64) (x : Bool) (n : Nat) (l : List Nat) (s : State), Safe s → served true h.val s →
    (s.hspPort h.val).outb.lengths = n :: l → ¬ wellOut (desc true h.val s) →
    ∃ u, exec (.hspOutboundWrite t h x) s = .next u ∧ completed h.val true 4 0 s u ∧
      (u.hspPort h.val).outb.words = (s.hspPort h.val).outb.words) ∧
  (∀ (t : Time) (h : Fin 64) (b : Bytes) (rest : HspDir) (s : State), Safe s → served true h.val s →
    (s.hspPort h.val).outb.take = some (b, false, rest) → wellOut (desc true h.val s) →
    let at_ := u64 (desc true h.val s) 0
    let room := long (desc true h.val s)
    let d := (s.hspPort h.val).outb
    let here := d.base.toNat * 4096 + 32 * d.head
    at_ + room ≤ here + 0x10 ∨ here + 0x18 ≤ at_ →
    ∃ u, exec (.hspOutboundWrite t h false) s = .next u ∧
      completed h.val true (if room < b.length then 2 else 0) (Nat.min room b.length) s u ∧
      memRead u.hostMem at_ (Nat.min room b.length) = b.take room ∧
      (u.hspPort h.val).outb.words = rest.words ∧ (u.hspPort h.val).outb.lengths = rest.lengths) ∧
  (∀ (t : Time) (h : Fin 64) (s : State), (s.hspPort h.val).due = false → exec (.hspVectorSend t h) s = .next (s.advance t)) ∧
  (∀ (t : Time) (h : Fin 64) (s : State), (s.hspPort h.val).due = true → (s.hspPort h.val).sentAt = none →
    0 < u8 (hspBlock s h.val) 2 → u8 (hspBlock s h.val) 2 < 64 → s.senak.pcie.canSend = true → msixMasked s.senak.pcie (u8 (hspBlock s h.val) 2) = false →
    ∃ u, exec (.hspVectorSend t h) s = .next u ∧ u.wire = .msix (u8 (hspBlock s h.val) 2) :: s.wire ∧
      u.hspPort h.val = { s.hspPort h.val with due := false, sentAt := some (s.advance t).up })

/-- The time counter and its servo (R524, R526, R527, R529 to R532, R535, R536): an armed set, the end of a slew, edges and measurements,
the loss of a source, holdover's limit, and the pulse out. (A PTP message's layout and the sign of an offset are
log 190.) -/
def Obligations.TimeRows : Prop :=
  let ns := fun (v : Int) => v * (tNs : Nat)
  (∀ s : State, s.rt.time.armed = none → exec .timeSetArmedApply s = .next s) ∧
  (∀ (s : State) (p : Bytes), s.rt.time.armed = some p → ∃ u, exec .timeSetArmedApply s = .next u ∧ u.rt.time.armed = none ∧
    u.rt.time.now = u64 p 8 * tS ∧ u.rt.time.steps = Nat.min 65535 (s.rt.time.steps + 1)) ∧
  Happens .slewEnd (fun s => ∃ w, s.rt.time.slew = some w ∧ w.offset.natAbs * tNs * 1000000000 ≤ (s.rt.time.up - w.start) * w.rate)
    (fun s => { s with rt := { s.rt with time := { s.rt.time with slew := none } } }.post 0x0F82 1 0 0) ∧
  -- an edge of PPS_IN
  (∀ (t : Time) (rising : Bool) (s : State), s.timeClock = false ∨ rising ≠ (u8 s.rt.time.pins 0xC == 0) →
    exec (.ppsInEdge t rising) s = .next (s.advance t)) ∧
  (∀ (t : Time) (rising : Bool) (l : Time) (s : State), s.timeClock = true → rising = (u8 s.rt.time.pins 0xC == 0) →
    s.rt.time.lastPps = some l → (s.advance t).now / 4096 * 4096 < l + tS / 2 →
    exec (.ppsInEdge t rising) s = .next ((s.advance t).modTime fun b => { b with stats := bump b.stats 17 })) ∧
  (∀ (t : Time) (rising : Bool) (s : State), s.timeClock = true → rising = (u8 s.rt.time.pins 0xC == 0) →
    (∀ l, s.rt.time.lastPps = some l → l + tS / 2 ≤ (s.advance t).now / 4096 * 4096) → u8 s.rt.time.servo 0 ≠ 2 →
    exec (.ppsInEdge t rising) s = .next ((s.advance t).modTime fun b => { b with lastPps := some ((s.advance t).now / 4096 * 4096) })) ∧
  (∀ (t : Time) (rising : Bool) (s : State), s.timeClock = true → rising = (u8 s.rt.time.pins 0xC == 0) →
    (∀ l, s.rt.time.lastPps = some l → l + tS / 2 ≤ (s.advance t).now / 4096 * 4096) → u8 s.rt.time.servo 0 = 2 →
    s.rt.time.phasePresent = true → s.rt.time.state = .locked →
    ∃ u, exec (.ppsInEdge t rising) s = .next u ∧ u.rt.time.lastPps = some ((s.advance t).now / 4096 * 4096) ∧
      u.rt.time.theta = secondOffset (((s.advance t).now / 4096 * 4096 : Nat) - ns (sN s.rt.time.pins 0 4))) ∧
  -- an offset that firmware measured, in LOCKED without a frequency source: y is −(Kp θ + Ki s), within the clamp
  (∀ (t : Time) (m : PtpOffset) (theta : Int) (s : State), u8 s.rt.time.servo 0 = 1 → s.rt.time.phasePresent = true →
    s.rt.time.state = .locked → ptpTheta s.rt.time m = some theta → s.rt.time.freqIn = false →
    theta.natAbs < u32 s.rt.time.servo 0x14 * tNs →
    let b := s.rt.time
    let th : Rat := (theta : Rat) / (tNs : Nat)
    let r := roundRat (-((u32 b.servo 4 : Rat) * th + (u32 b.servo 8 : Rat) * (b.s + th)))
    ∃ u, exec (.ptpMeasurement t m) s = .next u ∧ u.rt.time.theta = theta ∧ u.rt.time.pathDelay = m.delay.toNat ∧
      u.rt.time.y = b.clamped r ∧ u.rt.time.s = (if b.clamped r = r then b.s + th else b.s) ∧ u.rt.time.state = .locked ∧
      u.rt.time.outliers = 0) ∧
  (∀ (t : Time) (m : PtpOffset) (theta : Int) (s : State), u8 s.rt.time.servo 0 = 1 → s.rt.time.phasePresent = true →
    s.rt.time.state = .locked → ptpTheta s.rt.time m = some theta → u32 s.rt.time.servo 0x14 * tNs ≤ theta.natAbs →
    ∃ u, exec (.ptpMeasurement t m) s = .next u ∧ u.rt.time.y = s.rt.time.y ∧
      u.rt.time.state = (if 3 ≤ s.rt.time.outliers then .acquiring else .locked)) ∧
  (∀ (t : Time) (m : PtpOffset) (s : State), u8 s.rt.time.servo 0 ≠ 1 ∨ s.rt.time.phasePresent = false ∨ ptpTheta s.rt.time m = none →
    exec (.ptpMeasurement t m) s = .next ((s.advance t).modTime fun b => { b with pathDelay := m.delay.toNat })) ∧
  (∀ (t : Time) (m : PtpMessage) (s : State), u8 (mgetD s.rt.time.ptp m.port.val []) 1 = 1 → m.type = 1 → m.selected = true →
    ∃ u, exec (.ptpMessageReceive t m) s = .next u ∧ u.rt.time.grandmaster = m.grandmaster.toNat ∧ u.rt.time.slavePort = some m.port.val ∧
      u.rt.time.utc = m.utc.toNat ∧ u.rt.time.leap = m.leap.toNat) ∧
  -- a Sync is stamped on its reference plane, and a Follow_Up carries its seconds modulo 2⁴⁸ (R14)
  (∀ (t : Time) (m : PtpMessage) (s : State), u8 (mgetD s.rt.time.ptp m.port.val []) 1 = 1 → m.type = 0 →
    mgetD s.rt.net.inbox (0x6001 + 64 * m.port.val) [] = [] → ∃ u, exec (.ptpMessageReceive t m) s = .next u ∧
      mget u.rt.time.ptpSync m.port.val = some (shiftTime ((s.advance t).now / 4096 * 4096) (s.rt.net.correction m.port.val false))) ∧
  (∀ (t : Time) (m : PtpMessage) (s : State), u8 (mgetD s.rt.time.ptp m.port.val []) 1 = 1 → m.type = 3 →
    ∃ u, exec (.ptpMessageReceive t m) s = .next u ∧ mget u.rt.time.ptpOrigin m.port.val =
      some (((s.advance t).now / tS / 2 ^ 48 * 2 ^ 48 + beNat (slice m.data 34 6)) * tS + beNat (slice m.data 40 4) * tNs)) ∧
  (∀ (t : Time) (m : PtpMessage) (s : State), u8 (mgetD s.rt.time.ptp m.port.val []) 1 ≠ 1 →
    ∃ u, exec (.ptpMessageReceive t m) s = .next u ∧ u.rt.time = (s.advance t).rt.time) ∧
  (∀ (t : Time) (f : Rat) (s : State), s.timeClock = true → u8 s.rt.time.servo 1 ≠ 0 → -100000 ≤ f → f ≤ 100000 →
    ∃ u, exec (.freqMeasurement t f) s = .next u ∧ u.rt.time.f = f ∧ u.rt.time.freqPresent = true ∧
      (s.rt.time.state = .frequency → u.rt.time.y = s.rt.time.clamped (roundRat (-1000 * f)))) ∧
  (∀ (t : Time) (f : Rat) (s : State), s.timeClock = false ∨ u8 s.rt.time.servo 1 = 0 →
    exec (.freqMeasurement t f) s = .next (s.advance t)) ∧
  (∀ (t : Time) (l : Time) (s : State), u8 s.rt.time.servo 0 = 2 → s.rt.time.phasePresent = true → s.rt.time.lastPps = some l →
    l + 3 * tS / 2 ≤ (s.advance t).now → ∃ u, exec (.ppsInLost t) s = .next u ∧ u.rt.time.phasePresent = false ∧
      (s.rt.time.state = .locked → u.rt.time.state = .holdover)) ∧
  (∀ (t : Time) (s : State), s.rt.time.phasePresent = false → exec (.ppsInLost t) s = .next (s.advance t)) ∧
  (∀ (t : Time) (s : State), ∃ u, exec (.ptpSourceLost t) s = .next u ∧ u.rt.time.slavePort = none ∧ u.rt.time.grandmaster = 0 ∧
    (u8 s.rt.time.servo 0 = 1 → s.rt.time.phasePresent = true → u.rt.time.phasePresent = false ∧
      (s.rt.time.state = .locked → u.rt.time.state = .holdover) ∧
      (s.rt.time.state = .acquiring → u.rt.time.state = if s.rt.time.freqIn then .frequency else .freeRun))) ∧
  (∀ (t : Time) (s : State), s.rt.time.state = .holdover → 0 < u16 s.rt.time.servo 0x1A → s.rt.time.limitPassed = false →
    s.rt.time.stateSince + u16 s.rt.time.servo 0x1A * 60 * tS ≤ (s.advance t).up →
    ∃ u, exec (.holdoverLimitExpiry t) s = .next u ∧ u.rt.time.limitPassed = true ∧ u.rt.time.state = .holdover) ∧
  (∀ (t : Time) (s : State), s.rt.time.state ≠ .holdover → exec (.holdoverLimitExpiry t) s = .next (s.advance t)) ∧
  (∀ (t : Time) (s : State), u8 s.rt.time.pins 0xA = 1 →
    let sec := ((s.advance t).now : Int) - ns (sN s.rt.time.pins 4 4)
    sec % (tS : Nat) = 0 → 0 < sec → (s.rt.time.setAt : Int) + (tMs : Nat) ≤ sec →
    ∃ u, exec (.ppsOutPulse t) s = .next u ∧ u.rt.time.ppsOut = true ∧ mgetD u.boot.pins 0 true = true) ∧
  (∀ (t : Time) (s : State), u8 s.rt.time.pins 0xA ≠ 1 → exec (.ppsOutPulse t) s = .next (s.advance t)) ∧
  (∀ (t : Time) (s : State), ∃ u, exec (.ppsOutPulseEnd t) s = .next u ∧ u.rt.time.ppsOut = false ∧ mgetD u.boot.pins 0 true = false) ∧
  (∀ (t : Time) (s : State), s.rt.power.refclkOk = false → ∃ u, exec (.refclkLockHeld t) s = .next u ∧ u.rt.power.refclkOk = true ∧
    u.boot.waitRefclk = false ∧ u.rt.time.state = .freeRun) ∧
  (∀ (t : Time) (s : State), s.rt.power.refclkOk = true → exec (.refclkLockHeld t) s = .next (s.advance t))

/-- Timed queues (R537 to R540): a frame with a launch time at most 1 s ahead enters a queue that has room, in launch order; the head leaves
at its launch, or is dropped once it is later than its tolerance. -/
def Obligations.TimedQueues : Prop :=
  let queue := fun (s : State) (p : Nat) => mgetD s.rt.time.queues p []
  let setting := fun (s : State) (p : Nat) => match mget s.rt.time.launch p with
    | some l => (u32 l 4, u8 l 1 == 1)
    | none => (100000, false)
  (∀ (t : Time) (p : Fin 4) (f : TimedFrame) (s : State), f.launch ≤ (s.advance t).now + tS → (queue s p.val).length < 2048 →
    ∃ u before after, exec (.timedQueueEnqueue t p f) s = .next u ∧ queue s p.val = before ++ after ∧
      queue u p.val = before ++ [{ launch := f.launch, tolerance := (f.own.getD (setting s p.val)).1, drop := (f.own.getD (setting s p.val)).2
                                   tsTag := f.tsTag.map (·.toNat)
                                   packet := { kind := 3, flow := f.flow.toNat, data := f.data, len := f.data.length } }] ++ after ∧
      (∀ g ∈ before, g.launch ≤ f.launch) ∧ (∀ g, after.head? = some g → f.launch < g.launch)) ∧
  (∀ (t : Time) (p : Fin 4) (f : TimedFrame) (s : State), (s.advance t).now + tS < f.launch ∨ 2048 ≤ (queue s p.val).length →
    ∃ u, exec (.timedQueueEnqueue t p f) s = .next u ∧ u.rt.time.queues = s.rt.time.queues) ∧
  (∀ (t : Time) (m : PtpMessage) (s : State), u8 (mgetD s.rt.time.ptp m.port.val []) 1 = 1 ∨ m.type = 4 →
    (queue s m.port.val).length < 2048 →
    ∃ u, exec (.ptpMessageSend t m) s = .next u ∧ (queue u m.port.val).length = (queue s m.port.val).length + 1) ∧
  (∀ (t : Time) (m : PtpMessage) (s : State), u8 (mgetD s.rt.time.ptp m.port.val []) 1 ≠ 1 → m.type ≠ 4 →
    exec (.ptpMessageSend t m) s = .next (s.advance t)) ∧
  (∀ (t : Time) (p : Fin 4) (f : Timed) (l : List Timed) (s : State), portFree (s.advance t) p.val = true → queue s p.val = f :: l →
    s.rt.net.isUp p.val = true → f.packet.tag = none → f.launch ≤ (s.advance t).now →
    ((s.advance t).now - f.launch < f.tolerance * tNs ∨ (s.advance t).now - f.launch < 6 * tNs ∨ f.drop = false) →
    ∃ u, exec (.timedLaunch t p) s = .next u ∧ queue u p.val = l ∧ .frame p.val (s.advance t).now f.packet ∈ u.wire) ∧
  (∀ (t : Time) (p : Fin 4) (f : Timed) (l : List Timed) (s : State), portFree (s.advance t) p.val = true → queue s p.val = f :: l →
    s.rt.net.isUp p.val = true → f.packet.tag = none → f.launch + f.tolerance * tNs ≤ (s.advance t).now →
    f.launch + 6 * tNs ≤ (s.advance t).now → f.drop = true →
    ∃ u, exec (.timedLaunch t p) s = .next u ∧ queue u p.val = l ∧ u.wire = s.wire) ∧
  (∀ (t : Time) (p : Fin 4) (f : Timed) (l : List Timed) (s : State), queue s p.val = f :: l → (s.advance t).now < f.launch →
    exec (.timedLaunch t p) s = .next (s.advance t)) ∧
  (∀ (t : Time) (p : Fin 4) (s : State), queue s p.val = [] → exec (.timedLaunch t p) s = .next (s.advance t))

/-- DRAM (R566, R567, R571 to R577, R579): a controller serves a request, refreshes, polls, scrubs and powers ranks down, and training
brings the population into service or leaves it out. -/
def Obligations.DramRows : Prop :=
  let quiet := fun (s : State) (c : Nat) => (mgetD s.rt.dram.subs c {}).queue = [] ∧ s.rt.dram.due = [] ∧ s.rt.dram.deferred = []
  (∀ (t : Time) (c : Fin 16) (l : List LineAccess) (e : LineErr) (s : State), dramServes s = false →
    exec (.dramRequest t c l e) s = .next (s.advance t)) ∧
  -- a write alone at its controller stores its 64 bytes and nothing else
  (∀ (t : Time) (c : Fin 16) (line : Nat) (b : Bytes) (e : LineErr) (s : State), Safe s → dramServes s = true → quiet s c.val →
    64 * line < s.rt.dram.fitted → s.rt.dram.ctlOf (64 * line) = c.val → b.length = 64 →
    ∃ u, exec (.dramRequest t c [{ line := line, write := some b }] e) s = .next u ∧ memRead u.rt.dram.mem (64 * line) 64 = b ∧
      (∀ a, (a < 64 * line ∨ 64 * line + 64 ≤ a) → memGet u.rt.dram.mem a = memGet s.rt.dram.mem a) ∧ u.wire = s.wire) ∧
  -- a read alone returns the line, corrected where one device failed, and zeros with the error where more did
  (∀ (t : Time) (c : Fin 16) (line : Nat) (e : LineErr) (s : State), dramServes s = true → quiet s c.val →
    64 * line < s.rt.dram.fitted → s.rt.dram.ctlOf (64 * line) = c.val → mget s.rt.dram.corrupt line = none →
    ∃ u, exec (.dramRequest t c [{ line := line, write := none }] e) s = .next u ∧ u.rt.dram.mem = s.rt.dram.mem ∧
      u.wire.head? = some (.line (64 * line) (if e = .several then List.replicate 64 0 else memRead s.rt.dram.mem (64 * line) 64) (e == .several)) ∧
      u.rt.dram.uncorrectable = s.rt.dram.uncorrectable + (if e = .several then 1 else 0) ∧
      u.rt.dram.corrected = s.rt.dram.corrected + (if e = .several ∨ e = .good then 0 else 1)) ∧
  (∀ (t : Time) (r : Fin 64) (s : State), dramServes s = true → rankFitted s.rt.dram r.val = true →
    ∃ u, exec (.refreshInterval t r) s = .next u ∧ u.rt.dram.mem = s.rt.dram.mem ∧
      (rankBusy s.rt.dram r.val = true → mgetD s.rt.dram.deferred r.val 0 < 4 →
        mgetD u.rt.dram.deferred r.val 0 = mgetD s.rt.dram.deferred r.val 0 + 1 ∧ u.rt.dram.due = s.rt.dram.due) ∧
      (rankBusy s.rt.dram r.val = false ∨ 4 ≤ mgetD s.rt.dram.deferred r.val 0 →
        r.val ∈ u.rt.dram.due ∧ u.rt.dram.deferred = s.rt.dram.deferred)) ∧
  (∀ (t : Time) (r : Fin 64) (s : State), dramServes s = false ∨ rankFitted s.rt.dram r.val = false →
    exec (.refreshInterval t r) s = .next (s.advance t)) ∧
  (∀ (t : Time) (r : Fin 64) (s : State), dramServes s = true → refreshDue s.rt.dram r.val = true →
    ∃ u, exec (.dramRefresh t r) s = .next u ∧ u.rt.dram.due = s.rt.dram.due.erase r.val ∧ mget u.rt.dram.deferred r.val = none ∧
      (∀ bank, bank / 32 = r.val % 4 → mget (mgetD u.rt.dram.subs (r.val / 4) {}).open_ bank = none) ∧ u.rt.dram.mem = s.rt.dram.mem) ∧
  (∀ (t : Time) (r : Fin 64) (s : State), dramServes s = false ∨ refreshDue s.rt.dram r.val = false →
    exec (.dramRefresh t r) s = .next (s.advance t)) ∧
  (∀ (t : Time) (r : Fin 64) (x : Fin 3) (s : State), 0 < s.rt.dram.fitted → rankFitted s.rt.dram r.val = true →
    ∃ u, exec (.mr4Poll t [(r, x)]) s = .next u ∧ u.rt.dram.hot = if x = 0 then [] else [(r.val, x.val)]) ∧
  (∀ (t : Time) (l : List (Fin 64 × Fin 3)) (s : State), s.rt.dram.fitted = 0 → exec (.mr4Poll t l) s = .next (s.advance t)) ∧
  (∀ (t : Time) (r : Fin 64) (s : State), exec (.zqCalibration t r) s = .next (s.advance t)) ∧
  (∀ (t : Time) (s : State), exec (.dqsRecentre t) s = .next (s.advance t)) ∧
  (∀ (t : Time) (e : LineErr) (s : State), scrubs (s.advance t) = false → exec (.patrolScrub t e) s = .next (s.advance t)) ∧
  (∀ (t : Time) (s : State), scrubs (s.advance t) = true →
    mget s.rt.dram.corrupt s.rt.dram.scrubLine = none →
    ∃ u, exec (.patrolScrub t .good) s = .next u ∧ u.rt.dram.mem = s.rt.dram.mem ∧ u.rt.dram.corrected = s.rt.dram.corrected ∧
      (if 64 * (s.rt.dram.scrubLine + 1) < s.rt.dram.fitted then
        u.rt.dram.scrubLine = s.rt.dram.scrubLine + 1 ∧ u.rt.dram.passes = s.rt.dram.passes
       else u.rt.dram.scrubLine = 0 ∧ u.rt.dram.passes = s.rt.dram.passes + 1)) ∧
  (∀ k : Fin 64, Happens (fun t => .rankPowerDown t k) (fun s => dramServes s = true ∧ s.rt.mgmt.level = 1 ∧ rankFitted s.rt.dram k.val = true ∧
      rankBusy s.rt.dram k.val = false ∧ mgetD s.rt.dram.lastUse k.val 0 + s.rt.dram.timer * tNs ≤ s.rt.time.up ∧ k.val ∉ s.rt.dram.downRanks)
    (fun s => { s with rt := { s.rt with dram := { s.rt.dram with downRanks := k.val :: s.rt.dram.downRanks } } })) ∧
  -- training, in a cold boot
  (∀ (t : Time) (r : TrainResult) (s : State), s.boot.phase ≠ .booting false ∨ s.boot.trained = true →
    exec (.dramTraining t r) s = .next (s.advance t)) ∧
  (∀ (t : Time) (p : BitVec 3) (rate : Nat) (s : State), s.boot.phase = .booting false → s.boot.trained = false → 4000 ≤ rate →
    ∃ u, exec (.dramTraining t (.trained p rate)) s = .next u ∧ u.boot.trained = true ∧ u.rt.dram.state = 0 ∧
      u.rt.dram.fitted = 2 ^ (38 + b2n (p.getLsbD 0) + b2n (p.getLsbD 1) + b2n (p.getLsbD 2)) ∧
      u.rt.dram.speed = (if p.getLsbD 0 then 4000 else if 4800 ≤ rate then 4800 else if 4400 ≤ rate then 4400 else 4000)) ∧
  (∀ (t : Time) (s : State), s.boot.phase = .booting false → s.boot.trained = false →
    ∃ u, exec (.dramTraining t .refused) s = .next u ∧ u.rt.dram.fitted = 0 ∧ u.rt.dram.state = 2 ∧ u.boot.causes.getLsbD 1 = true) ∧
  (∀ (t : Time) (c : Fin 8) (k : Fin 5) (s : State), s.boot.phase = .booting false → s.boot.trained = false →
    ∃ u, exec (.dramTraining t (.failed c k)) s = .next u ∧ u.rt.dram.fitted = 0 ∧ u.rt.dram.state = 1 ∧ u.rt.dram.failing = c.val ∧
      u.boot.causes.getLsbD 1 = true)

/-- Power states, domains, PLLs, DVFS, temperature and supplies (R591 to R603, R677). -/
def Obligations.PowerRows : Prop :=
  (∀ (t e : Time) (s : State), s.rt.power.request = some (3, e) → e ≤ (s.advance t).up →
    ∃ u, exec (.powerDownDelayExpiry t) s = .next u ∧ u.rt.power.state = 3 ∧ u.rt.power.request = none ∧ u.rt.power.powered = 0 ∧
      u.rt.dram.selfRefresh = true ∧ u.rt.dram.mem = s.rt.dram.mem ∧ u.senak.ready = false ∧ u.senak.pcie.linkUp = false) ∧
  (∀ (t e : Time) (s : State), s.rt.power.request = some (4, e) → e ≤ (s.advance t).up →
    ∃ u, exec (.powerDownDelayExpiry t) s = .next u ∧ u.rt.power.state = 4 ∧ u.boot.phase = .held ∧ u.rt.dram.mem = [] ∧
      u.senak.ready = false ∧ u.senak.pcie.linkUp = false) ∧
  (∀ (t : Time) (s : State), (s.rt.power.request = none ∨ ∃ n e, s.rt.power.request = some (n, e) ∧ (s.advance t).up < e) →
    exec (.powerDownDelayExpiry t) s = .next (s.advance t)) ∧
  -- wakes
  (∀ (t : Time) (low : Nat) (s : State), s.rt.power.state = 4 → ∃ u, exec (.wakeNAssert t low) s = .next u ∧ u.rt.power.state = 0 ∧
    u.boot.phase = .held) ∧
  (∀ (t : Time) (low : Nat) (s : State), s.rt.power.state ≠ 4 → low < 1000 → exec (.wakeNAssert t low) s = .next (s.advance t)) ∧
  (∀ (t : Time) (low : Nat) (s : State), 1000 ≤ low → s.rt.power.state = 2 ∨ s.rt.power.state = 3 →
    ∃ u, exec (.wakeNAssert t low) s = .next u ∧ u.rt.power.state = 0 ∧ u.rt.dram.selfRefresh = false ∧
      (s.rt.power.state = 3 → u.senak.ready = true)) ∧
  (∀ (t w : Time) (s : State), s.rt.power.wakeAt = some w → s.rt.power.state = 3 → w ≤ (s.advance t).now →
    ∃ u, exec (.deepSleepTimedWake t) s = .next u ∧ u.rt.power.state = 0 ∧ u.rt.power.wakeAt = none ∧ u.senak.ready = true) ∧
  (∀ (t : Time) (s : State), s.rt.power.wakeAt = none → exec (.deepSleepTimedWake t) s = .next (s.advance t)) ∧
  (∀ (t : Time) (a : WakeAccess) (s : State), s.reachable = true → s.rt.power.state = 2 →
    ∃ u, exec (.sleepWakeAccess t a) s = .next u ∧ u.rt.power.state = 0 ∧ u.rt.dram.selfRefresh = false) ∧
  (∀ (t : Time) (a : WakeAccess) (s : State), s.reachable = false ∨ s.rt.power.state ≠ 2 →
    exec (.sleepWakeAccess t a) s = .next (s.advance t)) ∧
  -- the regulator
  (∀ (t : Time) (mv : Nat) (v : VoltChange) (s : State), s.rt.power.volt = some v → s.rt.power.queued = none →
    mv ≤ coreMv v.target + 10 → coreMv v.target ≤ mv + 10 →
    exec (.powerGood t mv) s = .next (
      let s := s.advance t
      { s with
        rt := { s.rt with power := { s.rt.power with vddCore := mv, volt := none, powerGood := true } }
        gens := if v.raising then { s.gens with
          armed := s.gens.armed.map fun a => { a with waitPower := a.waitPower && decide (setPoint a.gen < v.target) } } else s.gens })) ∧
  (∀ (t : Time) (mv : Nat) (v : VoltChange) (s : State), s.rt.power.volt = some v → coreMv v.target + 10 < mv ∨ mv + 10 < coreMv v.target →
    exec (.powerGood t mv) s = .next ((s.advance t).modPower fun p => { p with vddCore := mv })) ∧
  (∀ (t : Time) (v : VoltChange) (a : Armed) (s : State), s.rt.power.volt = some v → s.gens.armed = some a → v.raising = true →
    a.waitPower = true → v.target = setPoint a.gen → v.writtenAt + tMs ≤ (s.advance t).up →
    ∃ u, exec (.dvfsTimeout t) s = .next u ∧ u.gens.armed = none ∧ u.gens.active = s.gens.active ∧
      u.gens.staged.changes = Nat.min 4294967295 (a.gen.changes + s.gens.staged.changes)) ∧
  (∀ (t : Time) (s : State), s.gens.armed = none ∨ s.rt.power.volt = none → exec (.dvfsTimeout t) s = .next (s.advance t)) ∧
  -- domains
  (∀ (t : Time) (b : Fin 36) (i : Time) (s : State), mget s.rt.power.idleSince b.val = some i → s.rt.power.state = 0 →
    s.domainReady b.val = true → heldOn s.gens.active b.val = false → domainBusy s b.val = false → staysOn s b.val = false →
    s.underTest b.val = false → i + u16 s.gens.active.power 2 * tMs ≤ (s.advance t).up →
    ∃ u, exec (.domainIdleOff t b) s = .next u ∧ u.rt.power.powered = s.rt.power.powered &&& ~~~(1#36 <<< b.val)) ∧
  (∀ (t : Time) (b : Fin 36) (s : State), mget s.rt.power.idleSince b.val = none ∨ staysOn s b.val = true →
    exec (.domainIdleOff t b) s = .next (s.advance t)) ∧
  (∀ (t : Time) (b : Fin 36) (s : State), s.rt.power.state = 0 → s.rt.power.powered.getLsbD b.val = false →
    ∃ u, exec (.domainWake t b) s = .next u ∧ u.rt.power.powered = s.rt.power.powered ||| (1#36 <<< b.val) ∧
      mget u.rt.power.waking b.val = some (s.advance t).up) ∧
  (∀ (t : Time) (b : Fin 36) (s : State), s.rt.power.state ≠ 0 → exec (.domainWake t b) s = .next (s.advance t)) ∧
  (∀ (t w : Time) (b : Fin 36) (s : State), mget s.rt.power.waking b.val = some w →
    ∃ u, exec (.domainReady t b) s = .next u ∧ mget u.rt.power.waking b.val = none ∧
      u.rt.power.wakes = Nat.min 4294967295 (s.rt.power.wakes + 1) ∧ u.rt.power.powered = s.rt.power.powered) ∧
  (∀ (t : Time) (b : Fin 36) (s : State), mget s.rt.power.waking b.val = none → exec (.domainReady t b) s = .next (s.advance t)) ∧
  -- PLLs
  (∀ (t : Time) (p : Fin 10) (s : State), s.rt.power.state = 4 ∨ s.boot.phase = .held → exec (.pllLossOfLock t p) s = .next (s.advance t)) ∧
  (∀ (t : Time) (s : State), s.rt.power.state ≠ 4 → s.boot.phase ≠ .held → mhas s.rt.power.unlocked 2 = false →
    ∃ u, exec (.pllLossOfLock t 2) s = .next u ∧ mget u.rt.power.unlocked 2 = some (s.advance t).up ∧
      ∀ b, 16 ≤ b → b < 25 → u.boot.inReset.getLsbD b = true) ∧
  (∀ (t : Time) (p : Fin 10) (s : State), 8 ≤ p.val → s.rt.power.state ≠ 4 → s.boot.phase ≠ .held →
    ∃ u, exec (.pllLossOfLock t p) s = .next u ∧ u.rt.power.refclkOk = false ∧ ∀ q ∈ [0, 1, 2, 3, 4, 5, 8, 9], mhas u.rt.power.unlocked q = true) ∧
  (∀ (t since : Time) (p : Fin 10) (s : State), mget s.rt.power.unlocked p.val = some since → s.rt.power.refclkOk = true →
    ∃ u, exec (.pllLock t p) s = .next u ∧ u.rt.power.unlocked = mdel s.rt.power.unlocked p.val) ∧
  (∀ (t : Time) (p : Fin 10) (s : State), mget s.rt.power.unlocked p.val = none → exec (.pllLock t p) s = .next (s.advance t)) ∧
  -- temperature
  (∀ (t : Time) (l : List Int) (s : State), s.rt.power.state ≠ 4 → s.boot.phase ≠ .held → l.length = 16 → (∀ x ∈ l, x < 1250) →
    ∃ u, exec (.thermalSample t l) s = .next u ∧ u.rt.power.temps = l ∧ u.rt.power.tripOnce = 0 ∧
      u.rt.power.warn = (let lim : Int := 10 * warnAt s.rt.power
        if s.rt.power.warn then decide (lim - 30 < junction l) else decide (lim ≤ junction l)) ∧
      u.rt.power.state = s.rt.power.state) ∧
  (∀ (t : Time) (l : List Int) (i : Fin 16) (s : State), s.rt.power.state ≠ 4 → s.boot.phase ≠ .held → l.length = 16 →
    s.rt.power.tripOnce.getLsbD i.val = true → 1250 ≤ l.getD i.val 0 →
    (∀ j, j < i.val → s.rt.power.tripOnce.getLsbD j = false ∨ l.getD j 0 < 1250) →
    ∃ u, exec (.thermalSample t l) s = .next u ∧ u.rt.power.state = 4 ∧ u.rt.power.thermtrip = true ∧ u.boot.phase = .held ∧
      u.rt.mgmt.tripped = some i.val ∧ u.rt.dram.mem = []) ∧
  (∀ (t : Time) (l : List Int) (s : State), s.rt.power.state = 4 ∨ s.boot.phase = .held → exec (.thermalSample t l) s = .next (s.advance t)) ∧
  -- a supply
  (∀ (t : Time) (s : State), ∃ u, exec (.powerSupplyLoss t) s = .next u ∧ u.rt.dram.mem = [] ∧ u.gens.active = s.gens.active ∧
    u.gens.staged = { s.gens.active with number := s.gens.staged.number, changes := 0 })

/-- Resets and boots (R78, R599, R610 to R613, R616 to R625, R656, R657): what each source leaves, what starts at its release, and when the
device becomes ready. -/
def Obligations.BootRows : Prop :=
  let runs := fun (s : State) => s.rt.power.state ≠ 3 ∧ s.rt.power.state ≠ 4 ∧ s.boot.phase ≠ .held ∧ s.boot.phase ≠ .warmHeld
  let taken := fun (s : State) => s.boot.phase ≠ .held ∧ s.rt.power.state ≠ 4
  -- a cold reset that the device makes: its cause, everything but AON's records gone
  let cold := fun (cause : Nat) (s u : State) => u.boot.lastReset = (if s.rt.mgmt.tripped.isSome then 6 else cause) ∧
    u.boot.coldResets = Nat.min 4294967295 (s.boot.coldResets + 1) ∧ u.senak.ready = false ∧ u.gens.active.number = ({} : Generation).number ∧
    u.rt.dram.mem = [] ∧ u.rt.mgmt.rollback = s.rt.mgmt.rollback ∧ u.rt.mgmt.lifecycle = s.rt.mgmt.lifecycle
  -- a warm one: DRAM stays
  let warm := fun (cause : Nat) (s u : State) => u.boot.lastReset = cause ∧
    u.boot.warmResets = Nat.min 4294967295 (s.boot.warmResets + 1) ∧ u.senak.ready = false ∧ u.rt.dram.mem = s.rt.dram.mem ∧
    u.rt.mgmt.lifecycle = s.rt.mgmt.lifecycle
  (∀ (t : Time) (low : Nat) (s : State), low < 100 → exec (.porstNAssert t low) s = .next (s.advance t)) ∧
  (∀ (t : Time) (low : Nat) (s : State), 1000 ≤ low → ∃ u, exec (.porstNAssert t low) s = .next u ∧ u.boot.phase = .held ∧
    u.senak.ready = false ∧ u.rt.dram.mem = [] ∧ u.rt.mgmt.rollback = s.rt.mgmt.rollback ∧ u.hostMem = s.hostMem) ∧
  (∀ (t : Time) (b : ColdBoot) (s : State), s.boot.phase = .held → s.rt.power.state ≠ 4 → ∃ u, exec (.porstNRelease t b) s = .next u ∧
    u.boot.lastReset = (if s.rt.mgmt.tripped.isSome then 6 else 0) ∧ u.boot.cfgCode = b.cfgCode.val ∧ u.senak.pcie.held = !b.perstHigh ∧
    u.boot.coldResets = Nat.min 4294967295 (s.boot.coldResets + 1)) ∧
  (∀ (t : Time) (b : ColdBoot) (s : State), s.boot.phase ≠ .held → exec (.porstNRelease t b) s = .next (s.advance t)) ∧
  (∀ (t : Time) (low : Nat) (s : State), taken s → 1000 ≤ low → ∃ u, exec (.wrstNAssert t low) s = .next u ∧ u.boot.phase = .warmHeld ∧
    u.senak.ready = false) ∧
  (∀ (t : Time) (low : Nat) (s : State), ¬ taken s ∨ low < 100 → exec (.wrstNAssert t low) s = .next (s.advance t)) ∧
  (∀ (t : Time) (ok : Bool) (s : State), s.boot.phase = .warmHeld → s.boot.readyOnce = true → ∃ u, exec (.wrstNRelease t ok) s = .next u ∧
    u.boot.lastReset = 1 ∧ u.boot.warmResets = Nat.min 4294967295 (s.boot.warmResets + 1)) ∧
  (∀ (t : Time) (ok : Bool) (s : State), s.boot.phase ≠ .warmHeld → exec (.wrstNRelease t ok) s = .next (s.advance t)) ∧
  (∀ (t e : Time) (s : State), s.senak.resetAt = some (1, e) → e ≤ (s.advance t).up → ∃ u, exec (.sysResetDelayExpiry t) s = .next u ∧
    cold 3 s u) ∧
  (∀ (t e : Time) (k : Nat) (s : State), s.senak.resetAt = some (k, e) → k ≠ 1 → e ≤ (s.advance t).up → s.boot.readyOnce = true →
    ∃ u, exec (.sysResetDelayExpiry t) s = .next u ∧ warm 2 s u) ∧
  (∀ (t : Time) (s : State), (s.senak.resetAt = none ∨ ∃ k e, s.senak.resetAt = some (k, e) ∧ (s.advance t).up < e) →
    exec (.sysResetDelayExpiry t) s = .next (s.advance t)) ∧
  (∀ (t : Time) (s : State), taken s → s.boot.phase ≠ .warmHeld → ∃ u, exec (.watchdogExpiry t) s = .next u ∧
    (if s.boot.readyOnce then warm 4 s u else cold 4 s u)) ∧
  (∀ (t : Time) (s : State), ¬ taken s → exec (.watchdogExpiry t) s = .next (s.advance t)) ∧
  -- PCI Express
  (∀ (t : Time) (s : State), ∃ u, exec (.perstNAssert t) s = .next u ∧ u.senak.pcie.held = true ∧ u.senak.pcie.linkUp = false ∧
    (runs s → u.senak.ready = false)) ∧
  (∀ (t : Time) (s : State), s.rt.power.state ≠ 3 → exec (.perstNRelease t) s = .next ((s.advance t).modPcie fun p => { p with held := false })) ∧
  (∀ (t : Time) (s : State), s.rt.power.state = 3 → ∃ u, exec (.perstNRelease t) s = .next u ∧ u.rt.power.state = 0 ∧
    u.senak.pcie.held = false ∧ u.senak.ready = true) ∧
  (∀ (t : Time) (s : State), s.senak.pcie.linkUp = true → runs s → s.boot.phase = .running →
    bit s.rt.mgmt.config.pcieActions 1 = false → (∀ p ∈ s.senak.pending, p.code ≠ 0x0B04) →
    ∃ u, exec (.pcieHotReset t) s = .next u ∧ u.senak.ready = false ∧ u.boot.endpointOnly = true ∧ u.senak.slots = [] ∧
      u.boot.endpointResets = Nat.min 4294967295 (s.boot.endpointResets + 1) ∧ u.gens.active = s.gens.active ∧ u.rt.dram.mem = s.rt.dram.mem) ∧
  (∀ (t : Time) (s : State), s.senak.pcie.linkUp = false → exec (.pcieHotReset t) s = .next (s.advance t)) ∧
  (∀ (t : Time) (s : State), s.senak.pcie.linkUp = true → ∃ u, exec (.pcieLinkDown t) s = .next u ∧ u.senak.pcie.linkUp = false ∧
    (runs s → u.senak.ready = false)) ∧
  (∀ (t : Time) (s : State), s.senak.pcie.linkUp = false → exec (.pcieLinkDown t) s = .next (s.advance t)) ∧
  (∀ (t : Time) (rate width : Nat) (s : State), s.boot.phase ≠ .held → s.senak.pcie.held = false → s.rt.power.state ≠ 3 → s.rt.power.state ≠ 4 →
    mhas s.rt.power.unlocked 7 = false → 8 ≤ rate → 8 ≤ width →
    ∃ u, exec (.pcieLinkUp t rate width) s = .next u ∧ u.senak.pcie.linkUp = true ∧ u.senak.pcie.rate = rate ∧
      u.senak.pcie.width = Nat.min width (if bit s.boot.band 2 then 16 else 8)) ∧
  (∀ (t : Time) (rate width : Nat) (s : State), s.boot.phase ≠ .held → s.senak.pcie.held = false → s.rt.power.state ≠ 3 → s.rt.power.state ≠ 4 →
    rate < 8 ∨ width < 8 → ∃ u, exec (.pcieLinkUp t rate width) s = .next u ∧ u.senak.pcie.linkUp = false) ∧
  -- the OTP, the units' tests, and READY
  (∀ (t : Time) (w : Bool) (s : State), s.boot.phase = .booting w → s.boot.otpLoaded = false → s.boot.otpFailures < 3 →
    s.boot.causes.getLsbD 0 = false →
    ∃ u, exec (.otpLoadEnd t true) s = .next u ∧ u.boot.otpLoaded = true ∧ u.boot.otpFailures = 0) ∧
  (∀ (t : Time) (w : Bool) (s : State), s.boot.phase = .booting w → s.boot.otpLoaded = false → s.boot.otpFailures < 3 →
    s.boot.causes.getLsbD 0 = false →
    ∃ u, exec (.otpLoadEnd t false) s = .next u ∧ u.boot.otpLoaded = false ∧ u.boot.otpFailures = s.boot.otpFailures + 1 ∧
      (s.boot.otpFailures = 2 → u.boot.causes.getLsbD 0 = true)) ∧
  (∀ (t : Time) (b : Fin 36) (r : UnitTest) (s : State), s.rt.mgmt.lifecycle ≠ 4 → isUnit b.val r.site.val = true →
    s.boot.phase = .booting false → s.unusable b.val r.site.val = false → mget s.rt.test.reports (b.val * 256 + r.site.val) = none → r.result = 0 →
    ∃ u x, exec (.bootSelftestUnitEnd t b r) s = .next u ∧ mget u.rt.test.reports (b.val * 256 + r.site.val) = some x ∧
      x.result = 0 ∧ x.origin = 1 ∧ x.signature = x.expected ∧ u.rt.test.health = s.rt.test.health) ∧
  (∀ (t : Time) (b : Fin 36) (r : UnitTest) (s : State), s.rt.mgmt.lifecycle = 4 → exec (.bootSelftestUnitEnd t b r) s = .next (s.advance t)) ∧
  (∀ (t : Time) (s : State), s.boot.phase = .booting false → s.boot.otpLoaded = true → s.boot.trained = true → s.boot.waitRefclk = false →
    ∃ u, exec (.deviceReady t) s = .next u ∧ u.senak.ready = true ∧ u.boot.phase = .running ∧ u.boot.readyOnce = true ∧
      u.senak.safeBoot = (s.boot.causes != 0)) ∧
  (∀ (t : Time) (s : State), s.boot.phase = .booting true → s.boot.otpLoaded = true → s.boot.waitRefclk = false →
    ∃ u, exec (.deviceReady t) s = .next u ∧ u.senak.ready = true ∧ u.boot.phase = .running ∧ u.gens.reactivate = (s.boot.causes == 0)) ∧
  (∀ (t : Time) (s : State), s.boot.phase = .running → s.boot.endpointOnly = true → s.senak.pcie.held = false →
    ∃ u, exec (.deviceReady t) s = .next u ∧ u.senak.ready = true ∧ u.boot.endpointOnly = false ∧ u.boot.lastReset = 5) ∧
  (∀ (t : Time) (s : State), s.boot.phase = .held → exec (.deviceReady t) s = .next (s.advance t)) ∧
  (∀ (t since : Time) (b : Fin 36) (s : State), mget s.boot.pendingRelease b.val = some since → clocked s b.val = true →
    ∃ u, exec (.blockRelease t b) s = .next u ∧ u.boot.inReset = s.boot.inReset &&& ~~~(1#36 <<< b.val) ∧
      mget u.boot.pendingRelease b.val = none) ∧
  (∀ (t : Time) (b : Fin 36) (s : State), mget s.boot.pendingRelease b.val = none → exec (.blockRelease t b) s = .next (s.advance t)) ∧
  (∀ (t : Time) (b : Fin 36) (p : PendingCmd) (s : State), s.domainReady b.val = true → mget s.boot.pendingRelease b.val = none →
    s.senak.pending = [p] → p.code = 0x1302 → p.obj = b.val → ∃ u, exec (.blockResetDone t b) s = .next u ∧ u.senak.pending = []) ∧
  (∀ (t : Time) (b : Fin 36) (s : State), s.domainReady b.val = false → exec (.blockResetDone t b) s = .next (s.advance t)) ∧
  -- trials and recovery
  (∀ (t : Time) (s : State), s.boot.phase = .booting false → s.rt.mgmt.asTrial = true → s.boot.uzoganAt + 5 * tS ≤ (s.advance t).up →
    s.rt.mgmt.slotValid s.rt.mgmt.config.confirmed = true → ∃ u, exec (.trialReadyTimeout t) s = .next u ∧
      u.rt.mgmt.running = s.rt.mgmt.config.confirmed ∧ u.rt.mgmt.asTrial = false ∧ u.boot.uzoganAt = (s.advance t).up) ∧
  (∀ (t : Time) (s : State), s.boot.phase = .booting false → s.rt.mgmt.asTrial = true → s.boot.uzoganAt + 5 * tS ≤ (s.advance t).up →
    s.rt.mgmt.slotValid s.rt.mgmt.config.confirmed = false → exec (.trialReadyTimeout t) s =
      .next { s.advance t with boot := { s.boot with phase := .recovery } }) ∧
  (∀ (t : Time) (s : State), s.rt.mgmt.asTrial = false → exec (.trialReadyTimeout t) s = .next (s.advance t)) ∧
  (∀ (t : Time) (image : Bytes) (s : State), s.boot.phase = .recovery →
    let x := FwSlot.ofImage image
    let taken := x.good = true ∧ s.rt.mgmt.rollback ≤ x.security
    ∃ u, exec (.uartImageReceive t image) s = .next u ∧
      (taken → u.wire.head? = some (.board 1 6) ∧ u.boot.phase = .booting s.boot.readyOnce ∧ u.rt.mgmt.recovered = true ∧
        u.rt.mgmt.image = x) ∧
      (¬ taken → u = { s.advance t with wire := .board 1 0x15 :: s.wire })) ∧
  (∀ (t : Time) (image : Bytes) (s : State), s.boot.phase ≠ .recovery → exec (.uartImageReceive t image) s = .next (s.advance t)) ∧
  (∀ (t : Time) (s : State), exec (.uartRxGapTimeout t) s = .next (s.advance t))

/-- Self-test by command, the health map, firmware writes, voltages and the mirror of the log (R634, R637, R640, R648 to R652, R669). -/
def Obligations.TestAndManagementRows : Prop :=
  let up := fun (s : State) => (s.rt.power.state = 0 ∨ s.rt.power.state = 2) ∧ (s.boot.phase = .running ∨ ∃ w, s.boot.phase = .booting w)
  let waits := fun (s : State) => s.rt.mgmt.log.filter fun e => !e.2.mirrored
  (∀ (t : Time) (b : Fin 16) (site : Fin 9) (r : UnitTest) (x : Nat × Nat) (p : PendingCmd) (s : State),
    let k := b.val * 256 + site.val
    s.rt.test.running = [(k, x)] → s.findPending 0x1400 k = some p → r.site.val = site.val → r.result = 0 →
    ∃ u y, exec (.testRunEnd t (b.castLE (by decide)) [r]) s = .next u ∧ u.rt.test.running = [] ∧
      u.senak.pending = s.senak.pending.erase p ∧ mget u.rt.test.reports k = some y ∧ y.result = 0 ∧ y.origin = 4) ∧
  (∀ (t : Time) (b : Fin 36) (l : List UnitTest) (s : State), s.rt.test.running = [] → exec (.testRunEnd t b l) s = .next (s.advance t)) ∧
  (∀ (t : Time) (ok : Bool) (s : State), s.rt.test.unwritten = [] → exec (.healthMapWrite t ok) s = .next (s.advance t)) ∧
  (∀ (t : Time) (s : State), s.rt.test.unwritten ≠ [] → ∃ u, exec (.healthMapWrite t true) s = .next u ∧ u.rt.test.unwritten = [] ∧
    u.rt.mgmt.config.health = s.rt.test.health) ∧
  (∀ (t : Time) (s : State), s.rt.test.unwritten ≠ [] →
    exec (.healthMapWrite t false) s = .next ((s.advance t).post 0x1482 3 0 s.rt.test.unwritten.length)) ∧
  -- an image goes into its slot where its header and signature verify and its security version is not below the fuses
  (∀ (t : Time) (w : Fin 2) (p : PendingCmd) (s : State), s.findPending 0x1504 w.val = some p →
    (u8 p.params 1 ≠ 0 ∨ 0 < s.rt.dram.fitted) →
    let x := FwSlot.ofImage (fwSource p.params (s.advance t))
    let taken := x.good = true ∧ s.rt.mgmt.rollback ≤ x.security
    ∃ u v, exec (.fwWriteDone t w true) s = .next u ∧ exec (.fwWriteDone t w false) s = .next v ∧
      u.senak.pending = s.senak.pending.erase p ∧ v.senak.pending = s.senak.pending.erase p ∧
      (taken → u.rt.mgmt.slots = mset s.rt.mgmt.slots p.obj x ∧ v.rt.mgmt.slots = mset s.rt.mgmt.slots p.obj { x with good := false }) ∧
      (¬ taken → u.rt.mgmt.slots = s.rt.mgmt.slots)) ∧
  (∀ (t : Time) (w : Fin 2) (back : Bool) (p : PendingCmd) (s : State), s.findPending 0x1504 w.val = some p →
    let x := FwSlot.ofImage (fwSource p.params (s.advance t))
    (x.good = false ∨ x.security < s.rt.mgmt.rollback) → ∃ u, exec (.fwWriteDone t w back) s = .next u ∧
      u.rt.mgmt.slots = s.rt.mgmt.slots ∧ u.senak.pending = s.senak.pending.erase p) ∧
  (∀ (t : Time) (w : Fin 2) (back : Bool) (s : State), s.findPending 0x1504 w.val = none →
    exec (.fwWriteDone t w back) s = .next (s.advance t)) ∧
  -- monitor 0, the core voltage: out after 3 samples outside its window, in after 3 at least 10 mV inside
  (∀ (t : Time) (mv : Nat) (s : State), up s → s.rt.power.volt = none → s.rt.power.state = 0 →
    let m := mgetD s.rt.mgmt.monitors 0 {}
    let v := coreMv s.rt.power.point
    let outside := mv + 40 < v ∨ v + 40 < mv
    let inside := v ≤ mv + 30 ∧ mv ≤ v + 30
    ∃ u, exec (.voltageSample t [mv]) s = .next u ∧ u.rt.power.vddCore = mv ∧
      mget u.rt.mgmt.monitors 0 = some {
        mv := mv, bad := if outside then m.bad + 1 else 0, good := if inside then m.good + 1 else 0
        out := if m.out then !(inside ∧ 2 ≤ m.good) else decide (outside ∧ 2 ≤ m.bad) }) ∧
  (∀ (t : Time) (l : List Nat) (s : State), ¬ up s → exec (.voltageSample t l) s = .next (s.advance t)) ∧
  (∀ (t : Time) (s : State), up s → s.rt.mgmt.mirrorFailing = false → s.rt.mgmt.flashHeld = false → 128 ≤ (waits s).length →
    ∃ u, exec (.logMirrorWrite t true) s = .next u ∧ (∀ e ∈ u.rt.mgmt.log, e.2.mirrored = true) ∧ u.rt.mgmt.mirrorFailing = false ∧
      u.rt.mgmt.log.map (·.2.event) = s.rt.mgmt.log.map (·.2.event)) ∧
  (∀ (t : Time) (s : State), up s → s.rt.mgmt.mirrorFailing = false → s.rt.mgmt.flashHeld = false → 128 ≤ (waits s).length →
    ∃ u, exec (.logMirrorWrite t false) s = .next u ∧ u.rt.mgmt.mirrorFailing = true ∧ u.rt.mgmt.mirrorFailAt = (s.advance t).up) ∧
  (∀ (t : Time) (ok : Bool) (s : State), waits s = [] → exec (.logMirrorWrite t ok) s = .next (s.advance t)) ∧
  (∀ (t : Time) (s : State), up s → s.rt.mgmt.mirrorFailing = true → s.rt.mgmt.mirrorFailAt + 10 * tS ≤ (s.advance t).up →
    ∃ u, exec (.logMirrorRetry t true) s = .next u ∧ (∀ e ∈ u.rt.mgmt.log, e.2.mirrored = true) ∧ u.rt.mgmt.mirrorFailing = false) ∧
  (∀ (t : Time) (ok : Bool) (s : State), s.rt.mgmt.mirrorFailing = false → exec (.logMirrorRetry t ok) s = .next (s.advance t))

/-- Lines, the switch and protection (R469 to R490): settings take effect at a tick boundary, framers take their bits, an internal frame leaves
with its octets, a page error idles its output until it is rewritten, and pairs align, switch, restore and are judged each second. -/
def Obligations.TdmRows : Prop :=
  let on := fun (s : State) (p : Nat) => tdmReady s = true ∧ u8 (sdhOn s p) 1 ≠ 0
  let pair := fun (s : State) (w : Nat) => mgetD s.rt.tdm.pairs w {}
  (∀ (t : Time) (e : Nat) (b : Bytes) (s : State), (s.advance t).now % tMs = 0 → e < 0x10000 → s.rt.tdm.waiting = [(e, b)] →
    ∃ u, exec (.lineSettingApply t) s = .next u ∧ u.rt.tdm.waiting = [] ∧ (u.line e).block = b) ∧
  (∀ (t : Time) (s : State), (s.advance t).now % tMs ≠ 0 → exec (.lineSettingApply t) s = .next (s.advance t)) ∧
  -- an SDH port
  (∀ (t : Time) (p : Fin 4) (f : SdhFrame) (x : Nat) (s : State), on s p.val → (s.sdhPort p.val).position = none →
    (s.sdhPort p.val).candidate = none → f.patterns = [x] → ∃ u, exec (.sdhFrameReceive t p f) s = .next u ∧
      (u.sdhPort p.val).candidate = some x ∧ (u.sdhPort p.val).position = none ∧ (u.sdhPort p.val).silent = false) ∧
  (∀ (t : Time) (p : Fin 4) (f : SdhFrame) (x : Nat) (s : State), on s p.val → (s.sdhPort p.val).position = none →
    (s.sdhPort p.val).candidate = some x → x ∈ f.patterns → ∃ u, exec (.sdhFrameReceive t p f) s = .next u ∧
      (u.sdhPort p.val).position = some x ∧ (u.sdhPort p.val).turned = (s.advance t).up) ∧
  (∀ (t : Time) (p : Fin 4) (f : SdhFrame) (x : Nat) (s : State), on s p.val → (s.sdhPort p.val).position = some x →
    x ∉ f.patterns → ∃ u, exec (.sdhFrameReceive t p f) s = .next u ∧
      (u.sdhPort p.val).position = if (s.sdhPort p.val).errored + 1 < 4 then some x else none) ∧
  (∀ (t : Time) (p : Fin 4) (f : SdhFrame) (s : State), ¬ on s p.val → exec (.sdhFrameReceive t p f) s = .next (s.advance t)) ∧
  (∀ (t : Time) (p : Fin 4) (s : State), on s p.val → ∃ u, exec (.sdhTransitionLoss t p) s = .next u ∧ (u.sdhPort p.val).silent = true ∧
    defect u (sdhLine p.val) 0 = true) ∧
  (∀ (t : Time) (p : Fin 4) (s : State), ¬ on s p.val → exec (.sdhTransitionLoss t p) s = .next (s.advance t)) ∧
  -- E1 and T1 lines
  (∀ (t : Time) (e : Fin 1024) (p : Nat) (v : BitVec 256) (s : State), tdmReady s = true → kindOf s e.val = 3 → e.val < 1008 →
    protects s.gens.active e.val = false → tribFails s (pathOf s e.val) = [] → defect s e.val 0 = false →
    transparentPeer s.gens.active e.val = some p → mget s.gens.active.prots p = none →
    exec (.e1FrameReceive t e v) s = .next ((s.advance t).emit (.bits p v))) ∧
  -- what comes from a port leaves on both TRIBs of a pair (R481)
  (∀ (t : Time) (e : Fin 1024) (p : Nat) (b : Bytes) (v : BitVec 256) (s : State), tdmReady s = true → kindOf s e.val = 3 → 1008 ≤ e.val →
    protects s.gens.active e.val = false → (s.line e.val).losIn = false → defect s e.val 0 = false →
    transparentPeer s.gens.active e.val = some p → mget s.gens.active.prots p = some b →
    ∃ u, exec (.e1FrameReceive t e v) s = .next u ∧ .bits p v ∈ u.wire ∧ .bits (u16 b 2) v ∈ u.wire) ∧
  (∀ (t : Time) (e : Fin 1024) (v : BitVec 256) (s : State), tdmReady s = true → kindOf s e.val = 1 →
    ∃ u, exec (.e1FrameReceive t e v) s = .next u ∧ ∀ j, j ≠ e.val → u.line j = s.line j) ∧
  (∀ (t : Time) (e : Fin 1024) (v : BitVec 256) (s : State), tdmReady s = false ∨ kindOf s e.val = 0 ∨ protects s.gens.active e.val = true →
    exec (.e1FrameReceive t e v) s = .next (s.advance t)) ∧
  (∀ (t : Time) (n : Fin 16) (v : BitVec 193) (s : State), tdmReady s = true → kindOf s (1008 + n.val) = 2 →
    ∃ u, exec (.t1FrameReceive t n v) s = .next u ∧ (u.line (1008 + n.val)).hist = (v :: (s.line (1008 + n.val)).hist).take 48 ∧
      ∀ j, j ≠ 1008 + n.val → u.line j = s.line j) ∧
  (∀ (t : Time) (n : Fin 16) (v : BitVec 193) (s : State), tdmReady s = false ∨ kindOf s (1008 + n.val) ≠ 2 →
    exec (.t1FrameReceive t n v) s = .next (s.advance t)) ∧
  (∀ (t : Time) (e : Fin 1024) (s : State), kindOf s e.val = 1 → framing s e.val 0 = true → (s.line e.val).phase = 3 →
    (s.line e.val).mf = none →
    ((s.line e.val).alignedAt + 8 * tMs ≤ (s.advance t).up → ∃ u, exec (.crc4MultiframeTimeout t e) s = .next u ∧
      (u.line e.val).phase = 0 ∧ defect u e.val 19 = true) ∧
    ((s.advance t).up < (s.line e.val).alignedAt + 8 * tMs → exec (.crc4MultiframeTimeout t e) s = .next (s.advance t))) ∧
  (∀ (t : Time) (l : Fin 20) (x : Bool) (s : State), ∃ u, exec (.losInput t l x) s = .next u ∧
    if l.val < 4 then (u.sdhPort l.val).losIn = x else (u.line (1004 + l.val)).losIn = x) ∧
  -- the switch
  (∀ (t : Time) (s : State), tdmReady s = true → (s.advance t).now % (125 * tUs) = 0 → (mkeys s.rt.tdm.lines).Pairwise (· < ·) →
    ∃ u o c, exec (.tdmInternalFrame t) s = .next u ∧
    .tdm ((s.advance t).now / (125 * tUs)) o c ∈ u.wire ∧
    o.map (·.1) = (framedSlots s).flatMap fun ts => (carriers s.gens.active (ts / 32)).map fun e => 32 * e + ts % 32) ∧
  (∀ (t : Time) (s : State), tdmReady s = false ∨ (s.advance t).now % (125 * tUs) ≠ 0 → exec (.tdmInternalFrame t) s = .next (s.advance t)) ∧
  (∀ (t : Time) (s : State), exec (.tdmMemoryError t .corrected) s = .next ((s.advance t).modTdm fun x => { x with corrected := x.corrected + 1 })) ∧
  (∀ (t : Time) (ts : Fin 32768) (s : State), ∃ u w, exec (.tdmMemoryError t (.page ts)) s = .next u ∧
    u.rt.tdm.bad = mset s.rt.tdm.bad ts.val w ∧ (s.advance t).up ≤ w ∧ w ≤ (s.advance t).up + tMs ∧
    (∀ k, (s.advance t).up < w → outOctet u k ts.val = idleOctet u ts.val)) ∧
  (∀ (t : Time) (e : Fin 1024) (l : List (Bytes × Time × Bool)) (f : Bytes × Time × Bool) (s : State), (s.line e.val).store = l ++ [f] →
    ∃ u, exec (.tdmMemoryError t (.slip e)) s = .next u ∧ (u.line e.val).store = l ++ [(f.1, f.2.1, true)]) ∧
  -- protection
  -- (R482) the one offset at which 4 consecutive multiframes of the paths are identical aligns an unaligned pair; three failed checks of an
  -- aligned one end its alignment
  (∀ (t : Time) (w : Fin 1008) (a b : List Bytes) (s : State), mhas s.gens.active.prots w.val = true → (pair s w.val).aligned = none →
    (∀ x, (pair s w.val).searched = some x → x + 100 * tMs ≤ (s.advance t).up) →
    (∀ x, matchOffsets a b = [x] → ∃ u, exec (.protAlignSearch t w ⟨a, b⟩) s = .next u ∧
      (pair u w.val).aligned = some x ∧ defect u (pairLine w.val) 28 = false) ∧
    ((matchOffsets a b).length ≠ 1 → ∃ u, exec (.protAlignSearch t w ⟨a, b⟩) s = .next u ∧
      (pair u w.val).aligned = none ∧ defect u (pairLine w.val) 28 = true ∧ (pair u w.val).searched = some (s.advance t).up)) ∧
  (∀ (a b : List Bytes) (x : Int), x ∈ matchOffsets a b ↔ -32 ≤ x ∧ x ≤ 32 ∧
    ∃ p q rest1 rest2, a = p ++ rest1 ∧ p.length = x.toNat ∧ b = q ++ rest2 ∧ q.length = (-x).toNat ∧ 4 ≤ rest1.length ∧
      rest1.take 4 = rest2.take 4) ∧
  (∀ (t : Time) (w : Fin 1008) (a b : List Bytes) (s : State),
    mhas s.gens.active.prots w.val = false ∨ (∃ x, (pair s w.val).aligned = some x) ∨
      (∃ x, (pair s w.val).searched = some x ∧ (s.advance t).up < x + 100 * tMs) →
    exec (.protAlignSearch t w ⟨a, b⟩) s = .next (s.advance t)) ∧
  (∀ (t : Time) (w : Fin 1008) (a b : List Bytes) (x : Int) (s : State), mhas s.gens.active.prots w.val = true →
    (pair s w.val).aligned = some x → (pair s w.val).checked + tS ≤ (s.advance t).up →
    ∃ u, exec (.protAlignRecheck t w ⟨a, b⟩) s = .next u ∧
      if matchesAt a b x = true then (pair u w.val).failedChecks = 0 ∧ (pair u w.val).aligned = some x
      else if (pair s w.val).failedChecks + 1 < 3 then
        (pair u w.val).failedChecks = (pair s w.val).failedChecks + 1 ∧ (pair u w.val).aligned = some x
      else (pair u w.val).aligned = none ∧ defect u (pairLine w.val) 28 = true) ∧
  (∀ (t : Time) (w : Fin 1008) (a b : List Bytes) (s : State), (s.advance t).up < (pair s w.val).checked + tS →
    exec (.protAlignRecheck t w ⟨a, b⟩) s = .next (s.advance t)) ∧
  (∀ (t a : Time) (w : Fin 1008) (b : Bytes) (l : List (Option Time)) (s : State), mget s.gens.active.prots w.val = some b →
    tribFails s w.val ≠ [] → (pair s w.val).since = some a :: l → a + u16 b 8 * 100 * tMs ≤ (s.advance t).up →
    ∃ u, exec (.protHoldoffExpiry t w) s = .next u ∧ (pair u w.val).acts.head? = some true) ∧
  (∀ (t : Time) (w : Fin 1008) (s : State), mget s.gens.active.prots w.val = none →
    exec (.protHoldoffExpiry t w) s = .next (s.advance t)) ∧
  (∀ (t e : Time) (w : Fin 1008) (s : State), mhas s.gens.active.prots w.val = true → (pair s w.val).restore = some e →
    (e ≤ (s.advance t).up → ∃ u, exec (.waitToRestoreExpiry t w) s = .next u ∧ (pair u w.val).restore = none) ∧
    ((s.advance t).up < e → exec (.waitToRestoreExpiry t w) s = .next (s.advance t))) ∧
  (∀ (t : Time) (s : State), (s.advance t).now % tS = 0 → ∃ u, exec (.sdSecond t) s = .next u ∧ u.rt.tdm.errored = [] ∧
    u.rt.tdm.lines = s.rt.tdm.lines) ∧
  (∀ (t : Time) (s : State), (s.advance t).now % tS ≠ 0 → exec (.sdSecond t) s = .next (s.advance t)) ∧
  (∀ (t : Time) (s : State), (s.advance t).now % tS = 0 → ∃ u, exec (.tdmCounterLatch t) s = .next u ∧
    u.rt.tdm.latched = u.rt.tdm.counts ∧ u.rt.tdm.second = (s.advance t).now / tS ∧ u.rt.tdm.present = s.rt.tdm.defects ∧
    u.rt.tdm.defects = s.rt.tdm.defects) ∧
  (∀ (t : Time) (s : State), (s.advance t).now % tS ≠ 0 → exec (.tdmCounterLatch t) s = .next (s.advance t))

/-- Ports and their redundancy (R503, R511 to R513): settings take effect at a tick boundary, links go up and down, a supervision frame is
sent each life check interval, silent nodes leave, and faults of a LAN and of a ring are raised once. -/
def Obligations.PortRows : Prop :=
  (∀ (t : Time) (p : Nat) (b : Bytes) (s : State), (s.advance t).atBoundary = true → s.rt.net.portsNext = [(p, b)] → u8 b 1 = s.rt.net.mode p →
    ∃ u, exec (.portSettingApply t) s = .next u ∧ u.rt.net.portsNext = [] ∧ u.rt.net.pairsNext = [] ∧ u.rt.net.classesNext = [] ∧
      u.rt.net.port p = b) ∧
  (∀ (t : Time) (s : State), (s.advance t).atBoundary = false → exec (.portSettingApply t) s = .next (s.advance t)) ∧
  (∀ (t : Time) (p : Fin 4) (s : State), s.rt.net.mode p.val ≠ 0 → s.rt.net.isUp p.val = false → s.rt.power.state = 0 →
    s.domainReady 34 = true → s.boot.inReset.getLsbD 34 = false →
    ∃ u, exec (.linkUpHoldExpiry t p) s = .next u ∧ u.rt.net.isUp p.val = true) ∧
  (∀ (t : Time) (p : Fin 4) (s : State), s.rt.net.mode p.val = 0 ∨ s.rt.net.isUp p.val = true ∨ s.domainReady 34 = false →
    exec (.linkUpHoldExpiry t p) s = .next (s.advance t)) ∧
  (∀ (t : Time) (p c : Fin 4) (s : State), s.rt.net.isUp p.val = true → ∃ u, exec (.linkLoss t p c) s = .next u ∧
    u.rt.net.isUp p.val = false ∧ ∀ j, j ≠ p.val → u.rt.net.isUp j = s.rt.net.isUp j) ∧
  (∀ (t : Time) (p c : Fin 4) (s : State), s.rt.net.isUp p.val = false → c ≠ 2 ∨ s.rt.net.mode p.val = 0 →
    exec (.linkLoss t p c) s = .next (s.advance t)) ∧
  (∀ (t : Time) (p : Fin 4) (s : State), s.rt.net.mode p.val ≠ 0 →
    ∃ u, exec (.linkLoss t p 2) s = .next u ∧ u.rt.net.isUp p.val = false ∧ u.wire.head? = some (.remoteFault p.val)) ∧
  (∀ (t : Time) (i : Fin 2) (s : State), s.rt.net.redundancy (2 * i.val) ≠ 0 → mgetD s.rt.net.supAt i.val 0 + s.rt.net.life i.val ≤ (s.advance t).up →
    ∃ u, exec (.supervisionFrameSend t i) s = .next u ∧ mgetD u.rt.net.supAt i.val 0 = (s.advance t).up ∧
      mgetD u.rt.net.redSeq i.val 0 = (mgetD s.rt.net.redSeq i.val 0 + 1) % 65536) ∧
  (∀ (t : Time) (i : Fin 2) (s : State), s.rt.net.redundancy (2 * i.val) = 0 ∨ (s.advance t).up < mgetD s.rt.net.supAt i.val 0 + s.rt.net.life i.val →
    exec (.supervisionFrameSend t i) s = .next (s.advance t)) ∧
  (∀ (t : Time) (s : State), exec (.nodeEntryAgeOut t) s = .next ((s.advance t).modNet fun n =>
    { n with nodes := n.nodes.filter fun e => decide ((s.advance t).up < e.last + u16 (n.pair e.pair) 8 * tS) })) ∧
  (∀ (p : Fin 4), Happens (fun t => .netLanFault t p)
    (fun s => s.rt.net.redundancy p.val = 1 ∧ p.val ∉ s.rt.net.lanFault ∧
      mgetD s.rt.net.lanHeard p.val 0 + 3 * s.rt.net.life (p.val / 2) ≤ s.rt.time.up)
    (fun s => (s.modNet fun n => { n with lanFault := p.val :: n.lanFault }).post 0x0E83 3 p.val 0)) ∧
  (∀ (i : Fin 2), Happens (fun t => .netRingOpen t i)
    (fun s => s.rt.net.redundancy (2 * i.val) = 2 ∧ i.val ∉ s.rt.net.ringOpen ∧
      mgetD s.rt.net.ownHeard i.val 0 + 3 * s.rt.net.life i.val ≤ s.rt.time.up)
    (fun s => (s.modNet fun n => { n with ringOpen := i.val :: n.ringOpen }).post 0x0E84 3 i.val 0))
end

