-- ==== Sys2Proof/Laws/Map.lean ====
section
/-! SUPPORT. What a finite map answers after each of its operations. -/

namespace Sys2Proof.Laws

open Sys2Proof.Machine

variable {α : Type}

@[simp] theorem mget_mset_self (m : Map α) (i : Nat) (x : α) : mget (mset m i x) i = some x := by
  induction m with
  | nil => simp [mset, mget]
  | cons c m ih =>
    obtain ⟨k, v⟩ := c
    simp only [mset]
    split
    · simp [mget]
    · split
      · simp [mget]
      · rename_i h
        simp [mget, Ne.symm h, ih]

/-- A lookup at another key after a setting. -/
theorem mget_mset_ne (m : Map α) {i j : Nat} (x : α) (h : j ≠ i) : mget (mset m i x) j = mget m j := by
  induction m with
  | nil => simp [mset, mget, Ne.symm h]
  | cons c m ih =>
    obtain ⟨k, v⟩ := c
    simp only [mset]
    split
    · simp [mget, Ne.symm h]
    · split
      · rename_i e
        subst e
        simp [mget, Ne.symm h]
      · simp only [mget, ih]

theorem mget_mset (m : Map α) (i j : Nat) (x : α) : mget (mset m i x) j = if j = i then some x else mget m j := by
  split
  · rename_i h; rw [h, mget_mset_self]
  · rename_i h; exact mget_mset_ne m x h

@[simp] theorem mgetD_mset_self (m : Map α) (i : Nat) (x d : α) : mgetD (mset m i x) i d = x := by simp [mgetD]

theorem mgetD_mset_ne (m : Map α) {i j : Nat} (x d : α) (h : j ≠ i) : mgetD (mset m i x) j d = mgetD m j d := by
  simp [mgetD, mget_mset_ne m x h]

@[simp] theorem mget_mmod_self (m : Map α) (i : Nat) (d : α) (f : α → α) : mget (mmod m i d f) i = some (f (mgetD m i d)) := by
  simp [mmod]

theorem mget_mmod_ne (m : Map α) {i j : Nat} (d : α) (f : α → α) (h : j ≠ i) : mget (mmod m i d f) j = mget m j := by
  simp [mmod, mget_mset_ne _ _ h]

@[simp] theorem mgetD_mmod_self (m : Map α) (i : Nat) (d e : α) (f : α → α) : mgetD (mmod m i d f) i e = f (mgetD m i d) := by
  simp [mgetD, mmod]

theorem mgetD_mmod_ne (m : Map α) {i j : Nat} (d e : α) (f : α → α) (h : j ≠ i) : mgetD (mmod m i d f) j e = mgetD m j e := by
  simp [mgetD, mget_mmod_ne _ _ _ h]

@[simp] theorem mget_mdel_self (m : Map α) (i : Nat) : mget (mdel m i) i = none := by
  induction m with
  | nil => rfl
  | cons c m ih =>
    obtain ⟨k, v⟩ := c
    by_cases h : k = i
    · simpa [mdel, h] using ih
    · simpa [mdel, h, mget] using ih

theorem mget_mdel_ne (m : Map α) {i j : Nat} (h : j ≠ i) : mget (mdel m i) j = mget m j := by
  induction m with
  | nil => rfl
  | cons c m ih =>
    obtain ⟨k, v⟩ := c
    unfold mdel at ih ⊢
    by_cases e : k = i
    · subst e
      simpa [mget, Ne.symm h] using ih
    · simp [e, mget, ih]

@[simp] theorem mgetD_mdel_self (m : Map α) (i : Nat) (d : α) : mgetD (mdel m i) i d = d := by simp [mgetD]

theorem mget_mupd (m : Map α) (i j : Nat) (f : α → α) : mget (mupd m i f) j = if j = i then (mget m i).map f else mget m j := by
  unfold mupd
  cases h : mget m i with
  | none => split <;> simp_all
  | some v => simp [mget_mset]

theorem mgetD_mupd_self (m : Map α) (i : Nat) (d : α) (f : α → α) (h : mhas m i = true) : mgetD (mupd m i f) i d = f (mgetD m i d) := by
  simp only [mhas, Option.isSome_iff_exists] at h
  obtain ⟨v, h⟩ := h
  simp [mgetD, mget_mupd, h]

theorem mget_mall {β : Type} (m : Map α) (f : Nat → α → β) (i : Nat) : mget (mall m f) i = (mget m i).map (f i) := by
  induction m with
  | nil => rfl
  | cons c m ih =>
    obtain ⟨k, v⟩ := c
    simp only [mall, List.map, mget]
    split
    · rename_i e; subst e; rfl
    · exact ih

theorem mhas_mset (m : Map α) (i j : Nat) (x : α) : mhas (mset m i x) j = (decide (j = i) || mhas m j) := by
  unfold mhas
  rw [mget_mset]
  split <;> simp_all

end Sys2Proof.Laws
end

