-- ==== Sys2Proof/Laws/Mem.lean ====
section
/-! SUPPORT. Laws of addressed memory: every operation keeps the canonical form, and a read sees the last write. -/

namespace Sys2Proof.Laws

open Sys2Proof.Machine

/-- The tail of a canonical memory is canonical. -/
theorem mem_wf_tail {c : Host.Cell} {m : Mem} (h : Mem.wf (c :: m) = true) : Mem.wf m = true := by
  cases m with
  | nil => rfl
  | cons d m =>
    simp only [Mem.wf, Bool.and_eq_true] at h
    exact h.2

/-- The first entry of a canonical memory is not 0. -/
theorem mem_wf_head {c : Host.Cell} {m : Mem} (h : Mem.wf (c :: m) = true) : c.2 ≠ 0 := by
  cases m with
  | nil => simpa [Mem.wf] using h
  | cons d m =>
    simp only [Mem.wf, Bool.and_eq_true, bne_iff_ne] at h
    exact h.1.1

/-- The first address of a canonical memory lies below the second. -/
theorem mem_wf_lt {c d : Host.Cell} {m : Mem} (h : Mem.wf (c :: d :: m) = true) : c.1 < d.1 := by
  simp only [Mem.wf, Bool.and_eq_true, decide_eq_true_eq] at h
  exact h.1.2

/-- A canonical memory under an entry that is not 0 and lies below all of it is canonical. -/
theorem mem_wf_cons {c : Host.Cell} {m : Mem} (hc : c.2 ≠ 0) (hm : Mem.wf m = true) (hl : ∀ d, m.head? = some d → c.1 < d.1) :
    Mem.wf (c :: m) = true := by
  cases m with
  | nil => simpa [Mem.wf] using hc
  | cons d m =>
    simp only [Mem.wf, Bool.and_eq_true, bne_iff_ne, decide_eq_true_eq]
    exact ⟨⟨hc, hl d rfl⟩, hm⟩

/-- The first entry of a memory after a write is the first entry before it or the written one. -/
theorem memSet_head {m : Mem} {a : Nat} {v : Byte} {d : Host.Cell} (h : (memSet m a v).head? = some d) (hm : Mem.wf m = true) :
    d.1 = a ∨ ∃ e, m.head? = some e ∧ e.1 ≤ d.1 := by
  cases m with
  | nil =>
    simp only [memSet] at h
    split at h
    · cases h
    · simp only [List.head?_cons, Option.some.injEq] at h
      subst h; exact .inl rfl
  | cons c m =>
    obtain ⟨b, w⟩ := c
    simp only [memSet] at h
    split at h
    · split at h <;> simp only [List.head?_cons, Option.some.injEq] at h <;> subst h
      · exact .inr ⟨_, rfl, Nat.le_refl _⟩
      · exact .inl rfl
    · split at h
      · split at h
        · cases m with
          | nil => cases h
          | cons e m =>
            simp only [List.head?_cons, Option.some.injEq] at h
            subst h
            exact .inr ⟨(b, w), rfl, Nat.le_of_lt (mem_wf_lt hm)⟩
        · simp only [List.head?_cons, Option.some.injEq] at h
          subst h; exact .inl rfl
      · simp only [List.head?_cons, Option.some.injEq] at h
        subst h; exact .inr ⟨_, rfl, Nat.le_refl _⟩

/-- A write keeps the canonical form. -/
theorem memSet_wf {m : Mem} (a : Nat) (v : Byte) (hm : Mem.wf m = true) : Mem.wf (memSet m a v) = true := by
  induction m with
  | nil =>
    simp only [memSet]
    split
    · rfl
    · rename_i h
      simpa [Mem.wf] using h
  | cons c m ih =>
    obtain ⟨b, w⟩ := c
    have ht := mem_wf_tail hm
    have hh := mem_wf_head hm
    simp only [memSet]
    split
    · split
      · exact hm
      · rename_i h1 h2
        exact mem_wf_cons h2 hm (by intro d hd; simp only [List.head?_cons, Option.some.injEq] at hd; subst hd; exact h1)
    · split
      · split
        · exact ht
        · rename_i h1 h2 h3
          refine mem_wf_cons h3 ht ?_
          intro d hd
          cases m with
          | nil => cases hd
          | cons e m =>
            simp only [List.head?_cons, Option.some.injEq] at hd
            subst hd
            have := mem_wf_lt hm
            simp only at this ⊢
            omega
      · rename_i h1 h2
        refine mem_wf_cons hh (ih ht) ?_
        intro d hd
        simp only
        rcases memSet_head hd ht with h | ⟨e, he, hle⟩
        · omega
        · cases m with
          | nil => cases he
          | cons x m =>
            simp only [List.head?_cons, Option.some.injEq] at he
            subst he
            have := mem_wf_lt hm
            simp only at this
            omega

/-- A run of writes keeps the canonical form. -/
theorem memWrite_wf {m : Mem} (a : Nat) (l : Bytes) (hm : Mem.wf m = true) : Mem.wf (memWrite m a l) = true := by
  induction l generalizing m a with
  | nil => exact hm
  | cons v l ih => exact ih _ (memSet_wf a v hm)

/-- The addresses of a canonical memory rise. -/
theorem mem_wf_rise {c : Host.Cell} {m : Mem} (h : Mem.wf (c :: m) = true) : ∀ d ∈ m, c.1 < d.1 := by
  induction m generalizing c with
  | nil => intro d hd; cases hd
  | cons e m ih =>
    intro d hd
    have h1 := mem_wf_lt h
    rcases List.mem_cons.1 hd with rfl | hd
    · exact h1
    · exact Nat.lt_trans h1 (ih (mem_wf_tail h) d hd)

/-- A choice of entries keeps the canonical form. -/
theorem mem_filter_wf {m : Mem} (p : Host.Cell → Bool) (hm : Mem.wf m = true) : Mem.wf (m.filter p) = true := by
  induction m with
  | nil => rfl
  | cons c m ih =>
    simp only [List.filter_cons]
    split
    · refine mem_wf_cons (mem_wf_head hm) (ih (mem_wf_tail hm)) ?_
      intro d hd
      exact mem_wf_rise hm d (List.mem_filter.1 (List.mem_of_mem_head? hd)).1
    · exact ih (mem_wf_tail hm)

/-- Clearing a range keeps the canonical form. -/
theorem memClear_wf {m : Mem} (a n : Nat) (hm : Mem.wf m = true) : Mem.wf (memClear m a n) = true := mem_filter_wf _ hm

/-- A read of a listed or unlisted address. -/
theorem memGet_cons (c : Host.Cell) (m : Mem) (a : Nat) : memGet (c :: m) a = if c.1 = a then c.2 else memGet m a := by
  obtain ⟨b, w⟩ := c
  simp only [memGet, mget]
  split <;> rfl

/-- Addresses that no entry has read 0. -/
theorem memGet_below {m : Mem} {a : Nat} (h : ∀ d ∈ m, a < d.1) : memGet m a = 0 := by
  induction m with
  | nil => rfl
  | cons c m ih =>
    have h1 := h c (List.mem_cons_self ..)
    rw [memGet_cons, if_neg (by omega)]
    exact ih fun d hd => h d (List.mem_cons_of_mem _ hd)

/-- A read after a write: the value written at its address, what stood there elsewhere. -/
theorem memGet_memSet {m : Mem} (hm : Mem.wf m = true) (a b : Nat) (v : Byte) :
    memGet (memSet m a v) b = if b = a then v else memGet m b := by
  induction m with
  | nil =>
    simp only [memSet]
    split
    · rename_i h
      split
      · exact h.symm
      · rfl
    · rw [memGet_cons]
      by_cases hb : b = a
      · simp [hb]
      · simp [hb, Ne.symm hb]
  | cons c m ih =>
    obtain ⟨k, w⟩ := c
    have ht := mem_wf_tail hm
    have hr := mem_wf_rise hm
    simp only at hr
    simp only [memSet]
    by_cases h1 : a < k
    · have hz : memGet ((k, w) :: m) a = 0 := memGet_below (by
        intro d hd
        rcases List.mem_cons.1 hd with rfl | hd
        · exact h1
        · exact Nat.lt_trans h1 (hr d hd))
      rw [if_pos h1]
      by_cases hb : b = a
      · subst hb
        by_cases hv : v = 0
        · rw [if_pos hv, if_pos rfl, hz, hv]
        · rw [if_neg hv, memGet_cons]
      · by_cases hv : v = 0
        · rw [if_pos hv, if_neg hb]
        · rw [if_neg hv, if_neg hb, memGet_cons, if_neg (Ne.symm hb)]
    · rw [if_neg h1]
      by_cases h2 : a = k
      · subst h2
        rw [if_pos rfl]
        by_cases hb : b = a
        · subst hb
          by_cases hv : v = 0
          · rw [if_pos hv, if_pos rfl, memGet_below hr, hv]
          · rw [if_neg hv, memGet_cons]
            simp
        · by_cases hv : v = 0
          · rw [if_pos hv, if_neg hb, memGet_cons, if_neg (Ne.symm hb)]
          · rw [if_neg hv, if_neg hb, memGet_cons, memGet_cons, if_neg (Ne.symm hb), if_neg (Ne.symm hb)]
      · rw [if_neg h2, memGet_cons, memGet_cons, ih ht]
        by_cases hk : k = b
        · subst hk
          rw [if_pos rfl, if_pos rfl, if_neg (Ne.symm h2)]
        · rw [if_neg hk, if_neg hk]

/-- A read after a run of writes. -/
theorem memGet_memWrite {m : Mem} (hm : Mem.wf m = true) (a b : Nat) (l : Bytes) :
    memGet (memWrite m a l) b = if a ≤ b ∧ b < a + l.length then l.getD (b - a) 0 else memGet m b := by
  induction l generalizing m a with
  | nil =>
    rw [if_neg (by simp only [List.length_nil]; omega)]
    rfl
  | cons v l ih =>
    rw [memWrite, ih (memSet_wf a v hm), memGet_memSet hm]
    simp only [List.length_cons]
    by_cases h1 : b = a
    · subst h1
      rw [if_neg (by omega), if_pos rfl, if_pos (by omega)]
      simp
    · by_cases h2 : a + 1 ≤ b ∧ b < a + 1 + l.length
      · rw [if_pos h2, if_pos (by omega)]
        have : b - a = (b - (a + 1)) + 1 := by omega
        rw [this, List.getD_cons_succ]
      · rw [if_neg h2, if_neg h1, if_neg (by omega)]

/-- A run of reads, byte by byte. -/
theorem memRead_getD (m : Mem) (a n i : Nat) (h : i < n) : (memRead m a n).getD i 0 = memGet m (a + i) := by
  induction n generalizing a i with
  | zero => omega
  | succ n ih =>
    cases i with
    | zero => rfl
    | succ i =>
      rw [memRead, List.getD_cons_succ, ih _ _ (by omega)]
      congr 1
      omega

@[simp] theorem memRead_length (m : Mem) (a n : Nat) : (memRead m a n).length = n := by
  induction n generalizing a with
  | zero => rfl
  | succ n ih => simp only [memRead, List.length_cons, ih]

/-- A run of bytes just written is read back. -/
theorem memRead_memWrite {m : Mem} (hm : Mem.wf m = true) (a : Nat) (l : Bytes) : memRead (memWrite m a l) a l.length = l := by
  apply List.ext_getElem (by simp)
  intro i h1 h2
  have h3 : i < l.length := h2
  have h := memRead_getD (memWrite m a l) a l.length i h3
  rw [memGet_memWrite hm, if_pos (by omega), show a + i - a = i by omega] at h
  simpa [List.getD, List.getElem?_eq_getElem h1, List.getElem?_eq_getElem h3] using h

end Sys2Proof.Laws
end

