-- ==== Sys2Proof/Laws/State.lean ====
section
/-! SUPPORT. What each named update of the state leaves and what it writes, field by field, true by unfolding once. -/

namespace Sys2Proof.Laws

open Sys2Proof.Machine

variable (s : State)


/-! modSenak. -/

@[simp] theorem modSenak_pending (f : Senak → Senak) : (s.modSenak f).pending = s.pending := (rfl)
@[simp] theorem modSenak_free (f : Senak → Senak) : (s.modSenak f).free = s.free := (rfl)
@[simp] theorem modSenak_wire (f : Senak → Senak) : (s.modSenak f).wire = s.wire := (rfl)
@[simp] theorem modSenak_gens (f : Senak → Senak) : (s.modSenak f).gens = s.gens := (rfl)
@[simp] theorem modSenak_boot (f : Senak → Senak) : (s.modSenak f).boot = s.boot := (rfl)
@[simp] theorem modSenak_rt (f : Senak → Senak) : (s.modSenak f).rt = s.rt := (rfl)
@[simp] theorem modSenak_latch (f : Senak → Senak) : (s.modSenak f).latch = s.latch := (rfl)
@[simp] theorem modSenak_latchAt (f : Senak → Senak) : (s.modSenak f).latchAt = s.latchAt := (rfl)
@[simp] theorem modSenak_latchStats (f : Senak → Senak) : (s.modSenak f).latchStats = s.latchStats := (rfl)
@[simp] theorem modSenak_snap (f : Senak → Senak) : (s.modSenak f).snap = s.snap := (rfl)
@[simp] theorem modSenak_journal (f : Senak → Senak) : (s.modSenak f).journal = s.journal := (rfl)
@[simp] theorem modSenak_hostMem (f : Senak → Senak) : (s.modSenak f).hostMem = s.hostMem := (rfl)
@[simp] theorem modSenak_own (f : Senak → Senak) : (s.modSenak f).senak = f s.senak := (rfl)

/-! modGens. -/

@[simp] theorem modGens_pending (f : Gens → Gens) : (s.modGens f).pending = s.pending := (rfl)
@[simp] theorem modGens_free (f : Gens → Gens) : (s.modGens f).free = s.free := (rfl)
@[simp] theorem modGens_wire (f : Gens → Gens) : (s.modGens f).wire = s.wire := (rfl)
@[simp] theorem modGens_senak (f : Gens → Gens) : (s.modGens f).senak = s.senak := (rfl)
@[simp] theorem modGens_boot (f : Gens → Gens) : (s.modGens f).boot = s.boot := (rfl)
@[simp] theorem modGens_rt (f : Gens → Gens) : (s.modGens f).rt = s.rt := (rfl)
@[simp] theorem modGens_latch (f : Gens → Gens) : (s.modGens f).latch = s.latch := (rfl)
@[simp] theorem modGens_latchAt (f : Gens → Gens) : (s.modGens f).latchAt = s.latchAt := (rfl)
@[simp] theorem modGens_latchStats (f : Gens → Gens) : (s.modGens f).latchStats = s.latchStats := (rfl)
@[simp] theorem modGens_snap (f : Gens → Gens) : (s.modGens f).snap = s.snap := (rfl)
@[simp] theorem modGens_journal (f : Gens → Gens) : (s.modGens f).journal = s.journal := (rfl)
@[simp] theorem modGens_hostMem (f : Gens → Gens) : (s.modGens f).hostMem = s.hostMem := (rfl)
@[simp] theorem modGens_own (f : Gens → Gens) : (s.modGens f).gens = f s.gens := (rfl)

/-! modBoot. -/

@[simp] theorem modBoot_pending (f : Boot → Boot) : (s.modBoot f).pending = s.pending := (rfl)
@[simp] theorem modBoot_free (f : Boot → Boot) : (s.modBoot f).free = s.free := (rfl)
@[simp] theorem modBoot_wire (f : Boot → Boot) : (s.modBoot f).wire = s.wire := (rfl)
@[simp] theorem modBoot_senak (f : Boot → Boot) : (s.modBoot f).senak = s.senak := (rfl)
@[simp] theorem modBoot_gens (f : Boot → Boot) : (s.modBoot f).gens = s.gens := (rfl)
@[simp] theorem modBoot_rt (f : Boot → Boot) : (s.modBoot f).rt = s.rt := (rfl)
@[simp] theorem modBoot_latch (f : Boot → Boot) : (s.modBoot f).latch = s.latch := (rfl)
@[simp] theorem modBoot_latchAt (f : Boot → Boot) : (s.modBoot f).latchAt = s.latchAt := (rfl)
@[simp] theorem modBoot_latchStats (f : Boot → Boot) : (s.modBoot f).latchStats = s.latchStats := (rfl)
@[simp] theorem modBoot_snap (f : Boot → Boot) : (s.modBoot f).snap = s.snap := (rfl)
@[simp] theorem modBoot_journal (f : Boot → Boot) : (s.modBoot f).journal = s.journal := (rfl)
@[simp] theorem modBoot_hostMem (f : Boot → Boot) : (s.modBoot f).hostMem = s.hostMem := (rfl)
@[simp] theorem modBoot_own (f : Boot → Boot) : (s.modBoot f).boot = f s.boot := (rfl)

/-! modRt. -/

@[simp] theorem modRt_pending (f : Runtime → Runtime) : (s.modRt f).pending = s.pending := (rfl)
@[simp] theorem modRt_free (f : Runtime → Runtime) : (s.modRt f).free = s.free := (rfl)
@[simp] theorem modRt_wire (f : Runtime → Runtime) : (s.modRt f).wire = s.wire := (rfl)
@[simp] theorem modRt_senak (f : Runtime → Runtime) : (s.modRt f).senak = s.senak := (rfl)
@[simp] theorem modRt_gens (f : Runtime → Runtime) : (s.modRt f).gens = s.gens := (rfl)
@[simp] theorem modRt_boot (f : Runtime → Runtime) : (s.modRt f).boot = s.boot := (rfl)
@[simp] theorem modRt_latch (f : Runtime → Runtime) : (s.modRt f).latch = s.latch := (rfl)
@[simp] theorem modRt_latchAt (f : Runtime → Runtime) : (s.modRt f).latchAt = s.latchAt := (rfl)
@[simp] theorem modRt_latchStats (f : Runtime → Runtime) : (s.modRt f).latchStats = s.latchStats := (rfl)
@[simp] theorem modRt_snap (f : Runtime → Runtime) : (s.modRt f).snap = s.snap := (rfl)
@[simp] theorem modRt_journal (f : Runtime → Runtime) : (s.modRt f).journal = s.journal := (rfl)
@[simp] theorem modRt_hostMem (f : Runtime → Runtime) : (s.modRt f).hostMem = s.hostMem := (rfl)
@[simp] theorem modRt_own (f : Runtime → Runtime) : (s.modRt f).rt = f s.rt := (rfl)

/-! modTime. -/

@[simp] theorem modTime_pending (f : TimeBlk → TimeBlk) : (s.modTime f).pending = s.pending := (rfl)
@[simp] theorem modTime_free (f : TimeBlk → TimeBlk) : (s.modTime f).free = s.free := (rfl)
@[simp] theorem modTime_wire (f : TimeBlk → TimeBlk) : (s.modTime f).wire = s.wire := (rfl)
@[simp] theorem modTime_senak (f : TimeBlk → TimeBlk) : (s.modTime f).senak = s.senak := (rfl)
@[simp] theorem modTime_gens (f : TimeBlk → TimeBlk) : (s.modTime f).gens = s.gens := (rfl)
@[simp] theorem modTime_boot (f : TimeBlk → TimeBlk) : (s.modTime f).boot = s.boot := (rfl)
@[simp] theorem modTime_latch (f : TimeBlk → TimeBlk) : (s.modTime f).latch = s.latch := (rfl)
@[simp] theorem modTime_latchAt (f : TimeBlk → TimeBlk) : (s.modTime f).latchAt = s.latchAt := (rfl)
@[simp] theorem modTime_latchStats (f : TimeBlk → TimeBlk) : (s.modTime f).latchStats = s.latchStats := (rfl)
@[simp] theorem modTime_snap (f : TimeBlk → TimeBlk) : (s.modTime f).snap = s.snap := (rfl)
@[simp] theorem modTime_journal (f : TimeBlk → TimeBlk) : (s.modTime f).journal = s.journal := (rfl)
@[simp] theorem modTime_hostMem (f : TimeBlk → TimeBlk) : (s.modTime f).hostMem = s.hostMem := (rfl)
@[simp] theorem modTime_rt_time (f : TimeBlk → TimeBlk) : (s.modTime f).rt.time = f s.rt.time := (rfl)
@[simp] theorem modTime_rt_clover (f : TimeBlk → TimeBlk) : (s.modTime f).rt.clover = s.rt.clover := (rfl)
@[simp] theorem modTime_rt_fault (f : TimeBlk → TimeBlk) : (s.modTime f).rt.fault = s.rt.fault := (rfl)
@[simp] theorem modTime_rt_power (f : TimeBlk → TimeBlk) : (s.modTime f).rt.power = s.rt.power := (rfl)
@[simp] theorem modTime_rt_test (f : TimeBlk → TimeBlk) : (s.modTime f).rt.test = s.rt.test := (rfl)
@[simp] theorem modTime_rt_mgmt (f : TimeBlk → TimeBlk) : (s.modTime f).rt.mgmt = s.rt.mgmt := (rfl)
@[simp] theorem modTime_rt_dram (f : TimeBlk → TimeBlk) : (s.modTime f).rt.dram = s.rt.dram := (rfl)
@[simp] theorem modTime_rt_mallow (f : TimeBlk → TimeBlk) : (s.modTime f).rt.mallow = s.rt.mallow := (rfl)
@[simp] theorem modTime_rt_audio (f : TimeBlk → TimeBlk) : (s.modTime f).rt.audio = s.rt.audio := (rfl)
@[simp] theorem modTime_rt_sec (f : TimeBlk → TimeBlk) : (s.modTime f).rt.sec = s.rt.sec := (rfl)
@[simp] theorem modTime_rt_net (f : TimeBlk → TimeBlk) : (s.modTime f).rt.net = s.rt.net := (rfl)
@[simp] theorem modTime_rt_fwd (f : TimeBlk → TimeBlk) : (s.modTime f).rt.fwd = s.rt.fwd := (rfl)
@[simp] theorem modTime_rt_video (f : TimeBlk → TimeBlk) : (s.modTime f).rt.video = s.rt.video := (rfl)
@[simp] theorem modTime_rt_recorder (f : TimeBlk → TimeBlk) : (s.modTime f).rt.recorder = s.rt.recorder := (rfl)
@[simp] theorem modTime_rt_dsp (f : TimeBlk → TimeBlk) : (s.modTime f).rt.dsp = s.rt.dsp := (rfl)
@[simp] theorem modTime_rt_tdm (f : TimeBlk → TimeBlk) : (s.modTime f).rt.tdm = s.rt.tdm := (rfl)
@[simp] theorem modTime_rt_hsp (f : TimeBlk → TimeBlk) : (s.modTime f).rt.hsp = s.rt.hsp := (rfl)
@[simp] theorem modTime_rt_zip (f : TimeBlk → TimeBlk) : (s.modTime f).rt.zip = s.rt.zip := (rfl)

/-! modClover. -/

@[simp] theorem modClover_pending (f : Clover → Clover) : (s.modClover f).pending = s.pending := (rfl)
@[simp] theorem modClover_free (f : Clover → Clover) : (s.modClover f).free = s.free := (rfl)
@[simp] theorem modClover_wire (f : Clover → Clover) : (s.modClover f).wire = s.wire := (rfl)
@[simp] theorem modClover_senak (f : Clover → Clover) : (s.modClover f).senak = s.senak := (rfl)
@[simp] theorem modClover_gens (f : Clover → Clover) : (s.modClover f).gens = s.gens := (rfl)
@[simp] theorem modClover_boot (f : Clover → Clover) : (s.modClover f).boot = s.boot := (rfl)
@[simp] theorem modClover_latch (f : Clover → Clover) : (s.modClover f).latch = s.latch := (rfl)
@[simp] theorem modClover_latchAt (f : Clover → Clover) : (s.modClover f).latchAt = s.latchAt := (rfl)
@[simp] theorem modClover_latchStats (f : Clover → Clover) : (s.modClover f).latchStats = s.latchStats := (rfl)
@[simp] theorem modClover_snap (f : Clover → Clover) : (s.modClover f).snap = s.snap := (rfl)
@[simp] theorem modClover_journal (f : Clover → Clover) : (s.modClover f).journal = s.journal := (rfl)
@[simp] theorem modClover_hostMem (f : Clover → Clover) : (s.modClover f).hostMem = s.hostMem := (rfl)
@[simp] theorem modClover_rt_time (f : Clover → Clover) : (s.modClover f).rt.time = s.rt.time := (rfl)
@[simp] theorem modClover_rt_clover (f : Clover → Clover) : (s.modClover f).rt.clover = f s.rt.clover := (rfl)
@[simp] theorem modClover_rt_fault (f : Clover → Clover) : (s.modClover f).rt.fault = s.rt.fault := (rfl)
@[simp] theorem modClover_rt_power (f : Clover → Clover) : (s.modClover f).rt.power = s.rt.power := (rfl)
@[simp] theorem modClover_rt_test (f : Clover → Clover) : (s.modClover f).rt.test = s.rt.test := (rfl)
@[simp] theorem modClover_rt_mgmt (f : Clover → Clover) : (s.modClover f).rt.mgmt = s.rt.mgmt := (rfl)
@[simp] theorem modClover_rt_dram (f : Clover → Clover) : (s.modClover f).rt.dram = s.rt.dram := (rfl)
@[simp] theorem modClover_rt_mallow (f : Clover → Clover) : (s.modClover f).rt.mallow = s.rt.mallow := (rfl)
@[simp] theorem modClover_rt_audio (f : Clover → Clover) : (s.modClover f).rt.audio = s.rt.audio := (rfl)
@[simp] theorem modClover_rt_sec (f : Clover → Clover) : (s.modClover f).rt.sec = s.rt.sec := (rfl)
@[simp] theorem modClover_rt_net (f : Clover → Clover) : (s.modClover f).rt.net = s.rt.net := (rfl)
@[simp] theorem modClover_rt_fwd (f : Clover → Clover) : (s.modClover f).rt.fwd = s.rt.fwd := (rfl)
@[simp] theorem modClover_rt_video (f : Clover → Clover) : (s.modClover f).rt.video = s.rt.video := (rfl)
@[simp] theorem modClover_rt_recorder (f : Clover → Clover) : (s.modClover f).rt.recorder = s.rt.recorder := (rfl)
@[simp] theorem modClover_rt_dsp (f : Clover → Clover) : (s.modClover f).rt.dsp = s.rt.dsp := (rfl)
@[simp] theorem modClover_rt_tdm (f : Clover → Clover) : (s.modClover f).rt.tdm = s.rt.tdm := (rfl)
@[simp] theorem modClover_rt_hsp (f : Clover → Clover) : (s.modClover f).rt.hsp = s.rt.hsp := (rfl)
@[simp] theorem modClover_rt_zip (f : Clover → Clover) : (s.modClover f).rt.zip = s.rt.zip := (rfl)

/-! modFault. -/

@[simp] theorem modFault_pending (f : FaultBlk → FaultBlk) : (s.modFault f).pending = s.pending := (rfl)
@[simp] theorem modFault_free (f : FaultBlk → FaultBlk) : (s.modFault f).free = s.free := (rfl)
@[simp] theorem modFault_wire (f : FaultBlk → FaultBlk) : (s.modFault f).wire = s.wire := (rfl)
@[simp] theorem modFault_senak (f : FaultBlk → FaultBlk) : (s.modFault f).senak = s.senak := (rfl)
@[simp] theorem modFault_gens (f : FaultBlk → FaultBlk) : (s.modFault f).gens = s.gens := (rfl)
@[simp] theorem modFault_boot (f : FaultBlk → FaultBlk) : (s.modFault f).boot = s.boot := (rfl)
@[simp] theorem modFault_latch (f : FaultBlk → FaultBlk) : (s.modFault f).latch = s.latch := (rfl)
@[simp] theorem modFault_latchAt (f : FaultBlk → FaultBlk) : (s.modFault f).latchAt = s.latchAt := (rfl)
@[simp] theorem modFault_latchStats (f : FaultBlk → FaultBlk) : (s.modFault f).latchStats = s.latchStats := (rfl)
@[simp] theorem modFault_snap (f : FaultBlk → FaultBlk) : (s.modFault f).snap = s.snap := (rfl)
@[simp] theorem modFault_journal (f : FaultBlk → FaultBlk) : (s.modFault f).journal = s.journal := (rfl)
@[simp] theorem modFault_hostMem (f : FaultBlk → FaultBlk) : (s.modFault f).hostMem = s.hostMem := (rfl)
@[simp] theorem modFault_rt_time (f : FaultBlk → FaultBlk) : (s.modFault f).rt.time = s.rt.time := (rfl)
@[simp] theorem modFault_rt_clover (f : FaultBlk → FaultBlk) : (s.modFault f).rt.clover = s.rt.clover := (rfl)
@[simp] theorem modFault_rt_fault (f : FaultBlk → FaultBlk) : (s.modFault f).rt.fault = f s.rt.fault := (rfl)
@[simp] theorem modFault_rt_power (f : FaultBlk → FaultBlk) : (s.modFault f).rt.power = s.rt.power := (rfl)
@[simp] theorem modFault_rt_test (f : FaultBlk → FaultBlk) : (s.modFault f).rt.test = s.rt.test := (rfl)
@[simp] theorem modFault_rt_mgmt (f : FaultBlk → FaultBlk) : (s.modFault f).rt.mgmt = s.rt.mgmt := (rfl)
@[simp] theorem modFault_rt_dram (f : FaultBlk → FaultBlk) : (s.modFault f).rt.dram = s.rt.dram := (rfl)
@[simp] theorem modFault_rt_mallow (f : FaultBlk → FaultBlk) : (s.modFault f).rt.mallow = s.rt.mallow := (rfl)
@[simp] theorem modFault_rt_audio (f : FaultBlk → FaultBlk) : (s.modFault f).rt.audio = s.rt.audio := (rfl)
@[simp] theorem modFault_rt_sec (f : FaultBlk → FaultBlk) : (s.modFault f).rt.sec = s.rt.sec := (rfl)
@[simp] theorem modFault_rt_net (f : FaultBlk → FaultBlk) : (s.modFault f).rt.net = s.rt.net := (rfl)
@[simp] theorem modFault_rt_fwd (f : FaultBlk → FaultBlk) : (s.modFault f).rt.fwd = s.rt.fwd := (rfl)
@[simp] theorem modFault_rt_video (f : FaultBlk → FaultBlk) : (s.modFault f).rt.video = s.rt.video := (rfl)
@[simp] theorem modFault_rt_recorder (f : FaultBlk → FaultBlk) : (s.modFault f).rt.recorder = s.rt.recorder := (rfl)
@[simp] theorem modFault_rt_dsp (f : FaultBlk → FaultBlk) : (s.modFault f).rt.dsp = s.rt.dsp := (rfl)
@[simp] theorem modFault_rt_tdm (f : FaultBlk → FaultBlk) : (s.modFault f).rt.tdm = s.rt.tdm := (rfl)
@[simp] theorem modFault_rt_hsp (f : FaultBlk → FaultBlk) : (s.modFault f).rt.hsp = s.rt.hsp := (rfl)
@[simp] theorem modFault_rt_zip (f : FaultBlk → FaultBlk) : (s.modFault f).rt.zip = s.rt.zip := (rfl)

/-! modPower. -/

@[simp] theorem modPower_pending (f : Power → Power) : (s.modPower f).pending = s.pending := (rfl)
@[simp] theorem modPower_free (f : Power → Power) : (s.modPower f).free = s.free := (rfl)
@[simp] theorem modPower_wire (f : Power → Power) : (s.modPower f).wire = s.wire := (rfl)
@[simp] theorem modPower_senak (f : Power → Power) : (s.modPower f).senak = s.senak := (rfl)
@[simp] theorem modPower_gens (f : Power → Power) : (s.modPower f).gens = s.gens := (rfl)
@[simp] theorem modPower_boot (f : Power → Power) : (s.modPower f).boot = s.boot := (rfl)
@[simp] theorem modPower_latch (f : Power → Power) : (s.modPower f).latch = s.latch := (rfl)
@[simp] theorem modPower_latchAt (f : Power → Power) : (s.modPower f).latchAt = s.latchAt := (rfl)
@[simp] theorem modPower_latchStats (f : Power → Power) : (s.modPower f).latchStats = s.latchStats := (rfl)
@[simp] theorem modPower_snap (f : Power → Power) : (s.modPower f).snap = s.snap := (rfl)
@[simp] theorem modPower_journal (f : Power → Power) : (s.modPower f).journal = s.journal := (rfl)
@[simp] theorem modPower_hostMem (f : Power → Power) : (s.modPower f).hostMem = s.hostMem := (rfl)
@[simp] theorem modPower_rt_time (f : Power → Power) : (s.modPower f).rt.time = s.rt.time := (rfl)
@[simp] theorem modPower_rt_clover (f : Power → Power) : (s.modPower f).rt.clover = s.rt.clover := (rfl)
@[simp] theorem modPower_rt_fault (f : Power → Power) : (s.modPower f).rt.fault = s.rt.fault := (rfl)
@[simp] theorem modPower_rt_power (f : Power → Power) : (s.modPower f).rt.power = f s.rt.power := (rfl)
@[simp] theorem modPower_rt_test (f : Power → Power) : (s.modPower f).rt.test = s.rt.test := (rfl)
@[simp] theorem modPower_rt_mgmt (f : Power → Power) : (s.modPower f).rt.mgmt = s.rt.mgmt := (rfl)
@[simp] theorem modPower_rt_dram (f : Power → Power) : (s.modPower f).rt.dram = s.rt.dram := (rfl)
@[simp] theorem modPower_rt_mallow (f : Power → Power) : (s.modPower f).rt.mallow = s.rt.mallow := (rfl)
@[simp] theorem modPower_rt_audio (f : Power → Power) : (s.modPower f).rt.audio = s.rt.audio := (rfl)
@[simp] theorem modPower_rt_sec (f : Power → Power) : (s.modPower f).rt.sec = s.rt.sec := (rfl)
@[simp] theorem modPower_rt_net (f : Power → Power) : (s.modPower f).rt.net = s.rt.net := (rfl)
@[simp] theorem modPower_rt_fwd (f : Power → Power) : (s.modPower f).rt.fwd = s.rt.fwd := (rfl)
@[simp] theorem modPower_rt_video (f : Power → Power) : (s.modPower f).rt.video = s.rt.video := (rfl)
@[simp] theorem modPower_rt_recorder (f : Power → Power) : (s.modPower f).rt.recorder = s.rt.recorder := (rfl)
@[simp] theorem modPower_rt_dsp (f : Power → Power) : (s.modPower f).rt.dsp = s.rt.dsp := (rfl)
@[simp] theorem modPower_rt_tdm (f : Power → Power) : (s.modPower f).rt.tdm = s.rt.tdm := (rfl)
@[simp] theorem modPower_rt_hsp (f : Power → Power) : (s.modPower f).rt.hsp = s.rt.hsp := (rfl)
@[simp] theorem modPower_rt_zip (f : Power → Power) : (s.modPower f).rt.zip = s.rt.zip := (rfl)

/-! modTest. -/

@[simp] theorem modTest_pending (f : TestBlk → TestBlk) : (s.modTest f).pending = s.pending := (rfl)
@[simp] theorem modTest_free (f : TestBlk → TestBlk) : (s.modTest f).free = s.free := (rfl)
@[simp] theorem modTest_wire (f : TestBlk → TestBlk) : (s.modTest f).wire = s.wire := (rfl)
@[simp] theorem modTest_senak (f : TestBlk → TestBlk) : (s.modTest f).senak = s.senak := (rfl)
@[simp] theorem modTest_gens (f : TestBlk → TestBlk) : (s.modTest f).gens = s.gens := (rfl)
@[simp] theorem modTest_boot (f : TestBlk → TestBlk) : (s.modTest f).boot = s.boot := (rfl)
@[simp] theorem modTest_latch (f : TestBlk → TestBlk) : (s.modTest f).latch = s.latch := (rfl)
@[simp] theorem modTest_latchAt (f : TestBlk → TestBlk) : (s.modTest f).latchAt = s.latchAt := (rfl)
@[simp] theorem modTest_latchStats (f : TestBlk → TestBlk) : (s.modTest f).latchStats = s.latchStats := (rfl)
@[simp] theorem modTest_snap (f : TestBlk → TestBlk) : (s.modTest f).snap = s.snap := (rfl)
@[simp] theorem modTest_journal (f : TestBlk → TestBlk) : (s.modTest f).journal = s.journal := (rfl)
@[simp] theorem modTest_hostMem (f : TestBlk → TestBlk) : (s.modTest f).hostMem = s.hostMem := (rfl)
@[simp] theorem modTest_rt_time (f : TestBlk → TestBlk) : (s.modTest f).rt.time = s.rt.time := (rfl)
@[simp] theorem modTest_rt_clover (f : TestBlk → TestBlk) : (s.modTest f).rt.clover = s.rt.clover := (rfl)
@[simp] theorem modTest_rt_fault (f : TestBlk → TestBlk) : (s.modTest f).rt.fault = s.rt.fault := (rfl)
@[simp] theorem modTest_rt_power (f : TestBlk → TestBlk) : (s.modTest f).rt.power = s.rt.power := (rfl)
@[simp] theorem modTest_rt_test (f : TestBlk → TestBlk) : (s.modTest f).rt.test = f s.rt.test := (rfl)
@[simp] theorem modTest_rt_mgmt (f : TestBlk → TestBlk) : (s.modTest f).rt.mgmt = s.rt.mgmt := (rfl)
@[simp] theorem modTest_rt_dram (f : TestBlk → TestBlk) : (s.modTest f).rt.dram = s.rt.dram := (rfl)
@[simp] theorem modTest_rt_mallow (f : TestBlk → TestBlk) : (s.modTest f).rt.mallow = s.rt.mallow := (rfl)
@[simp] theorem modTest_rt_audio (f : TestBlk → TestBlk) : (s.modTest f).rt.audio = s.rt.audio := (rfl)
@[simp] theorem modTest_rt_sec (f : TestBlk → TestBlk) : (s.modTest f).rt.sec = s.rt.sec := (rfl)
@[simp] theorem modTest_rt_net (f : TestBlk → TestBlk) : (s.modTest f).rt.net = s.rt.net := (rfl)
@[simp] theorem modTest_rt_fwd (f : TestBlk → TestBlk) : (s.modTest f).rt.fwd = s.rt.fwd := (rfl)
@[simp] theorem modTest_rt_video (f : TestBlk → TestBlk) : (s.modTest f).rt.video = s.rt.video := (rfl)
@[simp] theorem modTest_rt_recorder (f : TestBlk → TestBlk) : (s.modTest f).rt.recorder = s.rt.recorder := (rfl)
@[simp] theorem modTest_rt_dsp (f : TestBlk → TestBlk) : (s.modTest f).rt.dsp = s.rt.dsp := (rfl)
@[simp] theorem modTest_rt_tdm (f : TestBlk → TestBlk) : (s.modTest f).rt.tdm = s.rt.tdm := (rfl)
@[simp] theorem modTest_rt_hsp (f : TestBlk → TestBlk) : (s.modTest f).rt.hsp = s.rt.hsp := (rfl)
@[simp] theorem modTest_rt_zip (f : TestBlk → TestBlk) : (s.modTest f).rt.zip = s.rt.zip := (rfl)

/-! modMgmt. -/

@[simp] theorem modMgmt_pending (f : Mgmt → Mgmt) : (s.modMgmt f).pending = s.pending := (rfl)
@[simp] theorem modMgmt_free (f : Mgmt → Mgmt) : (s.modMgmt f).free = s.free := (rfl)
@[simp] theorem modMgmt_wire (f : Mgmt → Mgmt) : (s.modMgmt f).wire = s.wire := (rfl)
@[simp] theorem modMgmt_senak (f : Mgmt → Mgmt) : (s.modMgmt f).senak = s.senak := (rfl)
@[simp] theorem modMgmt_gens (f : Mgmt → Mgmt) : (s.modMgmt f).gens = s.gens := (rfl)
@[simp] theorem modMgmt_boot (f : Mgmt → Mgmt) : (s.modMgmt f).boot = s.boot := (rfl)
@[simp] theorem modMgmt_latch (f : Mgmt → Mgmt) : (s.modMgmt f).latch = s.latch := (rfl)
@[simp] theorem modMgmt_latchAt (f : Mgmt → Mgmt) : (s.modMgmt f).latchAt = s.latchAt := (rfl)
@[simp] theorem modMgmt_latchStats (f : Mgmt → Mgmt) : (s.modMgmt f).latchStats = s.latchStats := (rfl)
@[simp] theorem modMgmt_snap (f : Mgmt → Mgmt) : (s.modMgmt f).snap = s.snap := (rfl)
@[simp] theorem modMgmt_journal (f : Mgmt → Mgmt) : (s.modMgmt f).journal = s.journal := (rfl)
@[simp] theorem modMgmt_hostMem (f : Mgmt → Mgmt) : (s.modMgmt f).hostMem = s.hostMem := (rfl)
@[simp] theorem modMgmt_rt_time (f : Mgmt → Mgmt) : (s.modMgmt f).rt.time = s.rt.time := (rfl)
@[simp] theorem modMgmt_rt_clover (f : Mgmt → Mgmt) : (s.modMgmt f).rt.clover = s.rt.clover := (rfl)
@[simp] theorem modMgmt_rt_fault (f : Mgmt → Mgmt) : (s.modMgmt f).rt.fault = s.rt.fault := (rfl)
@[simp] theorem modMgmt_rt_power (f : Mgmt → Mgmt) : (s.modMgmt f).rt.power = s.rt.power := (rfl)
@[simp] theorem modMgmt_rt_test (f : Mgmt → Mgmt) : (s.modMgmt f).rt.test = s.rt.test := (rfl)
@[simp] theorem modMgmt_rt_mgmt (f : Mgmt → Mgmt) : (s.modMgmt f).rt.mgmt = f s.rt.mgmt := (rfl)
@[simp] theorem modMgmt_rt_dram (f : Mgmt → Mgmt) : (s.modMgmt f).rt.dram = s.rt.dram := (rfl)
@[simp] theorem modMgmt_rt_mallow (f : Mgmt → Mgmt) : (s.modMgmt f).rt.mallow = s.rt.mallow := (rfl)
@[simp] theorem modMgmt_rt_audio (f : Mgmt → Mgmt) : (s.modMgmt f).rt.audio = s.rt.audio := (rfl)
@[simp] theorem modMgmt_rt_sec (f : Mgmt → Mgmt) : (s.modMgmt f).rt.sec = s.rt.sec := (rfl)
@[simp] theorem modMgmt_rt_net (f : Mgmt → Mgmt) : (s.modMgmt f).rt.net = s.rt.net := (rfl)
@[simp] theorem modMgmt_rt_fwd (f : Mgmt → Mgmt) : (s.modMgmt f).rt.fwd = s.rt.fwd := (rfl)
@[simp] theorem modMgmt_rt_video (f : Mgmt → Mgmt) : (s.modMgmt f).rt.video = s.rt.video := (rfl)
@[simp] theorem modMgmt_rt_recorder (f : Mgmt → Mgmt) : (s.modMgmt f).rt.recorder = s.rt.recorder := (rfl)
@[simp] theorem modMgmt_rt_dsp (f : Mgmt → Mgmt) : (s.modMgmt f).rt.dsp = s.rt.dsp := (rfl)
@[simp] theorem modMgmt_rt_tdm (f : Mgmt → Mgmt) : (s.modMgmt f).rt.tdm = s.rt.tdm := (rfl)
@[simp] theorem modMgmt_rt_hsp (f : Mgmt → Mgmt) : (s.modMgmt f).rt.hsp = s.rt.hsp := (rfl)
@[simp] theorem modMgmt_rt_zip (f : Mgmt → Mgmt) : (s.modMgmt f).rt.zip = s.rt.zip := (rfl)

/-! modDram. -/

@[simp] theorem modDram_pending (f : Dram → Dram) : (s.modDram f).pending = s.pending := (rfl)
@[simp] theorem modDram_free (f : Dram → Dram) : (s.modDram f).free = s.free := (rfl)
@[simp] theorem modDram_wire (f : Dram → Dram) : (s.modDram f).wire = s.wire := (rfl)
@[simp] theorem modDram_senak (f : Dram → Dram) : (s.modDram f).senak = s.senak := (rfl)
@[simp] theorem modDram_gens (f : Dram → Dram) : (s.modDram f).gens = s.gens := (rfl)
@[simp] theorem modDram_boot (f : Dram → Dram) : (s.modDram f).boot = s.boot := (rfl)
@[simp] theorem modDram_latch (f : Dram → Dram) : (s.modDram f).latch = s.latch := (rfl)
@[simp] theorem modDram_latchAt (f : Dram → Dram) : (s.modDram f).latchAt = s.latchAt := (rfl)
@[simp] theorem modDram_latchStats (f : Dram → Dram) : (s.modDram f).latchStats = s.latchStats := (rfl)
@[simp] theorem modDram_snap (f : Dram → Dram) : (s.modDram f).snap = s.snap := (rfl)
@[simp] theorem modDram_journal (f : Dram → Dram) : (s.modDram f).journal = s.journal := (rfl)
@[simp] theorem modDram_hostMem (f : Dram → Dram) : (s.modDram f).hostMem = s.hostMem := (rfl)
@[simp] theorem modDram_rt_time (f : Dram → Dram) : (s.modDram f).rt.time = s.rt.time := (rfl)
@[simp] theorem modDram_rt_clover (f : Dram → Dram) : (s.modDram f).rt.clover = s.rt.clover := (rfl)
@[simp] theorem modDram_rt_fault (f : Dram → Dram) : (s.modDram f).rt.fault = s.rt.fault := (rfl)
@[simp] theorem modDram_rt_power (f : Dram → Dram) : (s.modDram f).rt.power = s.rt.power := (rfl)
@[simp] theorem modDram_rt_test (f : Dram → Dram) : (s.modDram f).rt.test = s.rt.test := (rfl)
@[simp] theorem modDram_rt_mgmt (f : Dram → Dram) : (s.modDram f).rt.mgmt = s.rt.mgmt := (rfl)
@[simp] theorem modDram_rt_dram (f : Dram → Dram) : (s.modDram f).rt.dram = f s.rt.dram := (rfl)
@[simp] theorem modDram_rt_mallow (f : Dram → Dram) : (s.modDram f).rt.mallow = s.rt.mallow := (rfl)
@[simp] theorem modDram_rt_audio (f : Dram → Dram) : (s.modDram f).rt.audio = s.rt.audio := (rfl)
@[simp] theorem modDram_rt_sec (f : Dram → Dram) : (s.modDram f).rt.sec = s.rt.sec := (rfl)
@[simp] theorem modDram_rt_net (f : Dram → Dram) : (s.modDram f).rt.net = s.rt.net := (rfl)
@[simp] theorem modDram_rt_fwd (f : Dram → Dram) : (s.modDram f).rt.fwd = s.rt.fwd := (rfl)
@[simp] theorem modDram_rt_video (f : Dram → Dram) : (s.modDram f).rt.video = s.rt.video := (rfl)
@[simp] theorem modDram_rt_recorder (f : Dram → Dram) : (s.modDram f).rt.recorder = s.rt.recorder := (rfl)
@[simp] theorem modDram_rt_dsp (f : Dram → Dram) : (s.modDram f).rt.dsp = s.rt.dsp := (rfl)
@[simp] theorem modDram_rt_tdm (f : Dram → Dram) : (s.modDram f).rt.tdm = s.rt.tdm := (rfl)
@[simp] theorem modDram_rt_hsp (f : Dram → Dram) : (s.modDram f).rt.hsp = s.rt.hsp := (rfl)
@[simp] theorem modDram_rt_zip (f : Dram → Dram) : (s.modDram f).rt.zip = s.rt.zip := (rfl)

/-! modMallow. -/

@[simp] theorem modMallow_pending (f : Mallow → Mallow) : (s.modMallow f).pending = s.pending := (rfl)
@[simp] theorem modMallow_free (f : Mallow → Mallow) : (s.modMallow f).free = s.free := (rfl)
@[simp] theorem modMallow_wire (f : Mallow → Mallow) : (s.modMallow f).wire = s.wire := (rfl)
@[simp] theorem modMallow_senak (f : Mallow → Mallow) : (s.modMallow f).senak = s.senak := (rfl)
@[simp] theorem modMallow_gens (f : Mallow → Mallow) : (s.modMallow f).gens = s.gens := (rfl)
@[simp] theorem modMallow_boot (f : Mallow → Mallow) : (s.modMallow f).boot = s.boot := (rfl)
@[simp] theorem modMallow_latch (f : Mallow → Mallow) : (s.modMallow f).latch = s.latch := (rfl)
@[simp] theorem modMallow_latchAt (f : Mallow → Mallow) : (s.modMallow f).latchAt = s.latchAt := (rfl)
@[simp] theorem modMallow_latchStats (f : Mallow → Mallow) : (s.modMallow f).latchStats = s.latchStats := (rfl)
@[simp] theorem modMallow_snap (f : Mallow → Mallow) : (s.modMallow f).snap = s.snap := (rfl)
@[simp] theorem modMallow_journal (f : Mallow → Mallow) : (s.modMallow f).journal = s.journal := (rfl)
@[simp] theorem modMallow_hostMem (f : Mallow → Mallow) : (s.modMallow f).hostMem = s.hostMem := (rfl)
@[simp] theorem modMallow_rt_time (f : Mallow → Mallow) : (s.modMallow f).rt.time = s.rt.time := (rfl)
@[simp] theorem modMallow_rt_clover (f : Mallow → Mallow) : (s.modMallow f).rt.clover = s.rt.clover := (rfl)
@[simp] theorem modMallow_rt_fault (f : Mallow → Mallow) : (s.modMallow f).rt.fault = s.rt.fault := (rfl)
@[simp] theorem modMallow_rt_power (f : Mallow → Mallow) : (s.modMallow f).rt.power = s.rt.power := (rfl)
@[simp] theorem modMallow_rt_test (f : Mallow → Mallow) : (s.modMallow f).rt.test = s.rt.test := (rfl)
@[simp] theorem modMallow_rt_mgmt (f : Mallow → Mallow) : (s.modMallow f).rt.mgmt = s.rt.mgmt := (rfl)
@[simp] theorem modMallow_rt_dram (f : Mallow → Mallow) : (s.modMallow f).rt.dram = s.rt.dram := (rfl)
@[simp] theorem modMallow_rt_mallow (f : Mallow → Mallow) : (s.modMallow f).rt.mallow = f s.rt.mallow := (rfl)
@[simp] theorem modMallow_rt_audio (f : Mallow → Mallow) : (s.modMallow f).rt.audio = s.rt.audio := (rfl)
@[simp] theorem modMallow_rt_sec (f : Mallow → Mallow) : (s.modMallow f).rt.sec = s.rt.sec := (rfl)
@[simp] theorem modMallow_rt_net (f : Mallow → Mallow) : (s.modMallow f).rt.net = s.rt.net := (rfl)
@[simp] theorem modMallow_rt_fwd (f : Mallow → Mallow) : (s.modMallow f).rt.fwd = s.rt.fwd := (rfl)
@[simp] theorem modMallow_rt_video (f : Mallow → Mallow) : (s.modMallow f).rt.video = s.rt.video := (rfl)
@[simp] theorem modMallow_rt_recorder (f : Mallow → Mallow) : (s.modMallow f).rt.recorder = s.rt.recorder := (rfl)
@[simp] theorem modMallow_rt_dsp (f : Mallow → Mallow) : (s.modMallow f).rt.dsp = s.rt.dsp := (rfl)
@[simp] theorem modMallow_rt_tdm (f : Mallow → Mallow) : (s.modMallow f).rt.tdm = s.rt.tdm := (rfl)
@[simp] theorem modMallow_rt_hsp (f : Mallow → Mallow) : (s.modMallow f).rt.hsp = s.rt.hsp := (rfl)
@[simp] theorem modMallow_rt_zip (f : Mallow → Mallow) : (s.modMallow f).rt.zip = s.rt.zip := (rfl)

/-! modAudio. -/

@[simp] theorem modAudio_pending (f : Audio → Audio) : (s.modAudio f).pending = s.pending := (rfl)
@[simp] theorem modAudio_free (f : Audio → Audio) : (s.modAudio f).free = s.free := (rfl)
@[simp] theorem modAudio_wire (f : Audio → Audio) : (s.modAudio f).wire = s.wire := (rfl)
@[simp] theorem modAudio_senak (f : Audio → Audio) : (s.modAudio f).senak = s.senak := (rfl)
@[simp] theorem modAudio_gens (f : Audio → Audio) : (s.modAudio f).gens = s.gens := (rfl)
@[simp] theorem modAudio_boot (f : Audio → Audio) : (s.modAudio f).boot = s.boot := (rfl)
@[simp] theorem modAudio_latch (f : Audio → Audio) : (s.modAudio f).latch = s.latch := (rfl)
@[simp] theorem modAudio_latchAt (f : Audio → Audio) : (s.modAudio f).latchAt = s.latchAt := (rfl)
@[simp] theorem modAudio_latchStats (f : Audio → Audio) : (s.modAudio f).latchStats = s.latchStats := (rfl)
@[simp] theorem modAudio_snap (f : Audio → Audio) : (s.modAudio f).snap = s.snap := (rfl)
@[simp] theorem modAudio_journal (f : Audio → Audio) : (s.modAudio f).journal = s.journal := (rfl)
@[simp] theorem modAudio_hostMem (f : Audio → Audio) : (s.modAudio f).hostMem = s.hostMem := (rfl)
@[simp] theorem modAudio_rt_time (f : Audio → Audio) : (s.modAudio f).rt.time = s.rt.time := (rfl)
@[simp] theorem modAudio_rt_clover (f : Audio → Audio) : (s.modAudio f).rt.clover = s.rt.clover := (rfl)
@[simp] theorem modAudio_rt_fault (f : Audio → Audio) : (s.modAudio f).rt.fault = s.rt.fault := (rfl)
@[simp] theorem modAudio_rt_power (f : Audio → Audio) : (s.modAudio f).rt.power = s.rt.power := (rfl)
@[simp] theorem modAudio_rt_test (f : Audio → Audio) : (s.modAudio f).rt.test = s.rt.test := (rfl)
@[simp] theorem modAudio_rt_mgmt (f : Audio → Audio) : (s.modAudio f).rt.mgmt = s.rt.mgmt := (rfl)
@[simp] theorem modAudio_rt_dram (f : Audio → Audio) : (s.modAudio f).rt.dram = s.rt.dram := (rfl)
@[simp] theorem modAudio_rt_mallow (f : Audio → Audio) : (s.modAudio f).rt.mallow = s.rt.mallow := (rfl)
@[simp] theorem modAudio_rt_audio (f : Audio → Audio) : (s.modAudio f).rt.audio = f s.rt.audio := (rfl)
@[simp] theorem modAudio_rt_sec (f : Audio → Audio) : (s.modAudio f).rt.sec = s.rt.sec := (rfl)
@[simp] theorem modAudio_rt_net (f : Audio → Audio) : (s.modAudio f).rt.net = s.rt.net := (rfl)
@[simp] theorem modAudio_rt_fwd (f : Audio → Audio) : (s.modAudio f).rt.fwd = s.rt.fwd := (rfl)
@[simp] theorem modAudio_rt_video (f : Audio → Audio) : (s.modAudio f).rt.video = s.rt.video := (rfl)
@[simp] theorem modAudio_rt_recorder (f : Audio → Audio) : (s.modAudio f).rt.recorder = s.rt.recorder := (rfl)
@[simp] theorem modAudio_rt_dsp (f : Audio → Audio) : (s.modAudio f).rt.dsp = s.rt.dsp := (rfl)
@[simp] theorem modAudio_rt_tdm (f : Audio → Audio) : (s.modAudio f).rt.tdm = s.rt.tdm := (rfl)
@[simp] theorem modAudio_rt_hsp (f : Audio → Audio) : (s.modAudio f).rt.hsp = s.rt.hsp := (rfl)
@[simp] theorem modAudio_rt_zip (f : Audio → Audio) : (s.modAudio f).rt.zip = s.rt.zip := (rfl)

/-! modSec. -/

@[simp] theorem modSec_pending (f : Sec → Sec) : (s.modSec f).pending = s.pending := (rfl)
@[simp] theorem modSec_free (f : Sec → Sec) : (s.modSec f).free = s.free := (rfl)
@[simp] theorem modSec_wire (f : Sec → Sec) : (s.modSec f).wire = s.wire := (rfl)
@[simp] theorem modSec_senak (f : Sec → Sec) : (s.modSec f).senak = s.senak := (rfl)
@[simp] theorem modSec_gens (f : Sec → Sec) : (s.modSec f).gens = s.gens := (rfl)
@[simp] theorem modSec_boot (f : Sec → Sec) : (s.modSec f).boot = s.boot := (rfl)
@[simp] theorem modSec_latch (f : Sec → Sec) : (s.modSec f).latch = s.latch := (rfl)
@[simp] theorem modSec_latchAt (f : Sec → Sec) : (s.modSec f).latchAt = s.latchAt := (rfl)
@[simp] theorem modSec_latchStats (f : Sec → Sec) : (s.modSec f).latchStats = s.latchStats := (rfl)
@[simp] theorem modSec_snap (f : Sec → Sec) : (s.modSec f).snap = s.snap := (rfl)
@[simp] theorem modSec_journal (f : Sec → Sec) : (s.modSec f).journal = s.journal := (rfl)
@[simp] theorem modSec_hostMem (f : Sec → Sec) : (s.modSec f).hostMem = s.hostMem := (rfl)
@[simp] theorem modSec_rt_time (f : Sec → Sec) : (s.modSec f).rt.time = s.rt.time := (rfl)
@[simp] theorem modSec_rt_clover (f : Sec → Sec) : (s.modSec f).rt.clover = s.rt.clover := (rfl)
@[simp] theorem modSec_rt_fault (f : Sec → Sec) : (s.modSec f).rt.fault = s.rt.fault := (rfl)
@[simp] theorem modSec_rt_power (f : Sec → Sec) : (s.modSec f).rt.power = s.rt.power := (rfl)
@[simp] theorem modSec_rt_test (f : Sec → Sec) : (s.modSec f).rt.test = s.rt.test := (rfl)
@[simp] theorem modSec_rt_mgmt (f : Sec → Sec) : (s.modSec f).rt.mgmt = s.rt.mgmt := (rfl)
@[simp] theorem modSec_rt_dram (f : Sec → Sec) : (s.modSec f).rt.dram = s.rt.dram := (rfl)
@[simp] theorem modSec_rt_mallow (f : Sec → Sec) : (s.modSec f).rt.mallow = s.rt.mallow := (rfl)
@[simp] theorem modSec_rt_audio (f : Sec → Sec) : (s.modSec f).rt.audio = s.rt.audio := (rfl)
@[simp] theorem modSec_rt_sec (f : Sec → Sec) : (s.modSec f).rt.sec = f s.rt.sec := (rfl)
@[simp] theorem modSec_rt_net (f : Sec → Sec) : (s.modSec f).rt.net = s.rt.net := (rfl)
@[simp] theorem modSec_rt_fwd (f : Sec → Sec) : (s.modSec f).rt.fwd = s.rt.fwd := (rfl)
@[simp] theorem modSec_rt_video (f : Sec → Sec) : (s.modSec f).rt.video = s.rt.video := (rfl)
@[simp] theorem modSec_rt_recorder (f : Sec → Sec) : (s.modSec f).rt.recorder = s.rt.recorder := (rfl)
@[simp] theorem modSec_rt_dsp (f : Sec → Sec) : (s.modSec f).rt.dsp = s.rt.dsp := (rfl)
@[simp] theorem modSec_rt_tdm (f : Sec → Sec) : (s.modSec f).rt.tdm = s.rt.tdm := (rfl)
@[simp] theorem modSec_rt_hsp (f : Sec → Sec) : (s.modSec f).rt.hsp = s.rt.hsp := (rfl)
@[simp] theorem modSec_rt_zip (f : Sec → Sec) : (s.modSec f).rt.zip = s.rt.zip := (rfl)

/-! modNet. -/

@[simp] theorem modNet_pending (f : Net → Net) : (s.modNet f).pending = s.pending := (rfl)
@[simp] theorem modNet_free (f : Net → Net) : (s.modNet f).free = s.free := (rfl)
@[simp] theorem modNet_wire (f : Net → Net) : (s.modNet f).wire = s.wire := (rfl)
@[simp] theorem modNet_senak (f : Net → Net) : (s.modNet f).senak = s.senak := (rfl)
@[simp] theorem modNet_gens (f : Net → Net) : (s.modNet f).gens = s.gens := (rfl)
@[simp] theorem modNet_boot (f : Net → Net) : (s.modNet f).boot = s.boot := (rfl)
@[simp] theorem modNet_latch (f : Net → Net) : (s.modNet f).latch = s.latch := (rfl)
@[simp] theorem modNet_latchAt (f : Net → Net) : (s.modNet f).latchAt = s.latchAt := (rfl)
@[simp] theorem modNet_latchStats (f : Net → Net) : (s.modNet f).latchStats = s.latchStats := (rfl)
@[simp] theorem modNet_snap (f : Net → Net) : (s.modNet f).snap = s.snap := (rfl)
@[simp] theorem modNet_journal (f : Net → Net) : (s.modNet f).journal = s.journal := (rfl)
@[simp] theorem modNet_hostMem (f : Net → Net) : (s.modNet f).hostMem = s.hostMem := (rfl)
@[simp] theorem modNet_rt_time (f : Net → Net) : (s.modNet f).rt.time = s.rt.time := (rfl)
@[simp] theorem modNet_rt_clover (f : Net → Net) : (s.modNet f).rt.clover = s.rt.clover := (rfl)
@[simp] theorem modNet_rt_fault (f : Net → Net) : (s.modNet f).rt.fault = s.rt.fault := (rfl)
@[simp] theorem modNet_rt_power (f : Net → Net) : (s.modNet f).rt.power = s.rt.power := (rfl)
@[simp] theorem modNet_rt_test (f : Net → Net) : (s.modNet f).rt.test = s.rt.test := (rfl)
@[simp] theorem modNet_rt_mgmt (f : Net → Net) : (s.modNet f).rt.mgmt = s.rt.mgmt := (rfl)
@[simp] theorem modNet_rt_dram (f : Net → Net) : (s.modNet f).rt.dram = s.rt.dram := (rfl)
@[simp] theorem modNet_rt_mallow (f : Net → Net) : (s.modNet f).rt.mallow = s.rt.mallow := (rfl)
@[simp] theorem modNet_rt_audio (f : Net → Net) : (s.modNet f).rt.audio = s.rt.audio := (rfl)
@[simp] theorem modNet_rt_sec (f : Net → Net) : (s.modNet f).rt.sec = s.rt.sec := (rfl)
@[simp] theorem modNet_rt_net (f : Net → Net) : (s.modNet f).rt.net = f s.rt.net := (rfl)
@[simp] theorem modNet_rt_fwd (f : Net → Net) : (s.modNet f).rt.fwd = s.rt.fwd := (rfl)
@[simp] theorem modNet_rt_video (f : Net → Net) : (s.modNet f).rt.video = s.rt.video := (rfl)
@[simp] theorem modNet_rt_recorder (f : Net → Net) : (s.modNet f).rt.recorder = s.rt.recorder := (rfl)
@[simp] theorem modNet_rt_dsp (f : Net → Net) : (s.modNet f).rt.dsp = s.rt.dsp := (rfl)
@[simp] theorem modNet_rt_tdm (f : Net → Net) : (s.modNet f).rt.tdm = s.rt.tdm := (rfl)
@[simp] theorem modNet_rt_hsp (f : Net → Net) : (s.modNet f).rt.hsp = s.rt.hsp := (rfl)
@[simp] theorem modNet_rt_zip (f : Net → Net) : (s.modNet f).rt.zip = s.rt.zip := (rfl)

/-! modFwd. -/

@[simp] theorem modFwd_pending (f : Fwd → Fwd) : (s.modFwd f).pending = s.pending := (rfl)
@[simp] theorem modFwd_free (f : Fwd → Fwd) : (s.modFwd f).free = s.free := (rfl)
@[simp] theorem modFwd_wire (f : Fwd → Fwd) : (s.modFwd f).wire = s.wire := (rfl)
@[simp] theorem modFwd_senak (f : Fwd → Fwd) : (s.modFwd f).senak = s.senak := (rfl)
@[simp] theorem modFwd_gens (f : Fwd → Fwd) : (s.modFwd f).gens = s.gens := (rfl)
@[simp] theorem modFwd_boot (f : Fwd → Fwd) : (s.modFwd f).boot = s.boot := (rfl)
@[simp] theorem modFwd_latch (f : Fwd → Fwd) : (s.modFwd f).latch = s.latch := (rfl)
@[simp] theorem modFwd_latchAt (f : Fwd → Fwd) : (s.modFwd f).latchAt = s.latchAt := (rfl)
@[simp] theorem modFwd_latchStats (f : Fwd → Fwd) : (s.modFwd f).latchStats = s.latchStats := (rfl)
@[simp] theorem modFwd_snap (f : Fwd → Fwd) : (s.modFwd f).snap = s.snap := (rfl)
@[simp] theorem modFwd_journal (f : Fwd → Fwd) : (s.modFwd f).journal = s.journal := (rfl)
@[simp] theorem modFwd_hostMem (f : Fwd → Fwd) : (s.modFwd f).hostMem = s.hostMem := (rfl)
@[simp] theorem modFwd_rt_time (f : Fwd → Fwd) : (s.modFwd f).rt.time = s.rt.time := (rfl)
@[simp] theorem modFwd_rt_clover (f : Fwd → Fwd) : (s.modFwd f).rt.clover = s.rt.clover := (rfl)
@[simp] theorem modFwd_rt_fault (f : Fwd → Fwd) : (s.modFwd f).rt.fault = s.rt.fault := (rfl)
@[simp] theorem modFwd_rt_power (f : Fwd → Fwd) : (s.modFwd f).rt.power = s.rt.power := (rfl)
@[simp] theorem modFwd_rt_test (f : Fwd → Fwd) : (s.modFwd f).rt.test = s.rt.test := (rfl)
@[simp] theorem modFwd_rt_mgmt (f : Fwd → Fwd) : (s.modFwd f).rt.mgmt = s.rt.mgmt := (rfl)
@[simp] theorem modFwd_rt_dram (f : Fwd → Fwd) : (s.modFwd f).rt.dram = s.rt.dram := (rfl)
@[simp] theorem modFwd_rt_mallow (f : Fwd → Fwd) : (s.modFwd f).rt.mallow = s.rt.mallow := (rfl)
@[simp] theorem modFwd_rt_audio (f : Fwd → Fwd) : (s.modFwd f).rt.audio = s.rt.audio := (rfl)
@[simp] theorem modFwd_rt_sec (f : Fwd → Fwd) : (s.modFwd f).rt.sec = s.rt.sec := (rfl)
@[simp] theorem modFwd_rt_net (f : Fwd → Fwd) : (s.modFwd f).rt.net = s.rt.net := (rfl)
@[simp] theorem modFwd_rt_fwd (f : Fwd → Fwd) : (s.modFwd f).rt.fwd = f s.rt.fwd := (rfl)
@[simp] theorem modFwd_rt_video (f : Fwd → Fwd) : (s.modFwd f).rt.video = s.rt.video := (rfl)
@[simp] theorem modFwd_rt_recorder (f : Fwd → Fwd) : (s.modFwd f).rt.recorder = s.rt.recorder := (rfl)
@[simp] theorem modFwd_rt_dsp (f : Fwd → Fwd) : (s.modFwd f).rt.dsp = s.rt.dsp := (rfl)
@[simp] theorem modFwd_rt_tdm (f : Fwd → Fwd) : (s.modFwd f).rt.tdm = s.rt.tdm := (rfl)
@[simp] theorem modFwd_rt_hsp (f : Fwd → Fwd) : (s.modFwd f).rt.hsp = s.rt.hsp := (rfl)
@[simp] theorem modFwd_rt_zip (f : Fwd → Fwd) : (s.modFwd f).rt.zip = s.rt.zip := (rfl)

/-! modVideo. -/

@[simp] theorem modVideo_pending (f : Video → Video) : (s.modVideo f).pending = s.pending := (rfl)
@[simp] theorem modVideo_free (f : Video → Video) : (s.modVideo f).free = s.free := (rfl)
@[simp] theorem modVideo_wire (f : Video → Video) : (s.modVideo f).wire = s.wire := (rfl)
@[simp] theorem modVideo_senak (f : Video → Video) : (s.modVideo f).senak = s.senak := (rfl)
@[simp] theorem modVideo_gens (f : Video → Video) : (s.modVideo f).gens = s.gens := (rfl)
@[simp] theorem modVideo_boot (f : Video → Video) : (s.modVideo f).boot = s.boot := (rfl)
@[simp] theorem modVideo_latch (f : Video → Video) : (s.modVideo f).latch = s.latch := (rfl)
@[simp] theorem modVideo_latchAt (f : Video → Video) : (s.modVideo f).latchAt = s.latchAt := (rfl)
@[simp] theorem modVideo_latchStats (f : Video → Video) : (s.modVideo f).latchStats = s.latchStats := (rfl)
@[simp] theorem modVideo_snap (f : Video → Video) : (s.modVideo f).snap = s.snap := (rfl)
@[simp] theorem modVideo_journal (f : Video → Video) : (s.modVideo f).journal = s.journal := (rfl)
@[simp] theorem modVideo_hostMem (f : Video → Video) : (s.modVideo f).hostMem = s.hostMem := (rfl)
@[simp] theorem modVideo_rt_time (f : Video → Video) : (s.modVideo f).rt.time = s.rt.time := (rfl)
@[simp] theorem modVideo_rt_clover (f : Video → Video) : (s.modVideo f).rt.clover = s.rt.clover := (rfl)
@[simp] theorem modVideo_rt_fault (f : Video → Video) : (s.modVideo f).rt.fault = s.rt.fault := (rfl)
@[simp] theorem modVideo_rt_power (f : Video → Video) : (s.modVideo f).rt.power = s.rt.power := (rfl)
@[simp] theorem modVideo_rt_test (f : Video → Video) : (s.modVideo f).rt.test = s.rt.test := (rfl)
@[simp] theorem modVideo_rt_mgmt (f : Video → Video) : (s.modVideo f).rt.mgmt = s.rt.mgmt := (rfl)
@[simp] theorem modVideo_rt_dram (f : Video → Video) : (s.modVideo f).rt.dram = s.rt.dram := (rfl)
@[simp] theorem modVideo_rt_mallow (f : Video → Video) : (s.modVideo f).rt.mallow = s.rt.mallow := (rfl)
@[simp] theorem modVideo_rt_audio (f : Video → Video) : (s.modVideo f).rt.audio = s.rt.audio := (rfl)
@[simp] theorem modVideo_rt_sec (f : Video → Video) : (s.modVideo f).rt.sec = s.rt.sec := (rfl)
@[simp] theorem modVideo_rt_net (f : Video → Video) : (s.modVideo f).rt.net = s.rt.net := (rfl)
@[simp] theorem modVideo_rt_fwd (f : Video → Video) : (s.modVideo f).rt.fwd = s.rt.fwd := (rfl)
@[simp] theorem modVideo_rt_video (f : Video → Video) : (s.modVideo f).rt.video = f s.rt.video := (rfl)
@[simp] theorem modVideo_rt_recorder (f : Video → Video) : (s.modVideo f).rt.recorder = s.rt.recorder := (rfl)
@[simp] theorem modVideo_rt_dsp (f : Video → Video) : (s.modVideo f).rt.dsp = s.rt.dsp := (rfl)
@[simp] theorem modVideo_rt_tdm (f : Video → Video) : (s.modVideo f).rt.tdm = s.rt.tdm := (rfl)
@[simp] theorem modVideo_rt_hsp (f : Video → Video) : (s.modVideo f).rt.hsp = s.rt.hsp := (rfl)
@[simp] theorem modVideo_rt_zip (f : Video → Video) : (s.modVideo f).rt.zip = s.rt.zip := (rfl)

/-! modRec. -/

@[simp] theorem modRec_pending (f : Rec → Rec) : (s.modRec f).pending = s.pending := (rfl)
@[simp] theorem modRec_free (f : Rec → Rec) : (s.modRec f).free = s.free := (rfl)
@[simp] theorem modRec_wire (f : Rec → Rec) : (s.modRec f).wire = s.wire := (rfl)
@[simp] theorem modRec_senak (f : Rec → Rec) : (s.modRec f).senak = s.senak := (rfl)
@[simp] theorem modRec_gens (f : Rec → Rec) : (s.modRec f).gens = s.gens := (rfl)
@[simp] theorem modRec_boot (f : Rec → Rec) : (s.modRec f).boot = s.boot := (rfl)
@[simp] theorem modRec_latch (f : Rec → Rec) : (s.modRec f).latch = s.latch := (rfl)
@[simp] theorem modRec_latchAt (f : Rec → Rec) : (s.modRec f).latchAt = s.latchAt := (rfl)
@[simp] theorem modRec_latchStats (f : Rec → Rec) : (s.modRec f).latchStats = s.latchStats := (rfl)
@[simp] theorem modRec_snap (f : Rec → Rec) : (s.modRec f).snap = s.snap := (rfl)
@[simp] theorem modRec_journal (f : Rec → Rec) : (s.modRec f).journal = s.journal := (rfl)
@[simp] theorem modRec_hostMem (f : Rec → Rec) : (s.modRec f).hostMem = s.hostMem := (rfl)
@[simp] theorem modRec_rt_time (f : Rec → Rec) : (s.modRec f).rt.time = s.rt.time := (rfl)
@[simp] theorem modRec_rt_clover (f : Rec → Rec) : (s.modRec f).rt.clover = s.rt.clover := (rfl)
@[simp] theorem modRec_rt_fault (f : Rec → Rec) : (s.modRec f).rt.fault = s.rt.fault := (rfl)
@[simp] theorem modRec_rt_power (f : Rec → Rec) : (s.modRec f).rt.power = s.rt.power := (rfl)
@[simp] theorem modRec_rt_test (f : Rec → Rec) : (s.modRec f).rt.test = s.rt.test := (rfl)
@[simp] theorem modRec_rt_mgmt (f : Rec → Rec) : (s.modRec f).rt.mgmt = s.rt.mgmt := (rfl)
@[simp] theorem modRec_rt_dram (f : Rec → Rec) : (s.modRec f).rt.dram = s.rt.dram := (rfl)
@[simp] theorem modRec_rt_mallow (f : Rec → Rec) : (s.modRec f).rt.mallow = s.rt.mallow := (rfl)
@[simp] theorem modRec_rt_audio (f : Rec → Rec) : (s.modRec f).rt.audio = s.rt.audio := (rfl)
@[simp] theorem modRec_rt_sec (f : Rec → Rec) : (s.modRec f).rt.sec = s.rt.sec := (rfl)
@[simp] theorem modRec_rt_net (f : Rec → Rec) : (s.modRec f).rt.net = s.rt.net := (rfl)
@[simp] theorem modRec_rt_fwd (f : Rec → Rec) : (s.modRec f).rt.fwd = s.rt.fwd := (rfl)
@[simp] theorem modRec_rt_video (f : Rec → Rec) : (s.modRec f).rt.video = s.rt.video := (rfl)
@[simp] theorem modRec_rt_recorder (f : Rec → Rec) : (s.modRec f).rt.recorder = f s.rt.recorder := (rfl)
@[simp] theorem modRec_rt_dsp (f : Rec → Rec) : (s.modRec f).rt.dsp = s.rt.dsp := (rfl)
@[simp] theorem modRec_rt_tdm (f : Rec → Rec) : (s.modRec f).rt.tdm = s.rt.tdm := (rfl)
@[simp] theorem modRec_rt_hsp (f : Rec → Rec) : (s.modRec f).rt.hsp = s.rt.hsp := (rfl)
@[simp] theorem modRec_rt_zip (f : Rec → Rec) : (s.modRec f).rt.zip = s.rt.zip := (rfl)

/-! modDsp. -/

@[simp] theorem modDsp_pending (f : Dsp → Dsp) : (s.modDsp f).pending = s.pending := (rfl)
@[simp] theorem modDsp_free (f : Dsp → Dsp) : (s.modDsp f).free = s.free := (rfl)
@[simp] theorem modDsp_wire (f : Dsp → Dsp) : (s.modDsp f).wire = s.wire := (rfl)
@[simp] theorem modDsp_senak (f : Dsp → Dsp) : (s.modDsp f).senak = s.senak := (rfl)
@[simp] theorem modDsp_gens (f : Dsp → Dsp) : (s.modDsp f).gens = s.gens := (rfl)
@[simp] theorem modDsp_boot (f : Dsp → Dsp) : (s.modDsp f).boot = s.boot := (rfl)
@[simp] theorem modDsp_latch (f : Dsp → Dsp) : (s.modDsp f).latch = s.latch := (rfl)
@[simp] theorem modDsp_latchAt (f : Dsp → Dsp) : (s.modDsp f).latchAt = s.latchAt := (rfl)
@[simp] theorem modDsp_latchStats (f : Dsp → Dsp) : (s.modDsp f).latchStats = s.latchStats := (rfl)
@[simp] theorem modDsp_snap (f : Dsp → Dsp) : (s.modDsp f).snap = s.snap := (rfl)
@[simp] theorem modDsp_journal (f : Dsp → Dsp) : (s.modDsp f).journal = s.journal := (rfl)
@[simp] theorem modDsp_hostMem (f : Dsp → Dsp) : (s.modDsp f).hostMem = s.hostMem := (rfl)
@[simp] theorem modDsp_rt_time (f : Dsp → Dsp) : (s.modDsp f).rt.time = s.rt.time := (rfl)
@[simp] theorem modDsp_rt_clover (f : Dsp → Dsp) : (s.modDsp f).rt.clover = s.rt.clover := (rfl)
@[simp] theorem modDsp_rt_fault (f : Dsp → Dsp) : (s.modDsp f).rt.fault = s.rt.fault := (rfl)
@[simp] theorem modDsp_rt_power (f : Dsp → Dsp) : (s.modDsp f).rt.power = s.rt.power := (rfl)
@[simp] theorem modDsp_rt_test (f : Dsp → Dsp) : (s.modDsp f).rt.test = s.rt.test := (rfl)
@[simp] theorem modDsp_rt_mgmt (f : Dsp → Dsp) : (s.modDsp f).rt.mgmt = s.rt.mgmt := (rfl)
@[simp] theorem modDsp_rt_dram (f : Dsp → Dsp) : (s.modDsp f).rt.dram = s.rt.dram := (rfl)
@[simp] theorem modDsp_rt_mallow (f : Dsp → Dsp) : (s.modDsp f).rt.mallow = s.rt.mallow := (rfl)
@[simp] theorem modDsp_rt_audio (f : Dsp → Dsp) : (s.modDsp f).rt.audio = s.rt.audio := (rfl)
@[simp] theorem modDsp_rt_sec (f : Dsp → Dsp) : (s.modDsp f).rt.sec = s.rt.sec := (rfl)
@[simp] theorem modDsp_rt_net (f : Dsp → Dsp) : (s.modDsp f).rt.net = s.rt.net := (rfl)
@[simp] theorem modDsp_rt_fwd (f : Dsp → Dsp) : (s.modDsp f).rt.fwd = s.rt.fwd := (rfl)
@[simp] theorem modDsp_rt_video (f : Dsp → Dsp) : (s.modDsp f).rt.video = s.rt.video := (rfl)
@[simp] theorem modDsp_rt_recorder (f : Dsp → Dsp) : (s.modDsp f).rt.recorder = s.rt.recorder := (rfl)
@[simp] theorem modDsp_rt_dsp (f : Dsp → Dsp) : (s.modDsp f).rt.dsp = f s.rt.dsp := (rfl)
@[simp] theorem modDsp_rt_tdm (f : Dsp → Dsp) : (s.modDsp f).rt.tdm = s.rt.tdm := (rfl)
@[simp] theorem modDsp_rt_hsp (f : Dsp → Dsp) : (s.modDsp f).rt.hsp = s.rt.hsp := (rfl)
@[simp] theorem modDsp_rt_zip (f : Dsp → Dsp) : (s.modDsp f).rt.zip = s.rt.zip := (rfl)

/-! modTdm. -/

@[simp] theorem modTdm_pending (f : Tdm → Tdm) : (s.modTdm f).pending = s.pending := (rfl)
@[simp] theorem modTdm_free (f : Tdm → Tdm) : (s.modTdm f).free = s.free := (rfl)
@[simp] theorem modTdm_wire (f : Tdm → Tdm) : (s.modTdm f).wire = s.wire := (rfl)
@[simp] theorem modTdm_senak (f : Tdm → Tdm) : (s.modTdm f).senak = s.senak := (rfl)
@[simp] theorem modTdm_gens (f : Tdm → Tdm) : (s.modTdm f).gens = s.gens := (rfl)
@[simp] theorem modTdm_boot (f : Tdm → Tdm) : (s.modTdm f).boot = s.boot := (rfl)
@[simp] theorem modTdm_latch (f : Tdm → Tdm) : (s.modTdm f).latch = s.latch := (rfl)
@[simp] theorem modTdm_latchAt (f : Tdm → Tdm) : (s.modTdm f).latchAt = s.latchAt := (rfl)
@[simp] theorem modTdm_latchStats (f : Tdm → Tdm) : (s.modTdm f).latchStats = s.latchStats := (rfl)
@[simp] theorem modTdm_snap (f : Tdm → Tdm) : (s.modTdm f).snap = s.snap := (rfl)
@[simp] theorem modTdm_journal (f : Tdm → Tdm) : (s.modTdm f).journal = s.journal := (rfl)
@[simp] theorem modTdm_hostMem (f : Tdm → Tdm) : (s.modTdm f).hostMem = s.hostMem := (rfl)
@[simp] theorem modTdm_rt_time (f : Tdm → Tdm) : (s.modTdm f).rt.time = s.rt.time := (rfl)
@[simp] theorem modTdm_rt_clover (f : Tdm → Tdm) : (s.modTdm f).rt.clover = s.rt.clover := (rfl)
@[simp] theorem modTdm_rt_fault (f : Tdm → Tdm) : (s.modTdm f).rt.fault = s.rt.fault := (rfl)
@[simp] theorem modTdm_rt_power (f : Tdm → Tdm) : (s.modTdm f).rt.power = s.rt.power := (rfl)
@[simp] theorem modTdm_rt_test (f : Tdm → Tdm) : (s.modTdm f).rt.test = s.rt.test := (rfl)
@[simp] theorem modTdm_rt_mgmt (f : Tdm → Tdm) : (s.modTdm f).rt.mgmt = s.rt.mgmt := (rfl)
@[simp] theorem modTdm_rt_dram (f : Tdm → Tdm) : (s.modTdm f).rt.dram = s.rt.dram := (rfl)
@[simp] theorem modTdm_rt_mallow (f : Tdm → Tdm) : (s.modTdm f).rt.mallow = s.rt.mallow := (rfl)
@[simp] theorem modTdm_rt_audio (f : Tdm → Tdm) : (s.modTdm f).rt.audio = s.rt.audio := (rfl)
@[simp] theorem modTdm_rt_sec (f : Tdm → Tdm) : (s.modTdm f).rt.sec = s.rt.sec := (rfl)
@[simp] theorem modTdm_rt_net (f : Tdm → Tdm) : (s.modTdm f).rt.net = s.rt.net := (rfl)
@[simp] theorem modTdm_rt_fwd (f : Tdm → Tdm) : (s.modTdm f).rt.fwd = s.rt.fwd := (rfl)
@[simp] theorem modTdm_rt_video (f : Tdm → Tdm) : (s.modTdm f).rt.video = s.rt.video := (rfl)
@[simp] theorem modTdm_rt_recorder (f : Tdm → Tdm) : (s.modTdm f).rt.recorder = s.rt.recorder := (rfl)
@[simp] theorem modTdm_rt_dsp (f : Tdm → Tdm) : (s.modTdm f).rt.dsp = s.rt.dsp := (rfl)
@[simp] theorem modTdm_rt_tdm (f : Tdm → Tdm) : (s.modTdm f).rt.tdm = f s.rt.tdm := (rfl)
@[simp] theorem modTdm_rt_hsp (f : Tdm → Tdm) : (s.modTdm f).rt.hsp = s.rt.hsp := (rfl)
@[simp] theorem modTdm_rt_zip (f : Tdm → Tdm) : (s.modTdm f).rt.zip = s.rt.zip := (rfl)

/-! modEvq. -/

@[simp] theorem modEvq_pending (f : EvQ → EvQ) : (s.modEvq f).pending = s.pending := (rfl)
@[simp] theorem modEvq_free (f : EvQ → EvQ) : (s.modEvq f).free = s.free := (rfl)
@[simp] theorem modEvq_wire (f : EvQ → EvQ) : (s.modEvq f).wire = s.wire := (rfl)
@[simp] theorem modEvq_gens (f : EvQ → EvQ) : (s.modEvq f).gens = s.gens := (rfl)
@[simp] theorem modEvq_boot (f : EvQ → EvQ) : (s.modEvq f).boot = s.boot := (rfl)
@[simp] theorem modEvq_rt (f : EvQ → EvQ) : (s.modEvq f).rt = s.rt := (rfl)
@[simp] theorem modEvq_latch (f : EvQ → EvQ) : (s.modEvq f).latch = s.latch := (rfl)
@[simp] theorem modEvq_latchAt (f : EvQ → EvQ) : (s.modEvq f).latchAt = s.latchAt := (rfl)
@[simp] theorem modEvq_latchStats (f : EvQ → EvQ) : (s.modEvq f).latchStats = s.latchStats := (rfl)
@[simp] theorem modEvq_snap (f : EvQ → EvQ) : (s.modEvq f).snap = s.snap := (rfl)
@[simp] theorem modEvq_journal (f : EvQ → EvQ) : (s.modEvq f).journal = s.journal := (rfl)
@[simp] theorem modEvq_hostMem (f : EvQ → EvQ) : (s.modEvq f).hostMem = s.hostMem := (rfl)
@[simp] theorem modEvq_own (f : EvQ → EvQ) : (s.modEvq f).senak.evq = f s.senak.evq := (rfl)

/-! modPcie. -/

@[simp] theorem modPcie_pending (f : Pcie → Pcie) : (s.modPcie f).pending = s.pending := (rfl)
@[simp] theorem modPcie_free (f : Pcie → Pcie) : (s.modPcie f).free = s.free := (rfl)
@[simp] theorem modPcie_wire (f : Pcie → Pcie) : (s.modPcie f).wire = s.wire := (rfl)
@[simp] theorem modPcie_gens (f : Pcie → Pcie) : (s.modPcie f).gens = s.gens := (rfl)
@[simp] theorem modPcie_boot (f : Pcie → Pcie) : (s.modPcie f).boot = s.boot := (rfl)
@[simp] theorem modPcie_rt (f : Pcie → Pcie) : (s.modPcie f).rt = s.rt := (rfl)
@[simp] theorem modPcie_latch (f : Pcie → Pcie) : (s.modPcie f).latch = s.latch := (rfl)
@[simp] theorem modPcie_latchAt (f : Pcie → Pcie) : (s.modPcie f).latchAt = s.latchAt := (rfl)
@[simp] theorem modPcie_latchStats (f : Pcie → Pcie) : (s.modPcie f).latchStats = s.latchStats := (rfl)
@[simp] theorem modPcie_snap (f : Pcie → Pcie) : (s.modPcie f).snap = s.snap := (rfl)
@[simp] theorem modPcie_journal (f : Pcie → Pcie) : (s.modPcie f).journal = s.journal := (rfl)
@[simp] theorem modPcie_hostMem (f : Pcie → Pcie) : (s.modPcie f).hostMem = s.hostMem := (rfl)
@[simp] theorem modPcie_own (f : Pcie → Pcie) : (s.modPcie f).senak.pcie = f s.senak.pcie := (rfl)

/-! The named operations of time, output and free values. -/

@[simp] theorem advance_pending (t : Time) : (s.advance t).pending = s.pending := (rfl)
@[simp] theorem advance_free (t : Time) : (s.advance t).free = s.free := (rfl)
@[simp] theorem advance_wire (t : Time) : (s.advance t).wire = s.wire := (rfl)
@[simp] theorem advance_senak (t : Time) : (s.advance t).senak = s.senak := (rfl)
@[simp] theorem advance_gens (t : Time) : (s.advance t).gens = s.gens := (rfl)
@[simp] theorem advance_boot (t : Time) : (s.advance t).boot = s.boot := (rfl)
@[simp] theorem advance_latch (t : Time) : (s.advance t).latch = s.latch := (rfl)
@[simp] theorem advance_latchAt (t : Time) : (s.advance t).latchAt = s.latchAt := (rfl)
@[simp] theorem advance_latchStats (t : Time) : (s.advance t).latchStats = s.latchStats := (rfl)
@[simp] theorem advance_snap (t : Time) : (s.advance t).snap = s.snap := (rfl)
@[simp] theorem advance_journal (t : Time) : (s.advance t).journal = s.journal := (rfl)
@[simp] theorem advance_hostMem (t : Time) : (s.advance t).hostMem = s.hostMem := (rfl)
@[simp] theorem advance_rt_clover (t : Time) : (s.advance t).rt.clover = s.rt.clover := (rfl)
@[simp] theorem advance_rt_fault (t : Time) : (s.advance t).rt.fault = s.rt.fault := (rfl)
@[simp] theorem advance_rt_power (t : Time) : (s.advance t).rt.power = s.rt.power := (rfl)
@[simp] theorem advance_rt_test (t : Time) : (s.advance t).rt.test = s.rt.test := (rfl)
@[simp] theorem advance_rt_mgmt (t : Time) : (s.advance t).rt.mgmt = s.rt.mgmt := (rfl)
@[simp] theorem advance_rt_dram (t : Time) : (s.advance t).rt.dram = s.rt.dram := (rfl)
@[simp] theorem advance_rt_mallow (t : Time) : (s.advance t).rt.mallow = s.rt.mallow := (rfl)
@[simp] theorem advance_rt_audio (t : Time) : (s.advance t).rt.audio = s.rt.audio := (rfl)
@[simp] theorem advance_rt_sec (t : Time) : (s.advance t).rt.sec = s.rt.sec := (rfl)
@[simp] theorem advance_rt_net (t : Time) : (s.advance t).rt.net = s.rt.net := (rfl)
@[simp] theorem advance_rt_fwd (t : Time) : (s.advance t).rt.fwd = s.rt.fwd := (rfl)
@[simp] theorem advance_rt_video (t : Time) : (s.advance t).rt.video = s.rt.video := (rfl)
@[simp] theorem advance_rt_recorder (t : Time) : (s.advance t).rt.recorder = s.rt.recorder := (rfl)
@[simp] theorem advance_rt_dsp (t : Time) : (s.advance t).rt.dsp = s.rt.dsp := (rfl)
@[simp] theorem advance_rt_tdm (t : Time) : (s.advance t).rt.tdm = s.rt.tdm := (rfl)
@[simp] theorem advance_rt_hsp (t : Time) : (s.advance t).rt.hsp = s.rt.hsp := (rfl)
@[simp] theorem advance_rt_zip (t : Time) : (s.advance t).rt.zip = s.rt.zip := (rfl)
@[simp] theorem advance_now (t : Time) : (s.advance t).now = Nat.max s.now t := (rfl)
@[simp] theorem advance_up (t : Time) : (s.advance t).up = s.up + (t - s.now) := (rfl)
@[simp] theorem emit_pending (o : Output) : (s.emit o).pending = s.pending := (rfl)
@[simp] theorem emit_free (o : Output) : (s.emit o).free = s.free := (rfl)
@[simp] theorem emit_senak (o : Output) : (s.emit o).senak = s.senak := (rfl)
@[simp] theorem emit_gens (o : Output) : (s.emit o).gens = s.gens := (rfl)
@[simp] theorem emit_boot (o : Output) : (s.emit o).boot = s.boot := (rfl)
@[simp] theorem emit_rt (o : Output) : (s.emit o).rt = s.rt := (rfl)
@[simp] theorem emit_latch (o : Output) : (s.emit o).latch = s.latch := (rfl)
@[simp] theorem emit_latchAt (o : Output) : (s.emit o).latchAt = s.latchAt := (rfl)
@[simp] theorem emit_latchStats (o : Output) : (s.emit o).latchStats = s.latchStats := (rfl)
@[simp] theorem emit_snap (o : Output) : (s.emit o).snap = s.snap := (rfl)
@[simp] theorem emit_journal (o : Output) : (s.emit o).journal = s.journal := (rfl)
@[simp] theorem emit_hostMem (o : Output) : (s.emit o).hostMem = s.hostMem := (rfl)
@[simp] theorem emit_wire (o : Output) : (s.emit o).wire = o :: s.wire := (rfl)
@[simp] theorem draw_pending  : s.draw.2.pending = s.pending := (rfl)
@[simp] theorem draw_wire  : s.draw.2.wire = s.wire := (rfl)
@[simp] theorem draw_senak  : s.draw.2.senak = s.senak := (rfl)
@[simp] theorem draw_gens  : s.draw.2.gens = s.gens := (rfl)
@[simp] theorem draw_boot  : s.draw.2.boot = s.boot := (rfl)
@[simp] theorem draw_rt  : s.draw.2.rt = s.rt := (rfl)
@[simp] theorem draw_latch  : s.draw.2.latch = s.latch := (rfl)
@[simp] theorem draw_latchAt  : s.draw.2.latchAt = s.latchAt := (rfl)
@[simp] theorem draw_latchStats  : s.draw.2.latchStats = s.latchStats := (rfl)
@[simp] theorem draw_snap  : s.draw.2.snap = s.snap := (rfl)
@[simp] theorem draw_journal  : s.draw.2.journal = s.journal := (rfl)
@[simp] theorem draw_hostMem  : s.draw.2.hostMem = s.hostMem := (rfl)

end Sys2Proof.Laws
end

