-- ==== Sys2Proof/Laws/Cmd.lean ====
section
/-! SUPPORT. What raising an event, sending a vector and completing a command can do, said once. -/

namespace Sys2Proof.Machine

open Sys2Proof.Laws

theorem Beside.refl (u : State) : Beside u u := rfl

theorem Beside.trans {u v w : State} (h : Beside u v) (k : Beside v w) : Beside u w := by
  unfold Beside at *
  rw [k, h]

/-- What an event or a vector may change: the events, the log, the counters and the vectors, but no slot and no slot's bits. -/
structure Aside (s t : State) : Prop where
  beside : Beside s t
  slots : t.senak.slots = s.senak.slots
  busy : t.senak.busy = s.senak.busy
  done : t.senak.done = s.senak.done

theorem Aside.refl (s : State) : Aside s s := ⟨.refl s, rfl, rfl, rfl⟩

theorem Aside.trans {u v w : State} (h : Aside u v) (k : Aside v w) : Aside u w :=
  ⟨h.beside.trans k.beside, k.slots.trans h.slots, k.busy.trans h.busy, k.done.trans h.done⟩

theorem aside_logEvent (e : Event) (up : Time) (s : State) : Aside s (s.modMgmt (Mgmt.logEvent e up)) := ⟨rfl, rfl, rfl, rfl⟩

theorem aside_queueEvent (e : Event) (s : State) : Aside s (s.modSenak (Senak.queueEvent e)) := by
  by_cases h : s.senak.evq.marker = 0 ∧ s.senak.evq.backlog.length < 255
  · have e : s.modSenak (Senak.queueEvent e) = s.modSenak fun h => { h with evq := { h.evq with backlog := h.evq.backlog ++ [e] } } := by
      simp only [State.modSenak, Senak.queueEvent, if_pos h]
    rw [e]
    exact ⟨rfl, rfl, rfl, rfl⟩
  · have e : s.modSenak (Senak.queueEvent e) = s.modSenak fun h => { h with
        evq := { h.evq with lost := satAdd 65535 h.evq.lost 1, marker := h.evq.marker + 1 }
        devFault := h.devFault ||| 2#6
        stats := bump h.stats 0x18 } := by
      simp only [State.modSenak, Senak.queueEvent, if_neg h]
    rw [e]
    exact ⟨rfl, rfl, rfl, rfl⟩

theorem aside_raiseAt (t : Time) (e : Event) (s : State) : Aside s (s.raiseAt t e) := by
  unfold State.raiseAt
  dsimp only
  split
  · exact .refl s
  · split <;> split
    · exact (aside_logEvent _ _ s).trans (aside_queueEvent _ _)
    · exact aside_logEvent _ _ s
    · exact aside_queueEvent _ _
    · exact .refl s

theorem aside_raise (e : Event) (s : State) : Aside s (s.raise e) := aside_raiseAt s.now e s

theorem aside_post (code sev obj detail : Nat) (s : State) : Aside s (s.post code sev obj detail) := aside_raise _ s

theorem aside_postIf (c : Bool) (code sev obj detail : Nat) (s : State) : Aside s (s.postIf c code sev obj detail) := by
  unfold State.postIf
  split
  · exact aside_post _ _ _ _ s
  · exact .refl s

theorem aside_sendVector (v : Nat) (s : State) : Aside s (s.sendVector v) := by
  unfold State.sendVector
  dsimp only
  split <;> exact ⟨rfl, rfl, rfl, rfl⟩

theorem aside_countFailed (st : Status) (s : State) : Aside s (s.countFailed st) := by
  unfold State.countFailed
  split <;> exact ⟨rfl, rfl, rfl, rfl⟩

/-- The response in its slot, BUSY and DONE, before what the answer brings with it. -/
def answered (r : Request) (seq gen : Nat) (rep : Reply) : State :=
  rep.st.modSenak fun h => { h with
    slots := memWrite (memWrite rep.st.senak.slots (r.slot.val * 1024 + 0x20) rep.data) (r.slot.val * 1024)
      (responseHeader r seq gen rep.status rep.detail rep.data)
    busy := h.busy &&& ~~~(1#64 <<< r.slot.val), done := h.done ||| (1#64 <<< r.slot.val) }

/-- The answer, then the failure count, vector 1 and SYS.CMD_DONE. -/
theorem aside_finishCmd (r : Request) (seq gen : Nat) (rep : Reply) : Aside (answered r seq gen rep) (finishCmd r seq gen rep) := by
  have e : finishCmd r seq gen rep =
      (let s := (answered r seq gen rep).countFailed rep.status
       let s := if s.senak.irq.getLsbD r.slot.val then s.sendVector 1 else s
       if r.flags.getLsbD 0 && rep.status != .pending then s.cmdDone r.slot.val r.hostSeq.toNat rep.status rep.detail else s) := rfl
  rw [e]
  generalize answered r seq gen rep = v
  dsimp only
  split <;> split
  · exact ((aside_countFailed _ _).trans (aside_sendVector _ _)).trans (aside_raise _ _)
  · exact (aside_countFailed _ _).trans (aside_raise _ _)
  · exact (aside_countFailed _ _).trans (aside_sendVector _ _)
  · exact aside_countFailed _ _

theorem beside_slots (m : Mem) (b d : Senak → BitVec 64) (s : State) :
    Beside s (s.modSenak fun h => { h with slots := m, busy := b h, done := d h }) := rfl

theorem beside_finishCmd (r : Request) (seq gen : Nat) (rep : Reply) : Beside rep.st (finishCmd r seq gen rep) := by
  refine Beside.trans ?_ (aside_finishCmd r seq gen rep).beside
  exact beside_slots _ _ _ _

/-- Reads depend on the bytes read. -/
theorem memRead_congr {m m' : Mem} {a n : Nat} (h : ∀ i, i < n → memGet m (a + i) = memGet m' (a + i)) :
    memRead m a n = memRead m' a n := by
  induction n generalizing a with
  | zero => rfl
  | succ n ih =>
    rw [memRead, memRead, ih (fun i hi => ?_), show memGet m a = memGet m' a from h 0 (by omega)]
    have := h (i + 1) (by omega)
    rwa [show a + (i + 1) = a + 1 + i by omega] at this

/-- The answer stands in its slot. -/
theorem answered_finishCmd (r : Request) (seq gen : Nat) (rep : Reply) (s : State) (hw : s.senak.slots.wf = true)
    (h1 : rep.st.senak.slots = s.senak.slots) (h2 : rep.st.senak.busy = s.senak.busy) (h3 : rep.st.senak.done = s.senak.done) :
    Answered r seq gen rep.status rep.detail rep.data s (finishCmd r seq gen rep) := by
  have e1 := (aside_finishCmd r seq gen rep).slots
  have e2 := (aside_finishCmd r seq gen rep).busy
  have e3 := (aside_finishCmd r seq gen rep).done
  simp only [answered, State.modSenak] at e1 e2 e3
  have hl : (responseHeader r seq gen rep.status rep.detail rep.data).length = 32 := by
    simp [responseHeader, le, zeros]
  refine ⟨?_, ?_, ?_, by rw [e2, h2], by rw [e3, h3]⟩
  · rw [e1, ← hl, memRead_memWrite (memWrite_wf _ _ (h1 ▸ hw))]
  · rw [e1, memRead_congr (m' := memWrite rep.st.senak.slots (r.slot.val * 1024 + 0x20) rep.data), memRead_memWrite (h1 ▸ hw)]
    intro i hi
    rw [memGet_memWrite (memWrite_wf _ _ (h1 ▸ hw)), if_neg (by omega)]
  · intro a ha
    rw [e1, memGet_memWrite (memWrite_wf _ _ (h1 ▸ hw)), if_neg (by omega), memGet_memWrite (h1 ▸ hw), if_neg (by omega), h1]

/-- What running a command is, once its checks pass. -/
theorem runCmd_passes {c : Cmd} {r : Request} {s : State} {rep : Reply} (hp : c.passes r s = true)
    (h : c.run r (c.genOf r s) (c.acting r s) = rep) :
    runCmd c r s =
      if rep.status = .ok then finishCmd r s.senak.nextSeq (rep.gen.getD (c.reported r s)) rep
      else if rep.status = .pending then
        if s.senak.pending.length < 16 then finishCmd r s.senak.nextSeq (rep.gen.getD (c.reported r s)) rep
        else finishCmd r s.senak.nextSeq r.gen.toNat (failWith (startCmd r s) (.noResource, 0))
      else finishCmd r s.senak.nextSeq r.gen.toNat rep := by
  simp only [Cmd.passes, Bool.and_eq_true, Option.isNone_iff_eq_none] at hp
  have hgen : c.genOf r (startCmd r s) = c.genOf r s := by
    unfold Cmd.genOf
    cases c.gmode <;> rfl
  have heff : c.effect r (startCmd r s) = rep := by
    rw [Cmd.effect, hgen]
    exact h
  rw [runCmd, if_pos (by simpa using hp.1), hp.2]
  dsimp only
  rw [applyCmd, Cmd.genField, heff, hgen]
  rfl

/-- The slots and their bits as a command finds them. -/
theorem acting_slots (c : Cmd) (r : Request) (s : State) : (c.acting r s).senak.slots = s.senak.slots ∧
    (c.acting r s).senak.busy = s.senak.busy ∧ (c.acting r s).senak.done = s.senak.done := by
  unfold Cmd.acting Cmd.demand
  split
  · unfold wakeDomain
    simp only [State.modPower, State.modRt]
    exact ⟨rfl, rfl, rfl⟩
  · exact ⟨rfl, rfl, rfl⟩

theorem Answered.aside {r : Request} {seq gen : Nat} {st : Status} {detail : Nat} {data : Bytes} {s t u : State}
    (h : Answered r seq gen st detail data s t) (k : Aside t u) : Answered r seq gen st detail data s u := by
  refine ⟨?_, ?_, ?_, ?_, ?_⟩
  · rw [k.slots]; exact h.headerAt
  · rw [k.slots]; exact h.dataAt
  · rw [k.slots]; exact h.others
  · rw [k.busy]; exact h.busyAt
  · rw [k.done]; exact h.doneAt

/-- How a row of the command group completes: enough that its effect answers that status and leaves the slots to the answer. -/
theorem completes_of {c : Cmd} {row : Request → Instr} {st : Status} {Q : Request → State → Prop}
    {U : Request → State → State} {D : Request → Generation → State → Bytes → Prop}
    (hrow : ∀ r s, c.passes r s = true → ∃ v, exec (row r) s = .next v ∧ Aside (runCmd c r s) v)
    (hst : st = .ok ∨ st = .pending)
    (hU : ∀ r s, (U r s).senak.slots = s.senak.slots ∧ (U r s).senak.busy = s.senak.busy ∧ (U r s).senak.done = s.senak.done)
    (h : ∀ r g s, Q r s → ∃ data, c.run r g s = { status := st, data := data, st := U r s } ∧ D r g s data) :
    Completes c row st Q U D := by
  intro r s hs hp hroom hq
  obtain ⟨data, hrun, hd⟩ := h r (c.genOf r s) (c.acting r s) hq
  have hfin := runCmd_passes hp hrun
  have hfin : runCmd c r s = finishCmd r s.senak.nextSeq (c.reported r s) { status := st, data := data, st := U r (c.acting r s) } := by
    rw [hfin]
    rcases hst with rfl | rfl
    · simp
    · simp [hroom rfl]
  obtain ⟨v, hv1, hv2⟩ := hrow r s hp
  have hact := acting_slots c r s
  have hw : s.senak.slots.wf = true := by
    simp only [Safe, State.memWf, Bool.and_eq_true] at hs
    exact hs.1.2
  obtain ⟨u1, u2, u3⟩ := hU r (c.acting r s)
  have ha := answered_finishCmd r s.senak.nextSeq (c.reported r s) { status := st, data := data, st := U r (c.acting r s) } s hw
    (u1.trans hact.1) (u2.trans hact.2.1) (u3.trans hact.2.2)
  rw [← hfin] at ha
  refine ⟨data, v, hv1, ha.aside hv2, hd, ?_⟩
  refine Beside.trans ?_ hv2.beside
  rw [hfin]
  exact beside_finishCmd _ _ _ _

/-- A row that is only its command. -/
theorem completes_cmd {c : Cmd} {row : Request → Instr} {st : Status} {Q : Request → State → Prop}
    {U : Request → State → State} {D : Request → Generation → State → Bytes → Prop}
    (hrow : ∀ r s, exec (row r) s = execCmd c r s) (hst : st = .ok ∨ st = .pending)
    (hU : ∀ r s, (U r s).senak.slots = s.senak.slots ∧ (U r s).senak.busy = s.senak.busy ∧ (U r s).senak.done = s.senak.done)
    (h : ∀ r g s, Q r s → ∃ data, c.run r g s = { status := st, data := data, st := U r s } ∧ D r g s data) :
    Completes c row st Q U D :=
  completes_of (fun r s _ => ⟨runCmd c r s, hrow r s, .refl _⟩) hst hU h

end Sys2Proof.Machine
end

