-- ==== Sys2Proof/Laws/Keep.lean ====
section
/-! SUPPORT. What most operations leave alone: the queue, the three addressed memories, the life cycle, the fuses, the rollback counter, the active generation, and BUSY and DONE. -/

namespace Sys2Proof.Laws

open Sys2Proof.Machine

/-- The queue, the life cycle, the fuses and the rollback counter. -/
structure Held where
  pending : List Instr
  lifecycle : Nat
  otp : BitVec 3
  rollback : Nat

/-- The three addressed memories: the slots, host memory as the device knows it, and DRAM. -/
structure Mems where
  slots : Mem
  host : Mem
  dram : Mem

/-- The three memories are in canonical form. -/
def Mems.canon (m : Mems) : Prop := m.slots.wf = true ∧ m.host.wf = true ∧ m.dram.wf = true

/-- What only a few named operations change. -/
structure Kept where
  held : Held
  active : Generation
  mems : Mems
  /-- BUSY and DONE of the slots. -/
  bits : BitVec 64 × BitVec 64

/-- The key of a state. -/
def keyOf (s : State) : Kept :=
  ⟨⟨s.pending, s.rt.mgmt.lifecycle, s.rt.mgmt.otp, s.rt.mgmt.rollback⟩, s.gens.active, ⟨s.senak.slots, s.hostMem, s.rt.dram.mem⟩, (s.senak.busy, s.senak.done)⟩

theorem canon_iff (s : State) : (keyOf s).mems.canon ↔ s.memWf = true := by
  simp only [Mems.canon, keyOf, State.memWf, Bool.and_eq_true]
  constructor <;> (rintro ⟨⟩; simp_all)

/-- The key of a state written out. -/
theorem kept_mk (a : List Instr) (n : Nat) (w : List Output) (h : Senak) (g : Gens) (b : Boot) (r l : Runtime) (la : Time)
    (st : Map Nat) (sn : Option Snapshot) (j : Journal) (m : Mem) :
    keyOf ⟨a, n, w, h, g, b, r, l, la, st, sn, j, m⟩ =
      ⟨⟨a, r.mgmt.lifecycle, r.mgmt.otp, r.mgmt.rollback⟩, g.active, ⟨h.slots, m, r.dram.mem⟩, (h.busy, h.done)⟩ := rfl

@[simp] theorem kept_lit (s : State) (n : Nat) (w : List Output) (h : Senak) (g : Gens) (b : Boot) (r l : Runtime) (la : Time)
    (st : Map Nat) (sn : Option Snapshot) (j : Journal) (h1 : h.slots = s.senak.slots) (h2 : r.dram.mem = s.rt.dram.mem)
    (h3 : r.mgmt.lifecycle = s.rt.mgmt.lifecycle) (h4 : r.mgmt.otp = s.rt.mgmt.otp) (h5 : r.mgmt.rollback = s.rt.mgmt.rollback)
    (h6 : g.active = s.gens.active) (h7 : h.busy = s.senak.busy) (h8 : h.done = s.senak.done) :
    keyOf ⟨s.pending, n, w, h, g, b, r, l, la, st, sn, j, s.hostMem⟩ = keyOf s := by
  simp [keyOf, h1, h2, h3, h4, h5, h6, h7, h8]

section
variable (s : State)

@[simp] theorem kept_modSenak (f : Senak → Senak) (h : (f s.senak).slots = s.senak.slots)
    (h2 : (f s.senak).busy = s.senak.busy) (h3 : (f s.senak).done = s.senak.done) : keyOf (s.modSenak f) = keyOf s := by
  simp [keyOf, h, h2, h3]
@[simp] theorem kept_modGens (f : Gens → Gens) (h : (f s.gens).active = s.gens.active) : keyOf (s.modGens f) = keyOf s := by
  simp [keyOf, h]
@[simp] theorem kept_modBoot (f : Boot → Boot) : keyOf (s.modBoot f) = keyOf s := (rfl)
@[simp] theorem kept_modRt (f : Runtime → Runtime) (h1 : (f s.rt).dram.mem = s.rt.dram.mem)
    (h2 : (f s.rt).mgmt.lifecycle = s.rt.mgmt.lifecycle) (h3 : (f s.rt).mgmt.otp = s.rt.mgmt.otp)
    (h4 : (f s.rt).mgmt.rollback = s.rt.mgmt.rollback) : keyOf (s.modRt f) = keyOf s := by
  simp [keyOf, h1, h2, h3, h4]
@[simp] theorem kept_modMgmt (f : Mgmt → Mgmt)
    (h2 : (f s.rt.mgmt).lifecycle = s.rt.mgmt.lifecycle) (h3 : (f s.rt.mgmt).otp = s.rt.mgmt.otp)
    (h4 : (f s.rt.mgmt).rollback = s.rt.mgmt.rollback) : keyOf (s.modMgmt f) = keyOf s := by
  simp [keyOf, State.modMgmt, h2, h3, h4]
@[simp] theorem kept_modDram (f : Dram → Dram) (h : (f s.rt.dram).mem = s.rt.dram.mem) : keyOf (s.modDram f) = keyOf s := by
  simp [keyOf, State.modDram, h]
@[simp] theorem kept_modTime (f : TimeBlk → TimeBlk) : keyOf (s.modTime f) = keyOf s := (rfl)
@[simp] theorem kept_modClover (f : Clover → Clover) : keyOf (s.modClover f) = keyOf s := (rfl)
@[simp] theorem kept_modFault (f : FaultBlk → FaultBlk) : keyOf (s.modFault f) = keyOf s := (rfl)
@[simp] theorem kept_modPower (f : Power → Power) : keyOf (s.modPower f) = keyOf s := (rfl)
@[simp] theorem kept_modTest (f : TestBlk → TestBlk) : keyOf (s.modTest f) = keyOf s := (rfl)
@[simp] theorem kept_modMallow (f : Mallow → Mallow) : keyOf (s.modMallow f) = keyOf s := (rfl)
@[simp] theorem kept_modAudio (f : Audio → Audio) : keyOf (s.modAudio f) = keyOf s := (rfl)
@[simp] theorem kept_modSec (f : Sec → Sec) : keyOf (s.modSec f) = keyOf s := (rfl)
@[simp] theorem kept_modNet (f : Net → Net) : keyOf (s.modNet f) = keyOf s := (rfl)
@[simp] theorem kept_modFwd (f : Fwd → Fwd) : keyOf (s.modFwd f) = keyOf s := (rfl)
@[simp] theorem kept_modVideo (f : Video → Video) : keyOf (s.modVideo f) = keyOf s := (rfl)
@[simp] theorem kept_modRec (f : Rec → Rec) : keyOf (s.modRec f) = keyOf s := (rfl)
@[simp] theorem kept_modDsp (f : Dsp → Dsp) : keyOf (s.modDsp f) = keyOf s := (rfl)
@[simp] theorem kept_modTdm (f : Tdm → Tdm) : keyOf (s.modTdm f) = keyOf s := (rfl)
@[simp] theorem kept_modHsp (h : Nat) (f : HspPort → HspPort) : keyOf (modHsp h f s) = keyOf s := (rfl)
@[simp] theorem kept_modEvq (f : EvQ → EvQ) : keyOf (s.modEvq f) = keyOf s := (rfl)
@[simp] theorem kept_modPcie (f : Pcie → Pcie) : keyOf (s.modPcie f) = keyOf s := (rfl)

end

@[simp] theorem kept_ite (c : Prop) [Decidable c] (a b : State) : keyOf (if c then a else b) = if c then keyOf a else keyOf b :=
  apply_ite _ _ _ _

/-- A fold of steps that each leave a projection leaves it. -/
theorem foldl_keeps {α β : Type} (p : State → β) (f : State → α → State) (h : ∀ s a, p (f s a) = p s) (l : List α) (s : State) :
    p (l.foldl f s) = p s := by
  induction l generalizing s with
  | nil => rfl
  | cons a l ih => rw [List.foldl_cons, ih, h]

@[simp] theorem kept_foldl {α : Type} (f : State → α → State) (h : ∀ s a, keyOf (f s a) = keyOf s) (l : List α) (s : State) :
    keyOf (l.foldl f s) = keyOf s := foldl_keeps keyOf f h l s

/-- A fold that threads a state beside other data. -/
theorem kept_foldl2 {α β : Type} (f : β × State → α → β × State) (h : ∀ r a, keyOf (f r a).2 = keyOf r.2) (l : List α) (r : β × State) :
    keyOf (l.foldl f r).2 = keyOf r.2 := by
  induction l generalizing r with
  | nil => rfl
  | cons a l ih => rw [List.foldl_cons, ih, h]

@[simp] theorem ite_held (c : Prop) [Decidable c] (a b : Kept) : (if c then a else b).held = if c then a.held else b.held :=
  apply_ite _ _ _ _

@[simp] theorem ite_active (c : Prop) [Decidable c] (a b : Kept) : (if c then a else b).active = if c then a.active else b.active :=
  apply_ite _ _ _ _
@[simp] theorem ite_mems (c : Prop) [Decidable c] (a b : Kept) : (if c then a else b).mems = if c then a.mems else b.mems :=
  apply_ite _ _ _ _

@[simp] theorem active_foldl {α : Type} (f : State → α → State) (h : ∀ s a, (keyOf (f s a)).active = (keyOf s).active) (l : List α)
    (s : State) : (keyOf (l.foldl f s)).active = (keyOf s).active := foldl_keeps (fun s => (keyOf s).active) f h l s

@[simp] theorem held_foldl {α : Type} (f : State → α → State) (h : ∀ s a, (keyOf (f s a)).held = (keyOf s).held) (l : List α) (s : State) :
    (keyOf (l.foldl f s)).held = (keyOf s).held := foldl_keeps (fun s => (keyOf s).held) f h l s

theorem canon_foldl {α : Type} (f : State → α → State) (h : ∀ s a, (keyOf s).mems.canon → (keyOf (f s a)).mems.canon) (l : List α) (s : State)
    (hs : (keyOf s).mems.canon) : (keyOf (l.foldl f s)).mems.canon := by
  induction l generalizing s with
  | nil => exact hs
  | cons a l ih => exact ih _ (h _ _ hs)

@[simp] theorem logEvent_lifecycle (e : Event) (up : Time) (m : Mgmt) : (m.logEvent e up).lifecycle = m.lifecycle := (rfl)
@[simp] theorem logEvent_otp (e : Event) (up : Time) (m : Mgmt) : (m.logEvent e up).otp = m.otp := (rfl)
@[simp] theorem logEvent_rollback (e : Event) (up : Time) (m : Mgmt) : (m.logEvent e up).rollback = m.rollback := (rfl)
@[simp] theorem queueEvent_slots (e : Event) (h : Senak) : (h.queueEvent e).slots = h.slots := by
  unfold Senak.queueEvent; split <;> rfl
@[simp] theorem queueEvent_busy (e : Event) (h : Senak) : (h.queueEvent e).busy = h.busy := by
  unfold Senak.queueEvent; split <;> rfl
@[simp] theorem queueEvent_done (e : Event) (h : Senak) : (h.queueEvent e).done = h.done := by
  unfold Senak.queueEvent; split <;> rfl

theorem canon_modDram {s : State} {f : Dram → Dram} (h : (keyOf s).mems.canon)
    (hf : s.rt.dram.mem.wf = true → (f s.rt.dram).mem.wf = true) : (keyOf (s.modDram f)).mems.canon :=
  ⟨h.1, h.2.1, hf h.2.2⟩

theorem canon_modSenak {s : State} {f : Senak → Senak} (h : (keyOf s).mems.canon)
    (hf : s.senak.slots.wf = true → (f s.senak).slots.wf = true) : (keyOf (s.modSenak f)).mems.canon :=
  ⟨hf h.1, h.2.1, h.2.2⟩

theorem canon_host {s : State} (m : Mem) (h : (keyOf s).mems.canon) (hm : m.wf = true) :
    (keyOf { s with hostMem := m }).mems.canon := ⟨h.1, hm, h.2.2⟩

theorem canon_ite {c : Prop} [Decidable c] {a b : State} (ha : (keyOf a).mems.canon) (hb : (keyOf b).mems.canon) :
    (keyOf (if c then a else b)).mems.canon := by split <;> assumption

@[simp] theorem active_modDram (f : Dram → Dram) (s : State) : (keyOf (s.modDram f)).active = (keyOf s).active := (rfl)
@[simp] theorem held_modDram (f : Dram → Dram) (s : State) : (keyOf (s.modDram f)).held = (keyOf s).held := (rfl)
@[simp] theorem active_modSenak (f : Senak → Senak) (s : State) : (keyOf (s.modSenak f)).active = (keyOf s).active := (rfl)
@[simp] theorem held_modSenak (f : Senak → Senak) (s : State) : (keyOf (s.modSenak f)).held = (keyOf s).held := (rfl)
@[simp] theorem active_host (m : Mem) (s : State) : (keyOf { s with hostMem := m }).active = (keyOf s).active := (rfl)
@[simp] theorem held_host (m : Mem) (s : State) : (keyOf { s with hostMem := m }).held = (keyOf s).held := (rfl)

@[simp] theorem held_modGens (f : Gens → Gens) (s : State) : (keyOf (s.modGens f)).held = (keyOf s).held := (rfl)
@[simp] theorem mems_modSenak (f : Senak → Senak) (s : State) (h : (f s.senak).slots = s.senak.slots) :
    (keyOf (s.modSenak f)).mems = (keyOf s).mems := by simp [keyOf, h]
@[simp] theorem mems_modGens (f : Gens → Gens) (s : State) : (keyOf (s.modGens f)).mems = (keyOf s).mems := (rfl)
@[simp] theorem active_modGens (f : Gens → Gens) (s : State) : (keyOf (s.modGens f)).active = (f s.gens).active := (rfl)
@[simp] theorem active_modMgmt (f : Mgmt → Mgmt) (s : State) : (keyOf (s.modMgmt f)).active = (keyOf s).active := (rfl)
@[simp] theorem mems_modMgmt (f : Mgmt → Mgmt) (s : State) : (keyOf (s.modMgmt f)).mems = (keyOf s).mems := (rfl)

@[simp] theorem mirrorAll_lifecycle (m : Mgmt) : m.mirrorAll.lifecycle = m.lifecycle := (rfl)
@[simp] theorem mirrorAll_otp (m : Mgmt) : m.mirrorAll.otp = m.otp := (rfl)
@[simp] theorem mirrorAll_rollback (m : Mgmt) : m.mirrorAll.rollback = m.rollback := (rfl)
@[simp] theorem cold_lifecycle (m : Mgmt) : m.cold.lifecycle = m.lifecycle := (rfl)
@[simp] theorem cold_otp (m : Mgmt) : m.cold.otp = m.otp := (rfl)
@[simp] theorem cold_rollback (m : Mgmt) : m.cold.rollback = m.rollback := (rfl)
@[simp] theorem gensWarm_active (g : Gens) : g.warm.active = g.active := (rfl)
@[simp] theorem activated_active (a : Armed) (now : Time) (g : Gens) : (g.activated a now).active = a.gen := (rfl)
@[simp] theorem senakWarm_slots (h : Senak) : h.warm.slots = [] := (rfl)
@[simp] theorem runtimeWarm_dram (r : Runtime) : r.warm.dram = r.dram := (rfl)
@[simp] theorem runtimeWarm_mgmt (r : Runtime) : r.warm.mgmt = r.mgmt := (rfl)
@[simp] theorem endpointReset_slots (h : Senak) : h.endpointReset.slots = [] := (rfl)

@[simp] theorem rest_gens (s : State) (g : Gens) (b : Boot) :
    (keyOf { s with boot := b, gens := g }).held = (keyOf s).held ∧ (keyOf { s with boot := b, gens := g }).mems = (keyOf s).mems :=
  ⟨(rfl), (rfl)⟩

@[simp] theorem okWith_st (s : State) (d : Bytes) : (okWith s d).st = s := (rfl)
@[simp] theorem okWith_status (s : State) (d : Bytes) : (okWith s d).status = .ok := (rfl)
@[simp] theorem okWith_data (s : State) (d : Bytes) : (okWith s d).data = d := (rfl)
@[simp] theorem failWith_st (s : State) (f : Fail) : (failWith s f).st = s := (rfl)
@[simp] theorem ite_st (c : Prop) [Decidable c] (a b : Reply) : (if c then a else b).st = if c then a.st else b.st := apply_ite _ _ _ _

@[simp] theorem openStaged_active (g : Generation) (x : Gens) : (Gens.openStaged g x).active = x.active := (rfl)


/-! Ops. -/

@[simp] theorem kept_State_advance (t : Time) (s : State) :
    keyOf (State.advance t s) = keyOf s := by
  simp [State.advance]

@[simp] theorem kept_State_emit (o : Output) (s : State) :
    keyOf (State.emit o s) = keyOf s := by
  simp [State.emit]

@[simp] theorem kept_State_draw (s : State) :
    keyOf (State.draw s).2 = keyOf s := by
  simp [State.draw]

@[simp] theorem kept_State_setPin (p : Nat) (v : Bool) (s : State) :
    keyOf (State.setPin p v s) = keyOf s := by
  simp [State.setPin]

@[simp] theorem kept_wakeDomain (b : Nat) (s : State) :
    keyOf (wakeDomain b s) = keyOf s := by
  simp [wakeDomain]

@[simp] theorem kept_State_sendVector (v : Nat) (s : State) :
    keyOf (State.sendVector v s) = keyOf s := by
  simp [State.sendVector]

@[simp] theorem kept_State_sendHeld (v : Nat) (s : State) :
    keyOf (State.sendHeld v s) = keyOf s := by
  simp [State.sendHeld]

@[simp] theorem kept_State_releaseVectors (s : State) :
    keyOf (State.releaseVectors s) = keyOf s := by
  simp [State.releaseVectors]

@[simp] theorem kept_State_raiseAt (t : Time) (e : Event) (s : State) :
    keyOf (State.raiseAt t e s) = keyOf s := by
  simp [State.raiseAt]

@[simp] theorem kept_State_raise (e : Event) (s : State) :
    keyOf (State.raise e s) = keyOf s := by
  simp [State.raise]

@[simp] theorem kept_State_post (code sev obj detail : Nat) (s : State) :
    keyOf (State.post code sev obj detail s) = keyOf s := by
  simp [State.post]

@[simp] theorem kept_State_postIf (c : Bool) (code sev obj detail : Nat) (s : State) :
    keyOf (State.postIf c code sev obj detail s) = keyOf s := by
  simp [State.postIf]

@[simp] theorem kept_State_cmdDone (slot hostSeq : Nat) (st : Status) (detail : Nat) (s : State) :
    keyOf (State.cmdDone slot hostSeq st detail s) = keyOf s := by
  simp [State.cmdDone]

@[simp] theorem kept_State_countFailed (st : Status) (s : State) :
    keyOf (State.countFailed st s) = keyOf s := by
  simp [State.countFailed]

@[simp] theorem rest_finishCmd (r : Request) (seq gen : Nat) (rep : Reply) :
    (keyOf (finishCmd r seq gen rep)).held = (keyOf rep.st).held ∧ (keyOf (finishCmd r seq gen rep)).active = (keyOf rep.st).active := by
  constructor <;> simp [finishCmd]

theorem canon_finishCmd (r : Request) (seq gen : Nat) (rep : Reply) (h : (keyOf rep.st).mems.canon) :
    (keyOf (finishCmd r seq gen rep)).mems.canon := by
  unfold finishCmd; dsimp only
  simp only [kept_ite, kept_State_cmdDone, kept_State_sendVector, kept_State_countFailed, ite_self]
  refine canon_modSenak h fun hm => ?_
  dsimp only
  exact memWrite_wf _ _ (memWrite_wf _ _ hm)

@[simp] theorem kept_startCmd (r : Request) (s : State) :
    keyOf (startCmd r s) = keyOf s := by
  simp [startCmd]

@[simp] theorem kept_Cmd_demand (c : Cmd) (s : State) :
    keyOf (Cmd.demand c s) = keyOf s := by
  unfold Cmd.demand; split <;> simp

/-- A command keeps what its effect keeps. -/
theorem active_applyCmd (c : Cmd) (r : Request) (seq : Nat) (s : State) (h : ∀ r g s, (keyOf (c.run r g s).st).active = (keyOf s).active) :
    (keyOf (applyCmd c r seq s)).active = (keyOf s).active := by
  unfold applyCmd; dsimp only
  have e : (keyOf (c.effect r s).st).active = (keyOf s).active := by rw [Cmd.effect, h]; simp
  split
  · simp [e]
  · split
    · split <;> simp [failWith, e]
    · simp [e]

theorem active_runCmd (c : Cmd) (r : Request) (s : State) (h : ∀ r g s, (keyOf (c.run r g s).st).active = (keyOf s).active) :
    (keyOf (runCmd c r s)).active = (keyOf s).active := by
  simp only [runCmd]
  repeat' split
  all_goals first | (rw [active_applyCmd c _ _ _ h]; simp) | simp [failWith]

/-- A command keeps what its effect keeps. -/
theorem held_applyCmd (c : Cmd) (r : Request) (seq : Nat) (s : State) (h : ∀ r g s, (keyOf (c.run r g s).st).held = (keyOf s).held) :
    (keyOf (applyCmd c r seq s)).held = (keyOf s).held := by
  unfold applyCmd; dsimp only
  have e : (keyOf (c.effect r s).st).held = (keyOf s).held := by rw [Cmd.effect, h]; simp
  split
  · simp [e]
  · split
    · split <;> simp [failWith, e]
    · simp [e]

theorem held_runCmd (c : Cmd) (r : Request) (s : State) (h : ∀ r g s, (keyOf (c.run r g s).st).held = (keyOf s).held) :
    (keyOf (runCmd c r s)).held = (keyOf s).held := by
  simp only [runCmd]
  repeat' split
  all_goals first | (rw [held_applyCmd c _ _ _ h]; simp) | simp [failWith]

/-- A command keeps the memories canonical where its effect does. -/
theorem canon_applyCmd (c : Cmd) (r : Request) (seq : Nat) (s : State)
    (h : ∀ r g s, (keyOf s).mems.canon → (keyOf (c.run r g s).st).mems.canon) (hs : (keyOf s).mems.canon) :
    (keyOf (applyCmd c r seq s)).mems.canon := by
  unfold applyCmd; dsimp only
  have e : (keyOf (c.effect r s).st).mems.canon := h _ _ _ (by simpa using hs)
  split
  · exact canon_finishCmd _ _ _ _ e
  · split
    · split
      · exact canon_finishCmd _ _ _ _ e
      · exact canon_finishCmd _ _ _ _ hs
    · exact canon_finishCmd _ _ _ _ e

theorem canon_runCmd (c : Cmd) (r : Request) (s : State)
    (h : ∀ r g s, (keyOf s).mems.canon → (keyOf (c.run r g s).st).mems.canon) (hs : (keyOf s).mems.canon) :
    (keyOf (runCmd c r s)).mems.canon := by
  simp only [runCmd]
  repeat' split
  all_goals first
    | exact hs
    | (refine canon_applyCmd _ _ _ _ h ?_; simpa using hs)
    | (refine canon_finishCmd _ _ _ _ ?_; simpa [failWith] using hs)

@[simp] theorem kept_State_addPending (code obj : Nat) (r : Request) (s : State) :
    keyOf (State.addPending code obj r s) = keyOf s := by
  simp [State.addPending]

@[simp] theorem kept_State_endPending (p : PendingCmd) (st : Status) (detail : Nat) (s : State) :
    keyOf (State.endPending p st detail s) = keyOf s := by
  simp [State.endPending]

@[simp] theorem kept_State_stage (f : Generation → Generation) (s : State) :
    keyOf (State.stage f s) = keyOf s := by
  simp [State.stage]

@[simp] theorem kept_State_clearSeen (f : Runtime → Runtime → Runtime) (s : State)
    (h1 : ∀ g r, (f g r).dram.mem = r.dram.mem) (h2 : ∀ g r, (f g r).mgmt.lifecycle = r.mgmt.lifecycle)
    (h3 : ∀ g r, (f g r).mgmt.otp = r.mgmt.otp) (h4 : ∀ g r, (f g r).mgmt.rollback = r.mgmt.rollback) :
    keyOf (s.clearSeen f) = keyOf s := by
  unfold State.clearSeen
  split <;> simp [keyOf, h1, h2, h3, h4]

@[simp] theorem kept_State_writeFlash (f : FlashConfig → FlashConfig) (s : State) :
    keyOf (State.writeFlash f s) = keyOf s := by
  refine kept_modMgmt _ _ ?_ ?_ ?_ <;> dsimp only <;> split <;> rfl

@[simp] theorem kept_popInbox (key : Nat) (s : State) :
    keyOf (popInbox key s).2 = keyOf s := by
  simp only [popInbox]; (repeat' split) <;> simp_all

@[simp] theorem kept_pushInbox (key : Nat) (arrived : Time) (f : Frame) (s : State) :
    keyOf (pushInbox key arrived f s) = keyOf s := by
  simp [pushInbox]

/-! Ecc. -/

@[simp] theorem kept_correctError (a dev : Nat) (s : State) :
    keyOf (correctError a dev s) = keyOf s := by
  simp [correctError]

@[simp] theorem kept_logError (a : Nat) (s : State) :
    keyOf (logError a s) = keyOf s := by
  simp [logError]

@[simp] theorem kept_meetError (line : Nat) (e : LineErr) (s : State) :
    keyOf (meetError line e s).2 = keyOf s := by
  simp only [meetError]; (repeat' split) <;> simp_all

@[simp] theorem rest_State_dramWrite (a : Nat) (b : Bytes) (s : State) :
    (keyOf (s.dramWrite a b)).held = (keyOf s).held ∧ (keyOf (s.dramWrite a b)).active = (keyOf s).active := by
  exact ⟨rfl, rfl⟩

theorem canon_State_dramWrite (a : Nat) (b : Bytes) (s : State) (h : (keyOf s).mems.canon) : (keyOf (s.dramWrite a b)).mems.canon := by
  exact canon_modDram h fun hm => memWrite_wf _ _ hm

@[simp] theorem kept_readErrors (a n : Nat) (s : State) :
    keyOf (readErrors a n s).2 = keyOf s := by
  unfold readErrors
  refine (kept_foldl2 _ (fun r a => ?_) _ _)
  simp

/-! SecBase. -/

@[simp] theorem kept_bumpSec (i : Nat) (s : State) :
    keyOf (bumpSec i s) = keyOf s := by
  simp [bumpSec]

@[simp] theorem kept_mismatchAt (e kind : Nat) (s : State) :
    keyOf (mismatchAt e kind s) = keyOf s := by
  simp [mismatchAt]

@[simp] theorem kept_runOn (engine mismatch : Nat) (s : State) :
    keyOf (runOn engine mismatch s) = keyOf s := by
  simp [runOn]

@[simp] theorem kept_secTurn (requester : Nat) (s : State) :
    keyOf (secTurn requester s) = keyOf s := by
  simp [secTurn]

/-! RecBase. -/

@[simp] theorem rest_recWrite (p : Nat) (b : Bytes) (s : State) :
    (keyOf (recWrite p b s)).held = (keyOf s).held ∧ (keyOf (recWrite p b s)).active = (keyOf s).active := by
  unfold recWrite; dsimp only; simp

theorem canon_recWrite (p : Nat) (b : Bytes) (s : State) (h : (keyOf s).mems.canon) : (keyOf (recWrite p b s)).mems.canon := by
  unfold recWrite; dsimp only; exact canon_State_dramWrite _ _ _ (canon_State_dramWrite _ _ _ h)

@[simp] theorem kept_recErrors (p n : Nat) (s : State) :
    keyOf (recErrors p n s).2 = keyOf s := by
  unfold recErrors; dsimp only; simp

@[simp] theorem kept_overwrittenEvent (n : Nat) (s : State) :
    keyOf (overwrittenEvent n s) = keyOf s := by
  simp [overwrittenEvent]

@[simp] theorem kept_makeRoom (end_ : Nat) (s : State) :
    keyOf (makeRoom end_ s) = keyOf s := by
  simp [makeRoom]

@[simp] theorem kept_loseRecord (s : State) :
    keyOf (loseRecord s) = keyOf s := by
  simp [loseRecord]

@[simp] theorem rest_putRecord (g : Seg) (b : Bytes) (s : State) :
    (keyOf (putRecord g b s)).held = (keyOf s).held ∧ (keyOf (putRecord g b s)).active = (keyOf s).active := by
  unfold putRecord; dsimp only; generalize hasRoom s _ = x; cases x <;> constructor <;> simp

theorem canon_putRecord (g : Seg) (b : Bytes) (s : State) (h : (keyOf s).mems.canon) : (keyOf (putRecord g b s)).mems.canon := by
  unfold putRecord; dsimp only; generalize hasRoom s _ = x; cases x
  · simpa using h
  · simp only [if_true, kept_modRec]; refine canon_recWrite _ _ _ ?_; simpa using h

@[simp] theorem rest_takeRecord (x : Record) (s : State) :
    (keyOf (takeRecord x s)).held = (keyOf s).held ∧ (keyOf (takeRecord x s)).active = (keyOf s).active := by
  unfold takeRecord; dsimp only; constructor <;> (repeat' split) <;> simp

theorem canon_takeRecord (x : Record) (s : State) (h : (keyOf s).mems.canon) : (keyOf (takeRecord x s)).mems.canon := by
  unfold takeRecord; dsimp only
  repeat' split
  all_goals first | exact canon_putRecord _ _ _ h | simpa using h

@[simp] theorem kept_sealMac (head : Bytes) (s : State) :
    keyOf (sealMac head s).2 = keyOf s := by
  unfold sealMac; dsimp only; split
  · dsimp only; split <;> simp
  · simp

@[simp] theorem rest_sealSeg (g : Seg) (s : State) :
    (keyOf (sealSeg g s)).held = (keyOf s).held ∧ (keyOf (sealSeg g s)).active = (keyOf s).active := by
  unfold sealSeg; dsimp only; constructor <;> simp only [kept_State_postIf, kept_modRec, rest_recWrite, kept_sealMac]

theorem canon_sealSeg (g : Seg) (s : State) (h : (keyOf s).mems.canon) : (keyOf (sealSeg g s)).mems.canon := by
  unfold sealSeg; dsimp only; simp only [kept_State_postIf, kept_modRec]; exact canon_recWrite _ _ _ (canon_recWrite _ _ _ (by rw [kept_sealMac]; exact h))

@[simp] theorem rest_sealCurrent (flags : Nat) (s : State) :
    (keyOf (sealCurrent flags s)).held = (keyOf s).held ∧ (keyOf (sealCurrent flags s)).active = (keyOf s).active := by
  unfold sealCurrent; dsimp only; constructor <;> split <;> simp

theorem canon_sealCurrent (flags : Nat) (s : State) (h : (keyOf s).mems.canon) : (keyOf (sealCurrent flags s)).mems.canon := by
  unfold sealCurrent; dsimp only
  split
  · exact h
  · refine canon_foldl _ (fun s a hs => canon_takeRecord a s hs) _ _ ?_
    rw [kept_modRec]; exact canon_sealSeg _ _ h

@[simp] theorem kept_missSecond (second : Nat) (s : State) :
    keyOf (missSecond second s) = keyOf s := by
  simp [missSecond]

@[simp] theorem rest_gapSegment (first n : Nat) (s : State) :
    (keyOf (gapSegment first n s)).held = (keyOf s).held ∧ (keyOf (gapSegment first n s)).active = (keyOf s).active := by
  simp [gapSegment]

theorem canon_gapSegment (first n : Nat) (s : State) (h : (keyOf s).mems.canon) : (keyOf (gapSegment first n s)).mems.canon := by
  unfold gapSegment; dsimp only
  refine canon_sealSeg _ _ ?_
  rw [kept_makeRoom]; exact h

@[simp] theorem rest_openRecSegment (second : Nat) (s : State) :
    (keyOf (openRecSegment second s)).held = (keyOf s).held ∧ (keyOf (openRecSegment second s)).active = (keyOf s).active := by
  unfold openRecSegment; dsimp only; constructor <;> (repeat' split) <;> simp

theorem canon_openRecSegment (second : Nat) (s : State) (h : (keyOf s).mems.canon) : (keyOf (openRecSegment second s)).mems.canon := by
  unfold openRecSegment; dsimp only
  repeat' split
  all_goals first
    | (simpa using h)
    | (rw [kept_modRec, kept_makeRoom, kept_State_post, kept_modRec]; exact canon_gapSegment _ _ _ (by simpa using h))

@[simp] theorem kept_startChain (cause : Nat) (s : State) :
    keyOf (startChain cause s) = keyOf s := by
  simp [startChain]

@[simp] theorem rest_recStep (old new : Time) (s : State) :
    (keyOf (recStep old new s)).held = (keyOf s).held ∧ (keyOf (recStep old new s)).active = (keyOf s).active := by
  unfold recStep; dsimp only; constructor <;> (repeat' split) <;> simp

theorem canon_recStep (old new : Time) (s : State) (h : (keyOf s).mems.canon) : (keyOf (recStep old new s)).mems.canon := by
  unfold recStep; dsimp only
  repeat' split
  all_goals first
    | exact h
    | exact canon_openRecSegment _ _ (canon_sealCurrent _ _ (canon_sealCurrent _ _ h))
    | exact canon_sealCurrent _ _ h

@[simp] theorem rest_recResume (s : State) :
    (keyOf (recResume s)).held = (keyOf s).held ∧ (keyOf (recResume s)).active = (keyOf s).active := by
  unfold recResume; dsimp only; constructor <;> (repeat' split) <;> simp

theorem canon_recResume (s : State) (h : (keyOf s).mems.canon) : (keyOf (recResume s)).mems.canon := by
  unfold recResume; dsimp only
  split
  · split
    · exact canon_openRecSegment _ _ (by simpa using h)
    · simpa using h
  · refine canon_openRecSegment _ _ ?_
    have g := canon_sealCurrent 2 (s.modRec fun r => { r with staging := [], arriving := [], reserved := none, reads := [], acc := [], runs := [], running := true }) (by simpa using h)
    split
    · exact canon_gapSegment _ _ _ (by simpa using g)
    · split <;> simpa using g

@[simp] theorem kept_pushRecord (x : Record) (s : State) :
    keyOf (pushRecord x s) = keyOf s := by
  simp [pushRecord]

@[simp] theorem kept_gather (leg dir type codec flags : Nat) (at_ : Time) (b : Bytes) (s : State) :
    keyOf (gather leg dir type codec flags at_ b s) = keyOf s := by
  simp [gather]

@[simp] theorem kept_flushAcc (leg dir type codec : Nat) (s : State) :
    keyOf (flushAcc leg dir type codec s) = keyOf s := by
  simp only [flushAcc]; (repeat' split) <;> simp_all

@[simp] theorem kept_flushRun (leg codec : Nat) (s : State) :
    keyOf (flushRun leg codec s) = keyOf s := by
  simp only [flushRun]; (repeat' split) <;> simp_all

@[simp] theorem kept_addRun (leg codec flags : Nat) (at_ : Time) (s : State) :
    keyOf (addRun leg codec flags at_ s) = keyOf s := by
  simp [addRun]

/-! TimeBase. -/

@[simp] theorem kept_bitsPin (s : State) :
    keyOf (bitsPin s) = keyOf s := by
  simp [bitsPin]

@[simp] theorem kept_servoTo (n : Servo) (s : State) :
    keyOf (servoTo n s) = keyOf s := by
  simp [servoTo]

@[simp] theorem kept_stepTicks (old new : Time) (s : State) :
    keyOf (stepTicks old new s) = keyOf s := by
  unfold stepTicks; dsimp only
  (repeat' split) <;> simp only [kept_State_post, kept_modClover]

@[simp] theorem rest_stepCounter (amount : Int) (host : Bool) (s : State) :
    (keyOf (stepCounter amount host s)).held = (keyOf s).held ∧ (keyOf (stepCounter amount host s)).active = (keyOf s).active := by
  unfold stepCounter; dsimp only; constructor <;> simp only [rest_recStep, kept_stepTicks, kept_State_post, kept_modTime]

theorem canon_stepCounter (amount : Int) (host : Bool) (s : State) (h : (keyOf s).mems.canon) : (keyOf (stepCounter amount host s)).mems.canon := by
  exact canon_recStep _ _ _ (by simpa using h)

@[simp] theorem rest_servoStep (theta : Int) (s : State) :
    (keyOf (servoStep theta s)).held = (keyOf s).held ∧ (keyOf (servoStep theta s)).active = (keyOf s).active := by
  simp [servoStep]

theorem canon_servoStep (theta : Int) (s : State) (h : (keyOf s).mems.canon) : (keyOf (servoStep theta s)).mems.canon := by
  unfold servoStep; rw [kept_modTime]; exact canon_stepCounter _ _ _ h

@[simp] theorem kept_outlierEvent (s : State) :
    keyOf (outlierEvent s) = keyOf s := by
  simp [outlierEvent]

@[simp] theorem rest_phaseMeasure (theta : Int) (s : State) :
    (keyOf (phaseMeasure theta s)).held = (keyOf s).held ∧ (keyOf (phaseMeasure theta s)).active = (keyOf s).active := by
  unfold phaseMeasure; dsimp only
  constructor <;> split
  all_goals (repeat' split)
  all_goals simp only [kept_servoTo, rest_servoStep, kept_modTime, kept_outlierEvent]

theorem canon_phaseMeasure (theta : Int) (s : State) (h : (keyOf s).mems.canon) : (keyOf (phaseMeasure theta s)).mems.canon := by
  unfold phaseMeasure; dsimp only
  split
  all_goals (repeat' split)
  all_goals (try simp only [kept_servoTo, kept_modTime, kept_outlierEvent])
  all_goals first | exact canon_servoStep _ _ (by simpa using h) | exact h

@[simp] theorem kept_phaseReturn (s : State) :
    keyOf (phaseReturn s) = keyOf s := by
  simp [phaseReturn]

@[simp] theorem kept_phaseLost (s : State) :
    keyOf (phaseLost s) = keyOf s := by
  simp only [phaseLost]; (repeat' split) <;> simp_all

@[simp] theorem kept_freqLost (s : State) :
    keyOf (freqLost s) = keyOf s := by
  simp only [freqLost]; (repeat' split) <;> simp_all

@[simp] theorem kept_freqMeasure (f : Rat) (s : State) :
    keyOf (freqMeasure f s) = keyOf s := by
  unfold freqMeasure; dsimp only
  generalize (decide (100000 < f) || decide (f < -100000)) = x
  repeat' split
  all_goals simp only [kept_servoTo, kept_freqLost, kept_modTime, kept_State_post]

@[simp] theorem kept_bumpPort (port i : Nat) (s : State) :
    keyOf (bumpPort port i s) = keyOf s := by
  simp [bumpPort]

@[simp] theorem kept_enqueueTimed (port : Nat) (f : Timed) (s : State) :
    keyOf (enqueueTimed port f s) = keyOf s := by
  simp [enqueueTimed]

@[simp] theorem kept_launchLate (port : Nat) (s : State) :
    keyOf (launchLate port s) = keyOf s := by
  simp [launchLate]

@[simp] theorem kept_launchHead (port : Nat) (s : State) :
    keyOf (launchHead port s).1 = keyOf s := by
  simp only [launchHead]; (repeat' split) <;> simp_all

/-! Power. -/

@[simp] theorem kept_alertUpdate (s : State) :
    keyOf (alertUpdate s) = keyOf s := by
  simp [alertUpdate]

@[simp] theorem kept_writeVoltage (point : Nat) (raising : Bool) (s : State) :
    keyOf (writeVoltage point raising s) = keyOf s := by
  simp [writeVoltage]

@[simp] theorem kept_voltageBack (s : State) :
    keyOf (voltageBack s) = keyOf s := by
  simp [voltageBack]

@[simp] theorem kept_holdDomains (g : Generation) (s : State) :
    keyOf (holdDomains g s) = keyOf s := by
  simp [holdDomains]

@[simp] theorem kept_switchPoint (g : Generation) (s : State) :
    keyOf (switchPoint g s) = keyOf s := by
  simp [switchPoint]

@[simp] theorem kept_returnChanges (a : Armed) (s : State) :
    keyOf (returnChanges a s) = keyOf s := by
  simp [returnChanges]

@[simp] theorem kept_trackIdle (s : State) :
    keyOf (trackIdle s) = keyOf s := by
  simp [trackIdle]

@[simp] theorem kept_judgeThermal (s : State) :
    keyOf (judgeThermal s) = keyOf s := by
  simp [judgeThermal]

/-! Clover. -/

@[simp] theorem kept_checkSpill (s : State) :
    keyOf (checkSpill s) = keyOf s := by
  simp [checkSpill]

@[simp] theorem kept_endSpill (s : State) :
    keyOf (endSpill s) = keyOf s := by
  simp [endSpill]

@[simp] theorem kept_stallProducer (port : Nat) (d : Bytes) (by_ : Option (Nat × Nat)) (s : State) :
    keyOf (stallProducer port d by_ s) = keyOf s := by
  simp [stallProducer]

@[simp] theorem kept_placeItem (port : Nat) (d : Bytes) (i : Item) (by_ : Option (Nat × Nat)) (s : State) :
    keyOf (placeItem port d i by_ s) = keyOf s := by
  unfold placeItem; dsimp only
  split <;> simp

@[simp] theorem kept_enqueueItem (port : Nat) (d : Bytes) (by_ : Option (Nat × Nat)) (s : State) :
    keyOf (enqueueItem port d by_ s) = keyOf s := by
  simp only [enqueueItem]; (repeat' split) <;> simp_all

@[simp] theorem kept_endPressure (s : State) :
    keyOf (endPressure s) = keyOf s := by
  unfold endPressure
  split <;> simp

@[simp] theorem kept_expireItems (tick : Nat) (s : State) :
    keyOf (expireItems tick s) = keyOf s := by
  unfold expireItems
  rw [kept_endSpill, kept_foldl]
  intro s a
  rfl

@[simp] theorem kept_discardSpilled (bad : List Nat) (s : State) :
    keyOf (discardSpilled bad s) = keyOf s := by
  simp [discardSpilled]

@[simp] theorem kept_injectItem (i : Item) (s : State) :
    keyOf (injectItem i s) = keyOf s := by
  simp [injectItem]

@[simp] theorem kept_markSite (b site : Nat) (s : State) :
    keyOf (markSite b site s) = keyOf s := by
  simp [markSite]

@[simp] theorem kept_endUnitTest (b : Nat) (origin : Nat) (logic memory : Bool) (r : UnitTest) (s : State) :
    keyOf (endUnitTest b origin logic memory r s) = keyOf s := by
  simp [endUnitTest]

@[simp] theorem kept_modCluster (b : Nat) (f : Cluster → Cluster) (s : State) :
    keyOf (modCluster b f s) = keyOf s := by
  simp [modCluster]

@[simp] theorem kept_dropSite (b site : Nat) (s : State) :
    keyOf (dropSite b site s) = keyOf s := by
  simp [dropSite]

/-! DspBase. -/

@[simp] theorem kept_modCore (k : Nat) (f : Core → Core) (s : State) :
    keyOf (modCore k f s) = keyOf s := by
  simp [modCore]

@[simp] theorem rest_devWrite (k a : Nat) (v : Byte) (s : State) :
    (keyOf (devWrite k a v s)).held = (keyOf s).held ∧ (keyOf (devWrite k a v s)).active = (keyOf s).active := by
  simp only [devWrite]; repeat' split
  all_goals simp

theorem canon_devWrite (k a : Nat) (v : Byte) (s : State) (h : (keyOf s).mems.canon) : (keyOf (devWrite k a v s)).mems.canon := by
  simp only [devWrite]; repeat' split
  · exact canon_modDram h fun hm => memSet_wf _ _ hm
  all_goals simpa using h

@[simp] theorem kept_startItem (b p : Nat) (i : Item) (s : State) :
    keyOf (startItem b p i s) = keyOf s := by
  simp only [startItem]; (repeat' split) <;> simp_all

@[simp] theorem kept_discardEntry (q order : Nat) (i : Item) (s : State) :
    keyOf (discardEntry q order i s) = keyOf s := by
  simp [discardEntry]

@[simp] theorem kept_stopCore (b p : Nat) (s : State) :
    keyOf (stopCore b p s) = keyOf s := by
  simp only [stopCore]; (repeat' split) <;> simp_all

@[simp] theorem kept_raiseSource (k n : Nat) (s : State) :
    keyOf (raiseSource k n s) = keyOf s := by
  simp [raiseSource]

@[simp] theorem kept_raiseReserves (old : State) (s : State) :
    keyOf (raiseReserves old s) = keyOf s := by
  simp only [raiseReserves]
  rw [kept_foldl]
  intro s a
  repeat' split
  all_goals simp

/-! Fault. -/

@[simp] theorem kept_bumpFault (i : Nat) (n : Nat) (s : State) :
    keyOf (bumpFault i n s) = keyOf s := by
  simp [bumpFault]

@[simp] theorem kept_degrade (b : Nat) (s : State) :
    keyOf (degrade b s) = keyOf s := by
  simp [degrade]

@[simp] theorem kept_fenceCore (b p : Nat) (s : State) :
    keyOf (fenceCore b p s) = keyOf s := by
  simp only [fenceCore]; (repeat' split) <;> simp_all

@[simp] theorem kept_poison (order : Nat) (i : Item) (cause : Nat) (s : State) :
    keyOf (poison order i cause s) = keyOf s := by
  simp [poison]

@[simp] theorem kept_replayItem (order b : Nat) (cause : Nat) (i : Item) (s : State) :
    keyOf (replayItem order b cause i s) = keyOf s := by
  simp [replayItem]

@[simp] theorem kept_coreFault (b p cause : Nat) (injected : Bool) (s : State) :
    keyOf (coreFault b p cause injected s) = keyOf s := by
  simp only [coreFault]; (repeat' split) <;> simp_all

@[simp] theorem kept_startTests (s : State) :
    keyOf (startTests s) = keyOf s := by
  simp [startTests]

@[simp] theorem kept_imageEvent (q : Nat) (s : State) :
    keyOf (imageEvent q s) = keyOf s := by
  simp [imageEvent]

@[simp] theorem kept_countShed (s : State) :
    keyOf (countShed s) = keyOf s := by
  simp [countShed]

@[simp] theorem kept_engineFault (e cause affected : Nat) (s : State) :
    keyOf (engineFault e cause affected s) = keyOf s := by
  simp only [engineFault]; (repeat' split) <;> simp_all

@[simp] theorem kept_campionFault (e cause : Nat) (s : State) :
    keyOf (campionFault e cause s) = keyOf s := by
  simp only [campionFault]; (repeat' split) <;> simp_all

@[simp] theorem kept_dropFlow (flow : Nat) (serving : Bool) (s : State) :
    keyOf (dropFlow flow serving s) = keyOf s := by
  simp [dropFlow]

@[simp] theorem kept_giveUpFrame (o : Nat) (s : State) :
    keyOf (giveUpFrame o s) = keyOf s := by
  unfold giveUpFrame; split <;> simp

@[simp] theorem kept_mallowFault (e : Nat) (s : State) :
    keyOf (mallowFault e s) = keyOf s := by
  simp only [mallowFault]; (repeat' split) <;> simp_all

@[simp] theorem kept_fireInjection (b p : Nat) (s : State) :
    keyOf (fireInjection b p s) = keyOf s := by
  simp only [fireInjection]; (repeat' split) <;> simp_all

@[simp] theorem kept_dispatch (b p : Nat) (s : State) :
    keyOf (dispatch b p s) = keyOf s := by
  simp only [dispatch]; (repeat' split) <;> simp_all

@[simp] theorem kept_deferWork (order : Nat) (w : Work) (s : State) :
    keyOf (deferWork order w s) = keyOf s := by
  simp [deferWork]

theorem kept_atTick (tick : Nat) (f : State → State) (s : State) (h : ∀ s, keyOf (f s) = keyOf s) :
    keyOf (atTick tick f s) = keyOf s := by
  unfold atTick; dsimp only; simp only [kept_modClover, kept_modTime, h]

@[simp] theorem kept_completeItem (b p : Nat) (s : State) :
    keyOf (completeItem b p s) = keyOf s := by
  simp only [completeItem]; (repeat' split) <;> simp_all

/-! Mailbox. -/

@[simp] theorem kept_State_reached (f : State → State) (s : State) (h : keyOf (f s) = keyOf s) : keyOf (s.reached f) = keyOf s := by
  unfold State.reached; split <;> simp [h]

@[simp] theorem kept_State_devFault (i : Nat) (s : State) :
    keyOf (State.devFault i s) = keyOf s := by
  simp [State.devFault]

@[simp] theorem kept_writeDwinBase (v : BitVec 32) (s : State) :
    keyOf (writeDwinBase v s) = keyOf s := by
  simp [writeDwinBase]

@[simp] theorem kept_writeDevFault (v : BitVec 32) (s : State) :
    keyOf (writeDevFault v s) = keyOf s := by
  simp [writeDevFault]

@[simp] theorem kept_State_readOut (v : Nat) (s : State) :
    keyOf (State.readOut v s) = keyOf s := by
  simp [State.readOut]

@[simp] theorem kept_dropBar2 (s : State) :
    keyOf (dropBar2 s) = keyOf s := by
  simp [dropBar2]

@[simp] theorem kept_openRead (a n : Nat) (s : State) :
    keyOf (openRead a n s) = keyOf s := by
  simp only [openRead]; split <;> simp

@[simp] theorem rest_bar2 (a : Bar2) (s : State) :
    (keyOf (bar2 a s)).held = (keyOf s).held ∧ (keyOf (bar2 a s)).active = (keyOf s).active := by
  simp only [bar2]; repeat' split
  all_goals simp

theorem canon_bar2 (a : Bar2) (s : State) (h : (keyOf s).mems.canon) : (keyOf (bar2 a s)).mems.canon := by
  simp only [bar2]; repeat' split
  all_goals first | exact canon_modDram h fun hm => memWrite_wf _ _ hm | simpa using h

@[simp] theorem kept_writeMsix (i v : Nat) (s : State) :
    keyOf (writeMsix i v s) = keyOf s := by
  simp [writeMsix]

@[simp] theorem rest_ringDoorbell (t : Time) (v : BitVec 32) (s : State) :
    (keyOf (ringDoorbell t v s)).held = (keyOf s).held ∧ (keyOf (ringDoorbell t v s)).active = (keyOf s).active := by
  constructor
  · simp only [ringDoorbell]; split <;> simp
  · simp only [ringDoorbell]; split <;> simp

@[simp] theorem mems_ringDoorbell (t : Time) (v : BitVec 32) (s : State) : (keyOf (ringDoorbell t v s)).mems = (keyOf s).mems := by
  simp only [ringDoorbell]; split <;> simp

theorem canon_ringDoorbell (t : Time) (v : BitVec 32) (s : State) (h : (keyOf s).mems.canon) : (keyOf (ringDoorbell t v s)).mems.canon := by
  rw [mems_ringDoorbell]; exact h

@[simp] theorem rest_writeMbxDone (hi : Bool) (v : BitVec 32) (s : State) :
    (keyOf (writeMbxDone hi v s)).held = (keyOf s).held ∧ (keyOf (writeMbxDone hi v s)).active = (keyOf s).active := by
  constructor
  · simp [writeMbxDone]
  · simp [writeMbxDone]

@[simp] theorem mems_writeMbxDone (hi : Bool) (v : BitVec 32) (s : State) : (keyOf (writeMbxDone hi v s)).mems = (keyOf s).mems := by
  simp [writeMbxDone]

theorem canon_writeMbxDone (hi : Bool) (v : BitVec 32) (s : State) (h : (keyOf s).mems.canon) : (keyOf (writeMbxDone hi v s)).mems.canon := by
  rw [mems_writeMbxDone]; exact h

@[simp] theorem kept_vector0 (s : State) :
    keyOf (vector0 s) = keyOf s := by
  simp [vector0]

@[simp] theorem kept_writeEvqSize (v : BitVec 32) (s : State) :
    keyOf (writeEvqSize v s) = keyOf s := by
  simp [writeEvqSize]

@[simp] theorem kept_writeEvqBase (hi : Bool) (v : BitVec 32) (s : State) :
    keyOf (writeEvqBase hi v s) = keyOf s := by
  simp [writeEvqBase]

@[simp] theorem kept_writeEvqHead (v : BitVec 32) (s : State) :
    keyOf (writeEvqHead v s) = keyOf s := by
  simp [writeEvqHead]

@[simp] theorem rest_writeEntry (e : Event) (s : State) :
    (keyOf (writeEntry e s)).held = (keyOf s).held ∧ (keyOf (writeEntry e s)).active = (keyOf s).active := by
  simp [writeEntry]

theorem canon_writeEntry (e : Event) (s : State) (h : (keyOf s).mems.canon) : (keyOf (writeEntry e s)).mems.canon := by
  unfold writeEntry; dsimp only
  rw [kept_vector0, kept_modSenak _ _ (by rfl) (by rfl) (by rfl), kept_modEvq]
  exact canon_host _ h (memWrite_wf _ _ h.2.1)

@[simp] theorem rest_ringWrite (t : Time) (s : State) :
    (keyOf (ringWrite t s)).held = (keyOf s).held ∧ (keyOf (ringWrite t s)).active = (keyOf s).active := by
  simp only [ringWrite]; repeat' split
  all_goals simp

theorem canon_ringWrite (t : Time) (s : State) (h : (keyOf s).mems.canon) : (keyOf (ringWrite t s)).mems.canon := by
  simp only [ringWrite]; repeat' split
  all_goals first | (refine canon_writeEntry _ _ ?_; simpa using h) | simpa using h

/-! Sec. -/

@[simp] theorem kept_bumpSlot (slot i : Nat) (s : State) :
    keyOf (bumpSlot slot i s) = keyOf s := by
  simp [bumpSlot]

@[simp] theorem kept_deriveInternal (s : State) :
    keyOf (deriveInternal s) = keyOf s := by
  simp [deriveInternal]

@[simp] theorem kept_zeroise (detail : Nat) (s : State) :
    keyOf (zeroise detail s) = keyOf s := by
  simp [zeroise]

@[simp] theorem kept_nearEvent (slot which : Nat) (k : KeySlot) (s : State) :
    keyOf (nearEvent slot which k s) = keyOf s := by
  simp [nearEvent]

@[simp] theorem kept_refuseKey (slot which : Nat) (s : State) :
    keyOf (refuseKey slot which s) = keyOf s := by
  simp [refuseKey]

@[simp] theorem kept_acceptSend (slot : Nat) (rtcp : Bool) (seq : Option Nat) (s : State) :
    keyOf (acceptSend slot rtcp seq s).2 = keyOf s := by
  simp only [acceptSend]; (repeat' split) <;> simp_all

@[simp] theorem kept_acceptReceive (slot : Nat) (rtcp : Bool) (p : Bytes) (s : State) :
    keyOf (acceptReceive slot rtcp p s).2 = keyOf s := by
  simp only [acceptReceive]; (repeat' split) <;> simp_all

@[simp] theorem kept_deviceIv (slot : Nat) (k : KeySlot) (s : State) :
    keyOf (deviceIv slot k s).2 = keyOf s := by
  simp only [deviceIv]; (repeat' split) <;> simp_all

@[simp] theorem kept_writeSlot (slot : Nat) (k : KeySlot) (s : State) :
    keyOf (writeSlot slot k s) = keyOf s := by
  simp [writeSlot]

@[simp] theorem kept_cryptIv (p : Bytes) (slot : Nat) (dev : Bool) (k : Option KeySlot) (s : State) :
    keyOf (cryptIv p slot dev k s).2 = keyOf s := by
  simp only [cryptIv]; (repeat' split) <;> simp_all

@[simp] theorem kept_acceptCrypt (mailbox : Nat) (p : Bytes) (s : State) :
    keyOf (acceptCrypt mailbox p s).2 = keyOf s := by
  simp [acceptCrypt]

@[simp] theorem kept_acceptWaiting (s : State) :
    keyOf (acceptWaiting s) = keyOf s := by
  unfold acceptWaiting
  rw [kept_foldl]
  · simp
  · intro s c
    split
    · split <;> simp
    · rfl

@[simp] theorem kept_modPage (u : Nat) (f : Page → Page) (s : State) :
    keyOf (modPage u f s) = keyOf s := by
  simp [modPage]

@[simp] theorem kept_pageGo (u : Nat) (s : State) :
    keyOf (pageGo u s) = keyOf s := by
  simp [pageGo]

@[simp] theorem kept_pageWrite (u off v : Nat) (s : State) :
    keyOf (pageWrite u off v s) = keyOf s := by
  simp [pageWrite]

@[simp] theorem kept_pageDone (u engine mismatch : Nat) (s : State) :
    keyOf (pageDone u engine mismatch s) = keyOf s := by
  simp only [pageDone]; (repeat' split) <;> simp_all

/-! NetBase. -/

@[simp] theorem kept_bumpNet (port i : Nat) (s : State) :
    keyOf (bumpNet port i s) = keyOf s := by
  simp [bumpNet]

@[simp] theorem kept_bumpFwd (port off : Nat) (s : State) :
    keyOf (bumpFwd port off s) = keyOf s := by
  simp [bumpFwd]

@[simp] theorem kept_wfqEnqueue (port q : Nat) (o : Outbound) (s : State) :
    keyOf (wfqEnqueue port q o s) = keyOf s := by
  simp [wfqEnqueue]

@[simp] theorem kept_countAged (port : Nat) (s : State) :
    keyOf (countAged port s) = keyOf s := by
  simp [countAged]

@[simp] theorem kept_takeHead (port q tag : Nat) (s : State) :
    keyOf (takeHead port q tag s) = keyOf s := by
  simp [takeHead]

@[simp] theorem kept_wfqNext (port n : Nat) (s : State) : keyOf (wfqNext port n s).1 = keyOf s := by
  induction n generalizing s with
  | zero => rfl
  | succ n ih =>
    simp only [wfqNext]
    repeat' split
    all_goals simp [ih]

@[simp] theorem kept_pushStamp (port tag : Nat) (s : State) :
    keyOf (pushStamp port tag s) = keyOf s := by
  simp [pushStamp]

@[simp] theorem kept_transmitted (port : Nat) (tsTag : Option Nat) (s : State) :
    keyOf (transmitted port tsTag s) = keyOf s := by
  simp only [transmitted]; (repeat' split) <;> simp_all

@[simp] theorem kept_queueOn (port : Nat) (o : Outbound) (s : State) :
    keyOf (queueOn port o s) = keyOf s := by
  simp only [queueOn]; (repeat' split) <;> simp_all

@[simp] theorem kept_sendOut (o : Outbound) (s : State) :
    keyOf (sendOut o s) = keyOf s := by
  simp [sendOut]

@[simp] theorem kept_sendMedia (slot : Nat) (rtcp bySeq forwarding : Bool) (o : Outbound) (s : State) :
    keyOf (sendMedia slot rtcp bySeq forwarding o s) = keyOf s := by
  simp [sendMedia]

/-! AudioBase. -/

@[simp] theorem kept_modLeg (n : Nat) (f : Leg → Leg) (s : State) :
    keyOf (modLeg n f s) = keyOf s := by
  simp [modLeg]

@[simp] theorem kept_modConf (n : Nat) (f : ConfRun → ConfRun) (s : State) :
    keyOf (modConf n f s) = keyOf s := by
  simp [modConf]

@[simp] theorem kept_bumpLeg (n off : Nat) (k : Nat) (s : State) :
    keyOf (bumpLeg n off k s) = keyOf s := by
  simp [bumpLeg]

/-! HspBase. -/

@[simp] theorem kept_bumpHsp (h i n : Nat) (s : State) :
    keyOf (bumpHsp h i n s) = keyOf s := by
  simp [bumpHsp]

@[simp] theorem kept_hspOverflow (h : Nat) (s : State) :
    keyOf (hspOverflow h s) = keyOf s := by
  simp [hspOverflow]

@[simp] theorem kept_hspPoison (h : Nat) (s : State) :
    keyOf (hspPoison h s) = keyOf s := by
  simp [hspPoison]

@[simp] theorem kept_hspSend (h : Nat) (b : Bytes) (s : State) :
    keyOf (hspSend h b s) = keyOf s := by
  simp [hspSend]

/-! TdmBase. -/

@[simp] theorem kept_modSdh (p : Nat) (f : SdhPort → SdhPort) (s : State) :
    keyOf (modSdh p f s) = keyOf s := by
  simp [modSdh]

@[simp] theorem kept_modE1 (e : Nat) (f : Line → Line) (s : State) :
    keyOf (modE1 e f s) = keyOf s := by
  simp [modE1]

@[simp] theorem kept_countLine (line off n : Nat) (s : State) :
    keyOf (countLine line off n s) = keyOf s := by
  simp [countLine]

@[simp] theorem kept_markDefect (line code : Nat) (on : Bool) (s : State) :
    keyOf (markDefect line code on s) = keyOf s := by
  simp [markDefect]

@[simp] theorem kept_reselect (w : Nat) (s : State) :
    keyOf (reselect w s) = keyOf s := by
  simp only [reselect]; (repeat' split) <;> simp_all

@[simp] theorem kept_judgePair (w : Nat) (s : State) :
    keyOf (judgePair w s) = keyOf s := by
  simp only [judgePair]; (repeat' split) <;> simp_all

@[simp] theorem kept_judgePairs (s : State) :
    keyOf (judgePairs s) = keyOf s := by
  simp [judgePairs]

@[simp] theorem kept_setDefect (line code : Nat) (on : Bool) (s : State) :
    keyOf (setDefect line code on s) = keyOf s := by
  simp [setDefect]

/-! LegRx. -/

@[simp] theorem kept_validPacket (n : Nat) (b : Bytes) (s : State) :
    keyOf (validPacket n b s) = keyOf s := by
  simp only [validPacket]; (repeat' split) <;> simp_all

@[simp] theorem kept_telephoneEvent (n : Nat) (p : RtpIn) (clock : Nat) (s : State) :
    keyOf (telephoneEvent n p clock s) = keyOf s := by
  simp [telephoneEvent]

@[simp] theorem kept_bufferPacket (n : Nat) (b : Bytes) (arrived : Time) (seq ts pt : Nat) (marker sid : Bool) (payload : Bytes) (s : State) :
    keyOf (bufferPacket n b arrived seq ts pt marker sid payload s) = keyOf s := by
  simp only [bufferPacket]; (repeat' split) <;> simp_all

@[simp] theorem kept_legRtp (n : Nat) (b : Bytes) (arrived : Time) (f : Frame) (s : State) :
    keyOf (legRtp n b arrived f s) = keyOf s := by
  simp [legRtp]

@[simp] theorem kept_legHsp (n : Nat) (b : Bytes) (arrived : Time) (d : Bytes) (s : State) :
    keyOf (legHsp n b arrived d s) = keyOf s := by
  simp [legHsp]

@[simp] theorem kept_toneEnds (n k : Nat) (f : Heeded) (ms : Nat) (s : State) :
    keyOf (toneEnds n k f ms s) = keyOf s := by
  simp [toneEnds]

@[simp] theorem kept_toneAccepts (n k on : Nat) (s : State) :
    keyOf (toneAccepts n k on s) = keyOf s := by
  unfold toneAccepts
  split
  · split <;> simp
  · rfl

@[simp] theorem kept_toneStep (n : Nat) (g : Generation) (concealed : Bool) (x : LegTick) (s : State) (k : Nat) :
    keyOf (toneStep n g concealed x s k) = keyOf s := by
  unfold toneStep; dsimp only
  split
  · (repeat' split) <;> simp
  · (repeat' split) <;> simp

@[simp] theorem kept_legTones (n : Nat) (b : Bytes) (concealed : Bool) (x : LegTick) (s : State) :
    keyOf (legTones n b concealed x s) = keyOf s := by
  simp [legTones]

@[simp] theorem kept_recReceive (n : Nat) (b : Bytes) (flags : Nat) (frames : List (Heard × Time)) (line : Bytes) (prev y : List Int) (s : State) :
    keyOf (recReceive n b flags frames line prev y s) = keyOf s := by
  simp [recReceive]

@[simp] theorem kept_legRxTick (n : Nat) (b : Bytes) (x : LegTick) (s : State) :
    keyOf (legRxTick n b x s) = keyOf s := by
  simp [legRxTick]

/-! LegRun. -/

@[simp] theorem kept_recSend (n : Nat) (b : Bytes) (flags : Nat) (y : List Int) (s : State) :
    keyOf (recSend n b flags y s) = keyOf s := by
  simp [recSend]

@[simp] theorem kept_recPacket (n : Nat) (b : Bytes) (pt : Nat) (marker : Bool) (ts : Nat) (payload : Bytes) (s : State) :
    keyOf (recPacket n b pt marker ts payload s) = keyOf s := by
  simp [recPacket]

@[simp] theorem kept_tickRamps (leg : Nat) (s : State) :
    keyOf (tickRamps leg s) = keyOf s := by
  simp [tickRamps]

@[simp] theorem kept_countLimitedIn (conf tick n : Nat) (hit : List Nat) (s : State) :
    keyOf (countLimitedIn conf tick n hit s) = keyOf s := by
  simp [countLimitedIn]

@[simp] theorem kept_countLimited (leg tick n : Nat) (hit : List Nat) (s : State) :
    keyOf (countLimited leg tick n hit s) = keyOf s := by
  simp [countLimited]

@[simp] theorem kept_stopSend (n detail : Nat) (s : State) :
    keyOf (stopSend n detail s) = keyOf s := by
  simp [stopSend]

@[simp] theorem kept_legPacket (n : Nat) (b : Bytes) (pt : Nat) (marker : Bool) (ts : Nat) (payload : Bytes) (s : State) :
    keyOf (legPacket n b pt marker ts payload s) = keyOf s := by
  simp [legPacket]

@[simp] theorem kept_digitPackets (n : Nat) (b : Bytes) (e : DigitEvent) (s : State) :
    keyOf (digitPackets n b e s) = keyOf s := by
  simp [digitPackets]

@[simp] theorem kept_sendFrame (n : Nat) (b : Bytes) (ts : Nat) (buf : List Int) (s : State) :
    keyOf (sendFrame n b ts buf s) = keyOf s := by
  simp [sendFrame]

@[simp] theorem kept_sendSamples (n : Nat) (b : Bytes) (y : List Int) (s : State) :
    keyOf (sendSamples n b y s) = keyOf s := by
  simp only [sendSamples]; (repeat' split) <;> simp_all

@[simp] theorem kept_legTxTick (n : Nat) (b : Bytes) (s : State) :
    keyOf (legTxTick n b s) = keyOf s := by
  simp [legTxTick]

@[simp] theorem kept_legItem (n : Nat) (x : LegTick) (s : State) :
    keyOf (legItem n x s) = keyOf s := by
  simp only [legItem]; (repeat' split) <;> simp_all

@[simp] theorem kept_legReplayed (n : Nat) (x : LegTick) (s : State) :
    keyOf (legReplayed n x s) = keyOf s := by
  simp [legReplayed]

@[simp] theorem kept_legMissed (n : Nat) (s : State) :
    keyOf (legMissed n s) = keyOf s := by
  simp only [legMissed]; (repeat' split) <;> simp_all

/-! Conf. -/

@[simp] theorem kept_sapTick (s : State) (p : Nat) :
    keyOf (sapTick s p) = keyOf s := by
  simp [sapTick]

@[simp] theorem kept_groupTick (n : Nat) (b : Bytes) (members : List Nat) (s : State) (key : Nat) :
    keyOf (groupTick n b members s key) = keyOf s := by
  simp [groupTick]

@[simp] theorem kept_confGroups (n : Nat) (b : Bytes) (s : State) :
    keyOf (confGroups n b s) = keyOf s := by
  simp [confGroups]

@[simp] theorem kept_settleOuts (n : Nat) (b : Bytes) (s : State) :
    keyOf (settleOuts n b s) = keyOf s := by
  simp [settleOuts]

@[simp] theorem kept_confItem (n : Nat) (s : State) :
    keyOf (confItem n s) = keyOf s := by
  simp only [confItem]; (repeat' split) <;> simp_all

@[simp] theorem kept_confReplayed (n : Nat) (s : State) :
    keyOf (confReplayed n s) = keyOf s := by
  simp [confReplayed]

@[simp] theorem kept_confMissed (n : Nat) (s : State) :
    keyOf (confMissed n s) = keyOf s := by
  simp [confMissed]

@[simp] theorem kept_startLeg (n : Nat) (b : Bytes) (s : State) :
    keyOf (startLeg n b s) = keyOf s := by
  simp [startLeg]

@[simp] theorem kept_activateLegs (old new : Generation) (s : State) :
    keyOf (activateLegs old new s) = keyOf s := by
  simp only [activateLegs]
  rw [kept_foldl]
  · simp
  · intro s a
    repeat' split
    all_goals simp

@[simp] theorem kept_activateConfs (old new : Generation) (s : State) :
    keyOf (activateConfs old new s) = keyOf s := by
  simp [activateConfs]

@[simp] theorem kept_activateRoutes (new : Generation) (s : State) :
    keyOf (activateRoutes new s) = keyOf s := by
  simp [activateRoutes]

@[simp] theorem kept_activateAudio (old new : Generation) (s : State) :
    keyOf (activateAudio old new s) = keyOf s := by
  simp [activateAudio]

/-! TimeRows. -/

@[simp] theorem kept_setUtc (p : Bytes) (s : State) :
    keyOf (setUtc p s) = keyOf s := by
  simp [setUtc]

@[simp] theorem kept_phaseNone (s : State) :
    keyOf (phaseNone s) = keyOf s := by
  simp [phaseNone]

@[simp] theorem kept_ptpLost (s : State) :
    keyOf (ptpLost s) = keyOf s := by
  simp [ptpLost]

/-! Net. -/

@[simp] theorem kept_syncePin (loss : Bool) (o : Nat) (s : State) :
    keyOf (syncePin loss o s) = keyOf s := by
  simp only [syncePin]; (repeat' split) <;> simp_all

@[simp] theorem kept_linkDown (p cause : Nat) (s : State) :
    keyOf (linkDown p cause s) = keyOf s := by
  unfold linkDown; dsimp only
  split
  · rw [kept_ite, kept_freqLost, ite_self, kept_foldl]
    · simp
    · intro s a; split <;> simp
  · rfl

@[simp] theorem kept_applyPort (p : Nat) (b : Bytes) (s : State) :
    keyOf (applyPort p b s) = keyOf s := by
  simp [applyPort]

@[simp] theorem kept_applyPair (i : Nat) (b : Bytes) (s : State) :
    keyOf (applyPair i b s) = keyOf s := by
  simp [applyPair]

@[simp] theorem kept_applySettings (s : State) :
    keyOf (applySettings s) = keyOf s := by
  simp [applySettings]

/-! FwdBase. -/

@[simp] theorem kept_modSub (n : Nat) (f : Sub → Sub) (s : State) :
    keyOf (modSub n f s) = keyOf s := by
  simp [modSub]

@[simp] theorem kept_modLine (leg : Nat) (f : LineRun → LineRun) (s : State) :
    keyOf (modLine leg f s) = keyOf s := by
  simp [modLine]

@[simp] theorem kept_modRelay (v : Nat) (f : Relay → Relay) (s : State) :
    keyOf (modRelay v f s) = keyOf s := by
  simp [modRelay]

@[simp] theorem kept_bumpSub (n off k : Nat) (s : State) :
    keyOf (bumpSub n off k s) = keyOf s := by
  simp [bumpSub]

@[simp] theorem kept_countRate (v s t n : Nat) (st : State) :
    keyOf (countRate v s t n st) = keyOf st := by
  simp [countRate]

@[simp] theorem kept_encodeKey (v cause : Nat) (s : State) :
    keyOf (encodeKey v cause s) = keyOf s := by
  simp [encodeKey]

@[simp] theorem kept_sendRelayKey (v cause : Nat) (b : Bytes) (s : State) :
    keyOf (sendRelayKey v cause b s) = keyOf s := by
  simp [sendRelayKey]

@[simp] theorem kept_keyRequest (v sub cause : Nat) (s : State) :
    keyOf (keyRequest v sub cause s) = keyOf s := by
  simp only [keyRequest]; (repeat' split) <;> simp_all

@[simp] theorem kept_toWaitKey (n : Nat) (b : Bytes) (s : State) :
    keyOf (toWaitKey n b s) = keyOf s := by
  simp [toWaitKey]

@[simp] theorem kept_setTarget (n k : Nat) (s : State) :
    keyOf (setTarget n k s) = keyOf s := by
  simp [setTarget]

@[simp] theorem kept_setPause (leg n : Nat) (b : Bytes) (pause : Bool) (s : State) :
    keyOf (setPause leg n b pause s) = keyOf s := by
  simp [setPause]

@[simp] theorem kept_overLine (leg : Nat) (cost100 : Nat) (s : State) :
    keyOf (overLine leg cost100 s) = keyOf s := by
  simp [overLine]

@[simp] theorem kept_retarget (leg : Nat) (s : State) :
    keyOf (retarget leg s) = keyOf s := by
  simp only [retarget]; (repeat' split) <;> simp_all

@[simp] theorem kept_fastDrop (leg : Nat) (s : State) :
    keyOf (fastDrop leg s) = keyOf s := by
  simp only [fastDrop]; (repeat' split) <;> simp_all

/-! FwdSub. -/

@[simp] theorem kept_police (key port : Nat) (f : Frame) (s : State) :
    keyOf (police key port f s).2 = keyOf s := by
  unfold police; dsimp only
  split
  · rfl
  · (repeat' split) <;> simp

@[simp] theorem kept_occupy (port len : Nat) (s : State) :
    keyOf (occupy port len s) = keyOf s := by
  simp [occupy]

@[simp] theorem kept_startFrame (port : Nat) (o : Outbound) (s : State) :
    keyOf (startFrame port o s) = keyOf s := by
  simp [startFrame]

@[simp] theorem kept_layerChange (n : Nat) (b : Bytes) (old new : Nat) (s : State) :
    keyOf (layerChange n b old new s) = keyOf s := by
  simp [layerChange]

@[simp] theorem kept_startUnit (n : Nat) (b : Bytes) (ts : Nat) (s : State) :
    keyOf (startUnit n b ts s) = keyOf s := by
  simp only [startUnit]; (repeat' split) <;> simp_all

@[simp] theorem kept_unitPacket (n : Nat) (b : Bytes) (p : Copied) (s : State) :
    keyOf (unitPacket n b p s) = keyOf s := by
  simp only [unitPacket]; (repeat' split) <;> simp_all

@[simp] theorem kept_outSeq (n : Nat) (b : Bytes) (seq : Nat) (s : State) :
    keyOf (outSeq n b seq s).2 = keyOf s := by
  simp [outSeq]

@[simp] theorem kept_leave (slot : Nat) (cut : Bool) (o : Outbound) (s : State) :
    keyOf (leave slot cut o s) = keyOf s := by
  simp [leave]

@[simp] theorem kept_shape (n leg slot : Nat) (cut : Bool) (o : Outbound) (s : State) :
    keyOf (shape n leg slot cut o s) = keyOf s := by
  simp [shape]

@[simp] theorem kept_skipPacket (n : Nat) (count : Bool) (s : State) :
    keyOf (skipPacket n count s) = keyOf s := by
  simp [skipPacket]

@[simp] theorem kept_sendCopy (n : Nat) (b : Bytes) (p : Copied) (keep : List Nal) (s : State) :
    keyOf (sendCopy n b p keep s) = keyOf s := by
  simp [sendCopy]

@[simp] theorem kept_subPacket (n : Nat) (b : Bytes) (p : Copied) (s : State) :
    keyOf (subPacket n b p s) = keyOf s := by
  simp only [subPacket]; (repeat' split) <;> simp_all

@[simp] theorem kept_copyPacket (p : Copied) (s : State) :
    keyOf (copyPacket p s) = keyOf s := by
  simp [copyPacket]

@[simp] theorem kept_subsToWaitKey (v : Nat) (only : SubState → Bool) (s : State) :
    keyOf (subsToWaitKey v only s) = keyOf s := by
  simp [subsToWaitKey]

@[simp] theorem kept_relayValid (v : Nat) (p : RtpIn) (changed : Bool) (arrived : Time) (s : State) :
    keyOf (relayValid v p changed arrived s) = keyOf s := by
  simp [relayValid]

@[simp] theorem kept_relayPacket (v : Nat) (arrived : Time) (cutFrom : Option Nat) (f : Frame) (s : State) :
    keyOf (relayPacket v arrived cutFrom f s) = keyOf s := by
  simp only [relayPacket]; (repeat' split) <;> simp_all

/-! FwdRun. -/

@[simp] theorem kept_deliverMedia (port : Nat) (c : Consumer) (f : Frame) (s : State) :
    keyOf (deliverMedia port c f s) = keyOf s := by
  simp only [deliverMedia]; (repeat' split) <;> simp

@[simp] theorem kept_receiveClassed (port via : Nat) (f : Frame) (s : State) :
    keyOf (receiveClassed port via f s) = keyOf s := by
  unfold receiveClassed; dsimp only
  split
  · simp
  · rcases hp : police (64 * port + (classify s port f).cls?) port f s with ⟨_ | f1, t⟩
    · have := kept_police (64 * port + (classify s port f).cls?) port f s
      rwa [hp] at this
    · have e : keyOf t = keyOf s := by
        have := kept_police (64 * port + (classify s port f).cls?) port f s
        rwa [hp] at this
      dsimp only
      split
      · rename_i v _ _
        rcases hq : police (0x10000 + v) port f1 t with ⟨_ | f', u⟩
        · have := kept_police (0x10000 + v) port f1 t
          rw [hq] at this
          exact this.trans e
        · have e' : keyOf u = keyOf t := by
            have := kept_police (0x10000 + v) port f1 t
            rwa [hq] at this
          simp [e', e]
      · simp [e]
      · split <;> simp [e]
      · simp [e]

@[simp] theorem kept_nodeTableFull (pair port : Nat) (s : State) :
    keyOf (nodeTableFull pair port s) = keyOf s := by
  simp [nodeTableFull]

@[simp] theorem kept_noteNode (pair port mac seq : Nat) (s : State) :
    keyOf (noteNode pair port mac seq s).2.2 = keyOf s := by
  simp only [noteNode]; (repeat' split) <;> simp_all

@[simp] theorem kept_ringForward (port : Nat) (f : Frame) (s : State) :
    keyOf (ringForward port f s) = keyOf s := by
  simp [ringForward]

@[simp] theorem kept_redundant (port : Nat) (f : Frame) (s : State) :
    keyOf (redundant port f s).2 = keyOf s := by
  simp only [redundant]; (repeat' split) <;> simp_all

@[simp] theorem kept_rateLimit (port : Nat) (s : State) :
    keyOf (rateLimit port s).2 = keyOf s := by
  simp only [rateLimit]; (repeat' split) <;> simp_all

@[simp] theorem kept_countArrival (p fec : Nat) (s : State) :
    keyOf (countArrival p fec s) = keyOf s := by
  simp only [countArrival]; (repeat' split) <;> simp_all

@[simp] theorem kept_receiveWhole (p name : Nat) (f : Frame) (s : State) :
    keyOf (receiveWhole p name f s) = keyOf s := by
  unfold receiveWhole; dsimp only
  have k : keyOf (redundant p f (rateLimit p s).2).2 = keyOf s := by simp
  rcases hr : redundant p f (rateLimit p s).2 with ⟨_ | f1, y⟩ <;> rw [hr] at k <;> dsimp only at k ⊢
  all_goals (repeat' split)
  all_goals first | exact k | (simp; done) | simp [k]

@[simp] theorem kept_receiveBad (p name : Nat) (f : Frame) (s : State) :
    keyOf (receiveBad p name f s) = keyOf s := by
  unfold receiveBad
  split
  · dsimp only
    split
    · rfl
    · split
      · simp
      · split
        · rename_i x h; have := congrArg (fun y => keyOf y.2) h; simp at this; rw [← this]
        · rename_i f1 s1 h; have e := congrArg (fun y => keyOf y.2) h; simp at e
          split
          · rename_i h2; have e2 := congrArg (fun y => keyOf y.2) h2; simp at e2; rw [← e2, e]
          · rename_i h2; have e2 := congrArg (fun y => keyOf y.2) h2; simp at e2; rw [kept_relayPacket, ← e2, e]
  · rfl

@[simp] theorem kept_sliceDropped (g : Tag) (s : State) :
    keyOf (sliceDropped g s) = keyOf s := by
  simp only [sliceDropped]; (repeat' split) <;> simp_all

@[simp] theorem kept_copyLaunched (g : Tag) (s : State) :
    keyOf (copyLaunched g s) = keyOf s := by
  simp [copyLaunched]

@[simp] theorem kept_recVideo (g : Tag) (s : State) :
    keyOf (recVideo g s) = keyOf s := by
  simp [recVideo]

@[simp] theorem kept_launched (port : Nat) (f : Timed) (late : Bool) (s : State) :
    keyOf (launched port f late s) = keyOf s := by
  simp only [launched]; (repeat' split) <;> simp_all

@[simp] theorem kept_launchTimed (port : Nat) (s : State) :
    keyOf (launchTimed port s) = keyOf s := by
  rcases hl : launchHead port s with ⟨t, _ | ⟨f, d⟩⟩
  all_goals
    have e : keyOf t = keyOf s := by
      have := kept_launchHead port s
      rwa [hl] at this
    simp only [launchTimed, hl]
    repeat' split
    all_goals simp [e]

@[simp] theorem kept_subRtcp (n : Nat) (b d : Bytes) (s : State) :
    keyOf (subRtcp n b d s) = keyOf s := by
  simp [subRtcp]

@[simp] theorem kept_takeTmmbr (n owner bps : Nat) (s : State) :
    keyOf (takeTmmbr n owner bps s) = keyOf s := by
  simp only [takeTmmbr]; (repeat' split) <;> simp_all

@[simp] theorem kept_releaseLine (leg : Nat) (line : Bytes) (n : Nat) (s : State) : keyOf (releaseLine leg line n s) = keyOf s := by
  induction n generalizing s with
  | zero => rfl
  | succ n ih =>
    simp only [releaseLine]
    repeat' split
    all_goals simp [ih]

@[simp] theorem kept_stateLost (obj : Nat) (l : Map Bytes) (s : State) :
    keyOf (stateLost obj l s) = keyOf s := by
  simp [stateLost]

@[simp] theorem kept_activateRelays (old new : Generation) (s : State) :
    keyOf (activateRelays old new s) = keyOf s := by
  simp [activateRelays]

@[simp] theorem kept_startSub (n : Nat) (b : Bytes) (s : State) :
    keyOf (startSub n b s) = keyOf s := by
  simp [startSub]

@[simp] theorem kept_activateFwd (old new : Generation) (s : State) :
    keyOf (activateFwd old new s) = keyOf s := by
  unfold activateFwd; dsimp only
  rw [kept_foldl]
  · rw [kept_foldl]
    · rw [kept_foldl]
      · simp
      · intro s a; split <;> simp
    · intro s a; (repeat' split) <;> simp
  · intro s a; simp

/-! Engine. -/

@[simp] theorem kept_injectEngine (n : Nat) (i : Item) (s : State) :
    keyOf (injectEngine n i s).2 = keyOf s := by
  unfold injectEngine
  split
  · rfl
  · split <;> simp

@[simp] theorem kept_engineStep (flow : Nat) (f : Item → State → State) (s : State) (h : ∀ i s, keyOf (f i s) = keyOf s) :
    keyOf (engineStep flow f s) = keyOf s := by
  unfold engineStep; split <;> simp [h]

@[simp] theorem kept_moveItems (flow place : Nat) (s : State) :
    keyOf (moveItems flow place s) = keyOf s := by
  simp [moveItems]

/-! VidCmd. -/

@[simp] theorem kept_modVid (v : Nat) (f : Vid → Vid) (s : State) :
    keyOf (modVid v f s) = keyOf s := by
  simp [modVid]

@[simp] theorem kept_bumpVid (v off k : Nat) (s : State) :
    keyOf (bumpVid v off k s) = keyOf s := by
  simp [bumpVid]

@[simp] theorem kept_sendVidKey (v : Nat) (b : Bytes) (s : State) :
    keyOf (sendVidKey v b s) = keyOf s := by
  simp [sendVidKey]

@[simp] theorem kept_requestVidKey (v : Nat) (b : Bytes) (s : State) :
    keyOf (requestVidKey v b s) = keyOf s := by
  simp only [requestVidKey]; (repeat' split) <;> simp_all

@[simp] theorem kept_holdBuffer (on : Bool) (h : Option (Nat × Nat)) (s : State) :
    keyOf (holdBuffer on h s) = keyOf s := by
  unfold holdBuffer; dsimp only
  split
  · rfl
  · split <;> simp

/-! VidRx. -/

@[simp] theorem kept_finishPictures (v : Nat) (b : Bytes) (full : Assembly → Bool) (s : State) :
    keyOf (finishPictures v b full s) = keyOf s := by
  simp [finishPictures]

@[simp] theorem kept_countPacket (v : Nat) (p : RtpIn) (changed : Bool) (arrived : Time) (s : State) :
    keyOf (countPacket v p changed arrived s) = keyOf s := by
  simp [countPacket]

@[simp] theorem kept_assemble (v : Nat) (b : Bytes) (p : RtpIn) (arrived : Time) (ts : Int) (s : State) :
    keyOf (assemble v b p arrived ts s) = keyOf s := by
  simp [assemble]

@[simp] theorem kept_videoPacket (v : Nat) (b : Bytes) (arrived : Time) (f : Frame) (s : State) :
    keyOf (videoPacket v b arrived f s) = keyOf s := by
  simp only [videoPacket]; (repeat' split) <;> simp_all

@[simp] theorem kept_overrun (v : Nat) (s : State) :
    keyOf (overrun v s) = keyOf s := by
  simp [overrun]

@[simp] theorem kept_concealedAreas (v n : Nat) (s : State) :
    keyOf (concealedAreas v n s) = keyOf s := by
  simp [concealedAreas]

@[simp] theorem kept_settle (v : Nat) (b : Bytes) (s : State) :
    keyOf (settle v b s) = keyOf s := by
  simp [settle]

@[simp] theorem kept_countLate (v : Nat) (lateness : Time) (s : State) :
    keyOf (countLate v lateness s) = keyOf s := by
  simp [countLate]

@[simp] theorem kept_moveAnchor (v : Nat) (s : State) :
    keyOf (moveAnchor v s) = keyOf s := by
  simp [moveAnchor]

@[simp] theorem kept_placePicture (v : Nat) (b : Bytes) (d : Decoded) (s : State) :
    keyOf (placePicture v b d s) = keyOf s := by
  simp [placePicture]

@[simp] theorem kept_notDecoded (v reason : Nat) (s : State) :
    keyOf (notDecoded v reason s) = keyOf s := by
  simp [notDecoded]

@[simp] theorem kept_missingRefs (v n : Nat) (grey : Bool) (s : State) :
    keyOf (missingRefs v n grey s) = keyOf s := by
  simp [missingRefs]

@[simp] theorem kept_decodePicture (v : Nat) (b : Bytes) (a : Assembly) (d : DecodeResult) (s : State) :
    keyOf (decodePicture v b a d s) = keyOf s := by
  simp only [decodePicture]; (repeat' split) <;> simp_all

@[simp] theorem kept_onStream (v : Nat) (f : State → State) (s : State) (h : ∀ s, keyOf (f s) = keyOf s) :
    keyOf (onStream v f s) = keyOf s := by
  unfold onStream; split <;> simp [h]

@[simp] theorem kept_decodeNext (v : Nat) (d : DecodeResult) (i : Item) (s : State) :
    keyOf (decodeNext v d i s) = keyOf s := by
  unfold decodeNext
  refine kept_onStream _ _ _ fun s => ?_
  split <;> simp

/-! VidRun. -/

@[simp] theorem kept_skipPicture (v : Nat) (idr : Bool) (s : State) :
    keyOf (skipPicture v idr s) = keyOf s := by
  simp [skipPicture]

@[simp] theorem kept_beginCoding (v n : Nat) (s : State) : keyOf (beginCoding v n s) = keyOf s := by
  induction n generalizing s with
  | zero => rfl
  | succ n ih =>
    rw [beginCoding]; dsimp only
    split
    · rename_i k rest _ _
      generalize hr : (if (codingOf v k (isIdr k (s.vid v)) (s.vid v)).left < floorCost k.block (isIdr k (s.vid v)) then (false, _) else injectEngine _ _ _) = r
      have k : keyOf r.2 = keyOf s := by rw [← hr]; split <;> simp
      split <;> simp [ih, k]
    · rfl

@[simp] theorem kept_takePicture (v : Nat) (b : Bytes) (x : Vid) (s : State) :
    keyOf (takePicture v b x s) = keyOf s := by
  simp [takePicture]

@[simp] theorem kept_startPicture (v : Nat) (s : State) :
    keyOf (startPicture v s) = keyOf s := by
  unfold startPicture
  split
  · split <;> simp
  · rfl

@[simp] theorem kept_startPictures (s : State) :
    keyOf (startPictures s) = keyOf s := by
  simp [startPictures]

@[simp] theorem kept_queueVideo (v : Nat) (c : Coding) (layer : Nat) (launch : Time) (ends marker : Bool) (payload : Bytes) (s : State) :
    keyOf (queueVideo v c layer launch ends marker payload s) = keyOf s := by
  simp [queueVideo]

@[simp] theorem kept_queueSlice (v : Nat) (c : Coding) (layer : Nat) (launch : Time) (ends marker : Bool) (l : List Bytes) (s : State) :
    keyOf (queueSlice v c layer launch ends marker l s) = keyOf s := by
  simp [queueSlice]

@[simp] theorem kept_endPicture (v : Nat) (c : Coding) (spent filler : Nat) (s : State) :
    keyOf (endPicture v c spent filler s) = keyOf s := by
  simp [endPicture]

@[simp] theorem kept_encodeSlice (v : Nat) (c : Coding) (code : SliceCode) (s : State) :
    keyOf (encodeSlice v c code s) = keyOf s := by
  simp [encodeSlice]

@[simp] theorem kept_codeNext (v : Nat) (code : SliceCode) (s : State) :
    keyOf (codeNext v code s) = keyOf s := by
  unfold codeNext
  refine kept_onStream _ _ _ fun s => ?_
  split <;> simp

@[simp] theorem kept_startVid (g : Generation) (v : Nat) (s : State) :
    keyOf (startVid g v s) = keyOf s := by
  simp [startVid]

@[simp] theorem kept_dropCodings (v : Nat) (s : State) :
    keyOf (dropCodings v s) = keyOf s := by
  simp [dropCodings]

@[simp] theorem kept_leaveVid (v : Nat) (decode : Bool) (s : State) :
    keyOf (leaveVid v decode s) = keyOf s := by
  simp [leaveVid]

@[simp] theorem kept_activateVideo (old new : Generation) (s : State) :
    keyOf (activateVideo old new s) = keyOf s := by
  simp [activateVideo]

/-! Layout. -/

@[simp] theorem kept_dropImages (s : State) :
    keyOf (dropImages s) = keyOf s := by
  simp [dropImages]

@[simp] theorem kept_modOut (o : Nat) (f : OutRun → OutRun) (s : State) :
    keyOf (modOut o f s) = keyOf s := by
  simp [modOut]

@[simp] theorem kept_bumpOut (o off k : Nat) (s : State) :
    keyOf (bumpOut o off k s) = keyOf s := by
  simp [bumpOut]

@[simp] theorem kept_skipFrame (o : Nat) (s : State) :
    keyOf (skipFrame o s) = keyOf s := by
  simp [skipFrame]

@[simp] theorem kept_composeNext (o : Nat) (b : Bytes) (x : OutRun) (s : State) :
    keyOf (composeNext o b x s) = keyOf s := by
  unfold composeNext; dsimp only
  split
  · simp
  · generalize hr : (if x.composing.isSome ∨ 4 ≤ buffersUsed x then (false, _) else injectEngine _ _ _) = r
    have k : keyOf r.2 = keyOf s := by rw [← hr]; split <;> simp
    split <;> simp [k]

@[simp] theorem kept_beginFrame (o : Nat) (s : State) :
    keyOf (beginFrame o s) = keyOf s := by
  unfold beginFrame
  split
  · split <;> simp
  · rfl

@[simp] theorem kept_beginFrames (s : State) :
    keyOf (beginFrames s) = keyOf s := by
  simp [beginFrames]

@[simp] theorem kept_checkRegion (o : Nat) (c : Composing) (s : State) (k : Nat) :
    keyOf (checkRegion o c s k) = keyOf s := by
  simp only [checkRegion]; (repeat' split) <;> simp_all

@[simp] theorem kept_onOutput (o : Nat) (f : State → State) (s : State) (h : ∀ s, keyOf (f s) = keyOf s) :
    keyOf (onOutput o f s) = keyOf s := by
  unfold onOutput; split <;> simp [h]

@[simp] theorem kept_freeInputs (c : Composing) (s : State) :
    keyOf (freeInputs c s) = keyOf s := by
  simp [freeInputs]

@[simp] theorem kept_completeFrame (o : Nat) (s : State) :
    keyOf (completeFrame o s) = keyOf s := by
  unfold completeFrame; dsimp only
  split
  · simp only [kept_freeInputs, kept_modOut, kept_bumpOut]
    rw [kept_foldl _ (fun s a => kept_checkRegion _ _ _ _), kept_modOut]
  · rfl

@[simp] theorem kept_surfaceReady (n mark : Nat) (s : State) :
    keyOf (surfaceReady n mark s) = keyOf s := by
  unfold surfaceReady
  split
  · rfl
  · split
    · rfl
    · dsimp only; rw [kept_State_post, kept_foldl _ (fun s a => kept_bumpOut _ _ _ _), kept_modMallow]

@[simp] theorem kept_enqueueFlattens (g : Generation) (l : List Nat) (s : State) :
    keyOf (enqueueFlattens g l s) = keyOf s := by
  unfold enqueueFlattens
  rw [kept_foldl]
  intro s a
  split <;> simp

@[simp] theorem kept_activateOuts (old new : Generation) (s : State) :
    keyOf (activateOuts old new s) = keyOf s := by
  simp [activateOuts]

/-! Rec. -/

@[simp] theorem kept_applyClear (s : State) :
    keyOf (applyClear s) = keyOf s := by
  simp [applyClear]

@[simp] theorem kept_activateRec (old new : Generation) (s : State) :
    keyOf (activateRec old new s) = keyOf s := by
  simp [activateRec]

/-! TdmLine. -/

@[simp] theorem kept_runDefect (line code n m : Nat) (r : Run) (s : State) :
    keyOf (runDefect line code n m r s) = keyOf s := by
  simp [runDefect]

@[simp] theorem kept_portLos (port : Nat) (s : State) :
    keyOf (portLos port s) = keyOf s := by
  simp [portLos]

@[simp] theorem kept_portLof (port : Nat) (s : State) :
    keyOf (portLof port s) = keyOf s := by
  simp [portLof]

@[simp] theorem kept_ptrDefects (line ais lop : Nat) (p : Ptr) (s : State) :
    keyOf (ptrDefects line ais lop p s) = keyOf s := by
  simp [ptrDefects]

@[simp] theorem kept_auReceive (port a : Nat) (f : AuFrame) (s : State) :
    keyOf (auReceive port a f s) = keyOf s := by
  simp [auReceive]

@[simp] theorem kept_tuReceive (port : Nat) (f : TuFrame) (s : State) :
    keyOf (tuReceive port f s) = keyOf s := by
  simp [tuReceive]

@[simp] theorem kept_h4Receive (port : Nat) (l : List AuFrame) (s : State) :
    keyOf (h4Receive port l s) = keyOf s := by
  simp [h4Receive]

@[simp] theorem kept_s1Receive (port v : Nat) (s : State) :
    keyOf (s1Receive port v s) = keyOf s := by
  simp [s1Receive]

@[simp] theorem kept_overheadReceive (port : Nat) (f : SdhFrame) (s : State) :
    keyOf (overheadReceive port f s) = keyOf s := by
  simp [overheadReceive]

@[simp] theorem kept_loseAlignment (e : Nat) (s : State) :
    keyOf (loseAlignment e s) = keyOf s := by
  simp [loseAlignment]

@[simp] theorem kept_gainAlignment (e : Nat) (s : State) :
    keyOf (gainAlignment e s) = keyOf s := by
  simp [gainAlignment]

@[simp] theorem kept_crcBlock (e : Nat) (bad : Bool) (s : State) :
    keyOf (crcBlock e bad s) = keyOf s := by
  simp [crcBlock]

@[simp] theorem kept_seekMultiframe (e : Nat) (one : Bool) (s : State) :
    keyOf (seekMultiframe e one s) = keyOf s := by
  simp [seekMultiframe]

@[simp] theorem kept_crcFrame (e v : Nat) (s : State) :
    keyOf (crcFrame e v s) = keyOf s := by
  simp only [crcFrame]; (repeat' split) <;> simp_all

@[simp] theorem kept_abcd (e t v : Nat) (twice : Bool) (s : State) :
    keyOf (abcd e t v twice s) = keyOf s := by
  simp [abcd]

@[simp] theorem kept_loseCas (e : Nat) (s : State) :
    keyOf (loseCas e s) = keyOf s := by
  simp [loseCas]

@[simp] theorem kept_casFrame (e v16 : Nat) (s : State) :
    keyOf (casFrame e v16 s) = keyOf s := by
  simp only [casFrame]; (repeat' split) <;> simp_all

@[simp] theorem kept_storeFrame (e : Nat) (b : Bytes) (s : State) :
    keyOf (storeFrame e b s) = keyOf s := by
  simp [storeFrame]

@[simp] theorem kept_e1Frame (e v : Nat) (fas : Bool) (s : State) :
    keyOf (e1Frame e v fas s) = keyOf s := by
  simp [e1Frame]

@[simp] theorem kept_e1Found (e : Nat) (s : State) (x1 : Found) :
    keyOf (e1Found e s x1) = keyOf s := by
  simp only [e1Found]; (repeat' split) <;> simp_all

@[simp] theorem kept_e1Bits (e : Nat) (l : List Bool) (s : State) :
    keyOf (e1Bits e l s) = keyOf s := by
  simp [e1Bits]

@[simp] theorem kept_lineAis (e : Nat) (s : State) :
    keyOf (lineAis e s) = keyOf s := by
  simp [lineAis]

@[simp] theorem kept_lineLos (e : Nat) (s : State) :
    keyOf (lineLos e s) = keyOf s := by
  simp [lineLos]

@[simp] theorem kept_sendBits (e : Nat) (v : BitVec 256) (s : State) :
    keyOf (sendBits e v s) = keyOf s := by
  simp [sendBits]

@[simp] theorem kept_t1Bits (e n : Nat) (f : Bool) (r : Nat) (s : State) :
    keyOf (t1Bits e n f r s) = keyOf s := by
  simp [t1Bits]

@[simp] theorem kept_t1Signalling (e n : Nat) (octets : Bytes) (s : State) :
    keyOf (t1Signalling e n octets s) = keyOf s := by
  simp [t1Signalling]

@[simp] theorem kept_t1Check (e r : Nat) (before : Option Nat) (s : State) :
    keyOf (t1Check e r before s) = keyOf s := by
  simp only [t1Check]; (repeat' split) <;> simp_all

@[simp] theorem kept_t1Fas (e n : Nat) (f : Bool) (bad : Nat) (s : State) :
    keyOf (t1Fas e n f bad s) = keyOf s := by
  simp [t1Fas]

@[simp] theorem kept_t1FrameReceive (e n v : Nat) (s : State) :
    keyOf (t1FrameReceive e n v s) = keyOf s := by
  simp [t1FrameReceive]

/-! TdmRun. -/

@[simp] theorem kept_slip (e off : Nat) (s : State) :
    keyOf (slip e off s) = keyOf s := by
  simp [slip]

@[simp] theorem kept_takeFrame (e : Nat) (s : State) :
    keyOf (takeFrame e s) = keyOf s := by
  simp only [takeFrame]; (repeat' split) <;> simp_all

@[simp] theorem kept_turnLeg (leg : Nat) (s : State) :
    keyOf (turnLeg leg s) = keyOf s := by
  simp [turnLeg]

@[simp] theorem kept_feedLeg (leg ts : Nat) (s : State) :
    keyOf (feedLeg leg ts s) = keyOf s := by
  simp [feedLeg]

@[simp] theorem kept_sendOverhead (e : Nat) (f : Map Nat) (s : State) :
    keyOf (sendOverhead e f s) = keyOf s := by
  simp [sendOverhead]

@[simp] theorem kept_sendLine (k e : Nat) (s : State) :
    keyOf (sendLine k e s) = keyOf s := by
  simp [sendLine]

@[simp] theorem kept_sendTrib (k e : Nat) (s : State) :
    keyOf (sendTrib k e s) = keyOf s := by
  simp [sendTrib]

@[simp] theorem kept_sendPort (port : Nat) (s : State) :
    keyOf (sendPort port s) = keyOf s := by
  simp [sendPort]

@[simp] theorem kept_sendClear (e : Nat) (s : State) :
    keyOf (sendClear e s) = keyOf s := by
  simp only [sendClear]; (repeat' split) <;> simp_all

@[simp] theorem kept_frameLosses (k : Nat) (ports lines : List Nat) (legs : List (Nat × Nat)) (s : State) :
    keyOf (frameLosses k ports lines legs s) = keyOf s := by
  simp [frameLosses]

@[simp] theorem kept_frameOut (k : Nat) (s : State) :
    keyOf (frameOut k s) = keyOf s := by
  simp [frameOut]

@[simp] theorem kept_frameTurn (k : Nat) (ports lines : List Nat) (s : State) :
    keyOf (frameTurn k ports lines s) = keyOf s := by
  unfold frameTurn; dsimp only
  rw [kept_foldl]
  · simp
  · intro s a
    (repeat' split) <;> simp

@[simp] theorem kept_restartLine (e : Nat) (b : Bytes) (s : State) :
    keyOf (restartLine e b s) = keyOf s := by
  simp [restartLine]

@[simp] theorem kept_applySetting (line : Nat) (b : Bytes) (s : State) :
    keyOf (applySetting line b s) = keyOf s := by
  simp [applySetting]

@[simp] theorem kept_modProt (w : Nat) (f : Pair → Pair) (s : State) :
    keyOf (modProt w f s) = keyOf s := by
  simp [modProt]

@[simp] theorem kept_activateTdm (old new : Generation) (s : State) :
    keyOf (activateTdm old new s) = keyOf s := by
  simp [activateTdm]

/-! Unit. -/

@[simp] theorem kept_workLost (v : Nat) (s : State) :
    keyOf (workLost v s) = keyOf s := by
  unfold workLost
  refine kept_onStream _ _ _ fun s => ?_
  dsimp only
  split
  · split <;> simp
  · simp

@[simp] theorem kept_itemMissed (i : Item) (s : State) :
    keyOf (itemMissed i s) = keyOf s := by
  simp [itemMissed]

@[simp] theorem kept_missLost (old s : State) :
    keyOf (missLost old s) = keyOf s := by
  simp [missLost]

@[simp] theorem kept_coreFails (b p cause : Nat) (s : State) :
    keyOf (coreFails b p cause s) = keyOf s := by
  simp [coreFails]

@[simp] theorem kept_applyWork (i : Item) (s : State) :
    keyOf (applyWork i s) = keyOf s := by
  unfold applyWork
  split
  · rfl
  · split
    · exact kept_atTick _ _ _ fun s => kept_legReplayed _ _ _
    · simp
  · split
    · exact kept_atTick _ _ _ fun s => kept_confReplayed _ _
    · simp

@[simp] theorem kept_loseItems (b : Nat) (s : State) :
    keyOf (loseItems b s) = keyOf s := by
  simp only [loseItems]
  rw [kept_foldl]
  intro s a
  split <;> simp

@[simp] theorem kept_abandonCoding (place : Nat) (s : State) :
    keyOf (abandonCoding place s) = keyOf s := by
  simp [abandonCoding]

@[simp] theorem kept_abandonFrames (place : Nat) (s : State) :
    keyOf (abandonFrames place s) = keyOf s := by
  simp [abandonFrames]

@[simp] theorem kept_resetMacs (s : State) :
    keyOf (resetMacs s) = keyOf s := by
  simp [resetMacs]

@[simp] theorem kept_resetTdm (s : State) :
    keyOf (resetTdm s) = keyOf s := by
  simp [resetTdm]

@[simp] theorem kept_resetSorrel (s : State) :
    keyOf (resetSorrel s) = keyOf s := by
  simp [resetSorrel]

@[simp] theorem kept_clearBlock (b : Nat) (s : State) :
    keyOf (clearBlock b s) = keyOf s := by
  simp only [clearBlock]; (repeat' split) <;> simp_all

@[simp] theorem rest_resetBlock (b : Nat) (s : State) :
    (keyOf (resetBlock b s)).held = (keyOf s).held ∧ (keyOf (resetBlock b s)).active = (keyOf s).active := by
  unfold resetBlock; dsimp only; constructor <;> (repeat' split) <;> simp

theorem canon_resetBlock (b : Nat) (s : State) (h : (keyOf s).mems.canon) : (keyOf (resetBlock b s)).mems.canon := by
  unfold resetBlock; dsimp only
  split
  · exact canon_recResume _ (by simpa using h)
  · simpa using h

@[simp] theorem kept_clearUnit (b site : Nat) (s : State) :
    keyOf (clearUnit b site s) = keyOf s := by
  simp [clearUnit]

/-! CoreCtl. -/

@[simp] theorem kept_countIsolated (unit : Nat) (s : State) :
    keyOf (countIsolated unit s) = keyOf s := by
  simp [countIsolated]

@[simp] theorem kept_modCh (k ch : Nat) (f : DmaCh → DmaCh) (s : State) :
    keyOf (modCh k ch f s) = keyOf s := by
  simp [modCh]

@[simp] theorem kept_dmaGo (b p k ch : Nat) (s : State) :
    keyOf (dmaGo b p k ch s) = keyOf s := by
  simp [dmaGo]

@[simp] theorem rest_dmaDone (k ch : Nat) (failing : List Nat) (s : State) :
    (keyOf (dmaDone k ch failing s)).held = (keyOf s).held ∧ (keyOf (dmaDone k ch failing s)).active = (keyOf s).active := by
  unfold dmaDone; dsimp only
  generalize he : (dmaLines s ((s.core k).dma.getD ch {})).foldl (fun (r : List Nat × State) l =>
    ((if (meetError l (if failing.contains l then .several else .good) r.2).1 then l :: r.1 else r.1),
      (meetError l (if failing.contains l then .several else .good) r.2).2)) ([], s) = e
  have k0 : keyOf e.2 = keyOf s := by
    rw [← he]; exact kept_foldl2 _ (fun r a => by simp) _ _
  constructor <;> simp [k0]

theorem canon_dmaDone (k ch : Nat) (failing : List Nat) (s : State) (h : (keyOf s).mems.canon) : (keyOf (dmaDone k ch failing s)).mems.canon := by
  unfold dmaDone; dsimp only
  generalize he : (dmaLines s ((s.core k).dma.getD ch {})).foldl (fun (r : List Nat × State) l =>
    ((if (meetError l (if failing.contains l then .several else .good) r.2).1 then l :: r.1 else r.1),
      (meetError l (if failing.contains l then .several else .good) r.2).2)) ([], s) = e
  have k0 : keyOf e.2 = keyOf s := by
    rw [← he]; exact kept_foldl2 _ (fun r a => by simp) _ _
  simp only [kept_ite, kept_raiseSource, kept_modCh, ite_self]
  refine canon_foldl _ (fun s a hs => ?_) _ _ ?_
  · split
    · exact hs
    · exact canon_devWrite _ _ _ _ hs
  · rw [kept_foldl _ (fun s a => kept_countIsolated _ _), kept_State_draw, k0]; exact h

@[simp] theorem kept_refuseEnqueue (b q reason : Nat) (s : State) :
    keyOf (refuseEnqueue b q reason s) = keyOf s := by
  simp [refuseEnqueue]

@[simp] theorem kept_enqueueGo (b p k : Nat) (s : State) :
    keyOf (enqueueGo b p k s) = keyOf s := by
  simp only [enqueueGo]; (repeat' split) <;> simp_all

@[simp] theorem kept_dmaWrite (b p k ch reg : Nat) (v : Word24) (s : State) :
    keyOf (dmaWrite b p k ch reg v s) = keyOf s := by
  simp only [dmaWrite]; (repeat' split) <;> simp_all

@[simp] theorem kept_raiseDoorbells (b pos : Nat) (s : State) :
    keyOf (raiseDoorbells b pos s) = keyOf s := by
  simp only [raiseDoorbells]
  rw [kept_foldl]
  intro s a
  (repeat' split) <;> simp

@[simp] theorem kept_ctrlWrite (b p off : Nat) (v : Word24) (s : State) :
    keyOf (ctrlWrite b p off v s) = keyOf s := by
  simp only [ctrlWrite]; (repeat' split) <;> simp_all

@[simp] theorem kept_applyCtrl (b p k : Nat) (l : List (Nat × Word24)) (s : State) :
    keyOf (applyCtrl b p k l s) = keyOf s := by
  simp [applyCtrl]

@[simp] theorem kept_ctrlEvent (b p off v : Nat) (s : State) :
    keyOf (ctrlEvent b p off v s) = keyOf s := by
  simp only [ctrlEvent]; (repeat' split) <;> simp_all

@[simp] theorem kept_interruptEntry (b p : Nat) (s : State) :
    keyOf (interruptEntry b p s) = keyOf s := by
  simp only [interruptEntry]; (repeat' split) <;> simp_all

/-! Dsp. -/

@[simp] theorem kept_putImage (q : Nat) (b : Bytes) (s : State) :
    keyOf (putImage q b s) = keyOf s := by
  simp [putImage]

@[simp] theorem kept_expireCluster (c : Nat) (s : State) :
    keyOf (expireCluster c s) = keyOf s := by
  simp only [expireCluster]
  rw [kept_foldl]
  intro s a
  rfl

@[simp] theorem kept_activateDsp (old new : Generation) (s : State) :
    keyOf (activateDsp old new s) = keyOf s := by
  simp [activateDsp]

/-! Rtcp. -/

@[simp] theorem kept_sendLegRtcp (n : Nat) (b : Bytes) (launch : Time) (d : Bytes) (s : State) :
    keyOf (sendLegRtcp n b launch d s) = keyOf s := by
  simp [sendLegRtcp]

@[simp] theorem kept_legRtcpSend (n : Nat) (b : Bytes) (s : State) :
    keyOf (legRtcpSend n b s) = keyOf s := by
  simp [legRtcpSend]

@[simp] theorem kept_legBye (n : Nat) (b : Bytes) (s : State) :
    keyOf (legBye n b s) = keyOf s := by
  simp [legBye]

@[simp] theorem kept_vidRtcpSend (v : Nat) (b : Bytes) (s : State) :
    keyOf (vidRtcpSend v b s) = keyOf s := by
  simp [vidRtcpSend]

@[simp] theorem kept_relayRtcpSend (v : Nat) (b : Bytes) (s : State) :
    keyOf (relayRtcpSend v b s) = keyOf s := by
  simp [relayRtcpSend]

@[simp] theorem kept_subRtcpSend (n : Nat) (b : Bytes) (s : State) :
    keyOf (subRtcpSend n b s) = keyOf s := by
  simp [subRtcpSend]

@[simp] theorem kept_legRtcpPart (n : Nat) (x : Nat × Nat × Bytes) (s : State) :
    keyOf (legRtcpPart n x s) = keyOf s := by
  simp [legRtcpPart]

@[simp] theorem kept_vidRtcpPart (v : Nat) (x : Nat × Nat × Bytes) (s : State) :
    keyOf (vidRtcpPart v x s) = keyOf s := by
  simp [vidRtcpPart]

@[simp] theorem kept_relayRtcpPart (v : Nat) (x : Nat × Nat × Bytes) (s : State) :
    keyOf (relayRtcpPart v x s) = keyOf s := by
  simp only [relayRtcpPart]; (repeat' split) <;> simp_all

@[simp] theorem kept_subRtcpPart (n : Nat) (b : Bytes) (x : Nat × Nat × Bytes) (s : State) :
    keyOf (subRtcpPart n b x s) = keyOf s := by
  simp only [subRtcpPart]; (repeat' split) <;> simp_all

/-! Gen. -/

@[simp] theorem kept_wakePlaced (g : Generation) (s : State) :
    keyOf (wakePlaced g s) = keyOf s := by
  simp [wakePlaced]

@[simp] theorem kept_cancelRaise (a : Armed) (s : State) :
    keyOf (cancelRaise a s) = keyOf s := by
  unfold cancelRaise
  split
  · split <;> simp
  · rfl

@[simp] theorem kept_switchEngines (old new : Generation) (s : State) :
    keyOf (switchEngines old new s) = keyOf s := by
  simp [switchEngines]

@[simp] theorem rest_activate (a : Armed) (s : State) : (keyOf (activate a s)).held = (keyOf s).held ∧
    (keyOf (activate a s)).mems = (keyOf s).mems ∧ (keyOf (activate a s)).active = a.gen := by
  unfold activate; dsimp only
  refine ⟨?_, ?_, ?_⟩ <;> (repeat' split) <;> simp

@[simp] theorem rest_activateDue (s : State) : (keyOf (activateDue s)).held = (keyOf s).held ∧
    (keyOf (activateDue s)).mems = (keyOf s).mems := by
  unfold activateDue
  constructor <;> (repeat' split) <;> simp

@[simp] theorem kept_copyJournal (s : State) :
    keyOf (copyJournal s) = keyOf s := by
  simp [copyJournal]

@[simp] theorem kept_resumeAudio (g : Generation) (s : State) :
    keyOf (resumeAudio g s) = keyOf s := by
  unfold resumeAudio; dsimp only
  rw [kept_foldl]
  · simp
  · intro s a; split <;> simp

@[simp] theorem kept_resumeCoding (v : Nat) (s : State) :
    keyOf (resumeCoding v s) = keyOf s := by
  unfold resumeCoding
  split
  · rfl
  · dsimp only; rw [kept_foldl _ (fun s a => kept_modClover _ _), kept_holdBuffer]

@[simp] theorem kept_resumeVideo (g : Generation) (s : State) :
    keyOf (resumeVideo g s) = keyOf s := by
  unfold resumeVideo; dsimp only
  rw [kept_enqueueFlattens, kept_foldl _ (fun s a => kept_resumeCoding _ _), kept_modVideo, kept_modMallow, kept_foldl]
  intro s a; split <;> simp

@[simp] theorem kept_resumeDsp (g : Generation) (s : State) :
    keyOf (resumeDsp g s) = keyOf s := by
  simp [resumeDsp]

@[simp] theorem rest_warmResume (s : State) :
    (keyOf (warmResume s)).held = (keyOf s).held ∧ (keyOf (warmResume s)).active = (keyOf s).active := by
  unfold warmResume; dsimp only; constructor <;> simp

theorem canon_warmResume (s : State) (h : (keyOf s).mems.canon) : (keyOf (warmResume s)).mems.canon := by
  unfold warmResume; dsimp only
  rw [kept_bumpFault, kept_State_post]
  exact canon_recResume _ (by simpa using h)

@[simp] theorem kept_checkDeadlines (s : State) :
    keyOf (checkDeadlines s) = keyOf s := by
  unfold checkDeadlines; dsimp only
  rw [kept_foldl]
  · rw [kept_foldl] <;> simp
  · intro s a; (repeat' split) <;> simp

@[simp] theorem kept_injectAll (s : State) :
    keyOf (injectAll s) = keyOf s := by
  simp [injectAll]

@[simp] theorem kept_missShed (s : State) :
    keyOf (missShed s) = keyOf s := by
  simp [missShed]

@[simp] theorem kept_tickSources (s : State) :
    keyOf (tickSources s) = keyOf s := by
  simp [tickSources]

@[simp] theorem kept_latchAll (s : State) :
    keyOf (latchAll s) = keyOf s := by
  simp [latchAll]

@[simp] theorem held_beginTick (s : State) : (keyOf (beginTick s)).held = (keyOf s).held := by
  unfold beginTick; dsimp only
  simp only [kept_tickSources, kept_modClover, kept_modPower, kept_foldl sapTick (fun s a => by simp), kept_trackIdle, kept_countShed,
    kept_startTests, kept_missShed, kept_beginFrames, kept_startPictures, kept_injectAll, rest_activateDue]
  split
  · rw [(rest_warmResume _).1, kept_checkDeadlines]
  · rw [kept_checkDeadlines]

theorem canon_beginTick (s : State) (h : (keyOf s).mems.canon) : (keyOf (beginTick s)).mems.canon := by
  unfold beginTick; dsimp only
  simp only [kept_tickSources, kept_modClover, kept_modPower, kept_foldl sapTick (fun s a => by simp), kept_trackIdle, kept_countShed,
    kept_startTests, kept_missShed, kept_beginFrames, kept_startPictures, kept_injectAll, rest_activateDue]
  split
  · exact canon_warmResume _ (by rw [kept_checkDeadlines]; exact h)
  · rw [kept_checkDeadlines]; exact h

@[simp] theorem held_takeBoundary (s : State) : (keyOf (takeBoundary s)).held = (keyOf s).held := by
  unfold takeBoundary; dsimp only
  rw [kept_latchAll]
  (repeat' split) <;> simp

theorem canon_takeBoundary (s : State) (h : (keyOf s).mems.canon) : (keyOf (takeBoundary s)).mems.canon := by
  unfold takeBoundary; dsimp only
  rw [kept_latchAll]
  (repeat' split)
  · exact canon_beginTick _ (by simpa using h)
  · rw [(rest_activateDue _).2]; simpa using h
  · simpa using h

@[simp] theorem kept_restartObject (flow : Nat) (s : State) :
    keyOf (restartObject flow s) = keyOf s := by
  simp only [restartObject]; (repeat' split) <;> simp_all

@[simp] theorem kept_clusterUe (b p : Nat) (page : Bool) (s : State) :
    keyOf (clusterUe b p page s) = keyOf s := by
  simp only [clusterUe]; (repeat' split) <;> simp_all

/-! Reset. -/

@[simp] theorem rest_resetBar0 (s : State) :
    (keyOf (resetBar0 s)).held = (keyOf s).held ∧ (keyOf (resetBar0 s)).active = (keyOf s).active := by
  constructor <;> simp [resetBar0]

theorem canon_resetBar0 (s : State) (h : (keyOf s).mems.canon) : (keyOf (resetBar0 s)).mems.canon := ⟨by rfl, h.2.1, h.2.2⟩

@[simp] theorem kept_endReads (s : State) :
    keyOf (endReads s) = keyOf s := by
  simp [endReads]

@[simp] theorem rest_endpointReset (s : State) :
    (keyOf (endpointReset s)).held = (keyOf s).held ∧ (keyOf (endpointReset s)).active = (keyOf s).active := by
  unfold endpointReset; constructor <;> simp

theorem canon_endpointReset (s : State) (h : (keyOf s).mems.canon) : (keyOf (endpointReset s)).mems.canon := by
  unfold endpointReset
  simp only [kept_modBoot, kept_modPcie, kept_endReads]
  exact canon_resetBar0 _ h

@[simp] theorem kept_spoilWrites (s : State) :
    keyOf (spoilWrites s) = keyOf s := by
  simp [spoilWrites]

@[simp] theorem kept_coldPins (s : State) :
    keyOf (coldPins s) = keyOf s := by
  simp [coldPins]

@[simp] theorem kept_warmPins (s : State) :
    keyOf (warmPins s) = keyOf s := by
  simp [warmPins]

@[simp] theorem held_coldState (s : State) : (keyOf (coldState s)).held = (keyOf s).held := by
  unfold coldState; dsimp only
  rw [kept_coldPins]
  have e := congrArg Kept.held (kept_spoilWrites s)
  simpa [keyOf] using e

theorem canon_coldState (s : State) (h : (keyOf s).mems.canon) : (keyOf (coldState s)).mems.canon := by
  unfold coldState; dsimp only
  rw [kept_coldPins]
  have e := congrArg Kept.mems (kept_spoilWrites s)
  simp only [keyOf, Mems.mk.injEq] at e
  exact ⟨by rfl, by simpa [keyOf, e.2.1] using h.2.1, by rfl⟩

@[simp] theorem kept_losePtp (s : State) :
    keyOf (losePtp s) = keyOf s := by
  simp [losePtp]

@[simp] theorem rest_warmState (s : State) :
    (keyOf (warmState s)).held = (keyOf s).held ∧ (keyOf (warmState s)).active = (keyOf s).active := by
  unfold warmState; dsimp only
  generalize hx : resetTdm (resetMacs _) = x
  have e : keyOf x = keyOf s := by rw [← hx]; simp
  rw [← e]
  exact ⟨rfl, rfl⟩

theorem canon_warmState (s : State) (h : (keyOf s).mems.canon) : (keyOf (warmState s)).mems.canon := by
  unfold warmState; dsimp only
  generalize hx : resetTdm (resetMacs _) = x
  have e : keyOf x = keyOf s := by rw [← hx]; simp
  rw [← e] at h
  exact ⟨by rfl, h.2.1, h.2.2⟩

/-! Mgmt. -/

@[simp] theorem kept_sampleMonitor (i mv : Nat) (s : State) :
    keyOf (sampleMonitor i mv s) = keyOf s := by
  simp [sampleMonitor]

@[simp] theorem kept_mirrorWrite (ok : Bool) (s : State) :
    keyOf (mirrorWrite ok s) = keyOf s := by
  unfold mirrorWrite; dsimp only
  split <;> simp

@[simp] theorem kept_decommission (s : State) :
    keyOf (decommission s) = keyOf s := by
  simp [decommission]

/-! Test. -/

@[simp] theorem kept_runUnit (b : Nat) (kinds : Nat) (r : List UnitTest) (s : State) (site : Nat) :
    keyOf (runUnit b kinds r s site) = keyOf s := by
  simp [runUnit]

/-! Boot. -/

@[simp] theorem kept_logRecord (e : Event) (s : State) :
    keyOf (logRecord e s) = keyOf s := by
  simp [logRecord]

@[simp] theorem kept_bootRecord (e : Event) (s : State) :
    keyOf (bootRecord e s) = keyOf s := by
  simp [bootRecord]

@[simp] theorem kept_startImage (x : FwSlot) (s : State) :
    keyOf (startImage x s) = keyOf s := by
  simp [startImage]

@[simp] theorem kept_runSlot (i : Nat) (trial : Bool) (s : State) :
    keyOf (runSlot i trial s) = keyOf s := by
  simp [runSlot]

@[simp] theorem kept_loadConfig (ok : Bool) (s : State) :
    keyOf (loadConfig ok s) = keyOf s := by
  simp [loadConfig]

@[simp] theorem kept_rebuildLog (kept : Bool) (s : State) :
    keyOf (rebuildLog kept s) = keyOf s := by
  simp [rebuildLog]

@[simp] theorem kept_logTrip (s : State) :
    keyOf (logTrip s) = keyOf s := by
  simp only [logTrip]; (repeat' split) <;> simp_all

@[simp] theorem kept_romBoot (b : ColdBoot) (s : State) :
    keyOf (romBoot b s) = keyOf s := by
  simp only [romBoot]; (repeat' split) <;> simp_all

@[simp] theorem kept_coldBoot (b : ColdBoot) (code : Nat) (s : State) :
    keyOf (coldBoot b code s) = keyOf s := by
  simp [coldBoot]

@[simp] theorem held_selfCold (code : Nat) (s : State) : (keyOf (selfCold code s)).held = (keyOf s).held := by
  simp [selfCold]

theorem canon_selfCold (code : Nat) (s : State) (h : (keyOf s).mems.canon) : (keyOf (selfCold code s)).mems.canon := by
  unfold selfCold; rw [kept_coldBoot]; exact canon_coldState _ h

@[simp] theorem rest_warmBoot (imageOk : Bool) (code : Nat) (s : State) :
    (keyOf (warmBoot imageOk code s)).held = (keyOf s).held ∧ (keyOf (warmBoot imageOk code s)).mems = (keyOf s).mems := by
  unfold warmBoot; dsimp only
  generalize hu : s.modBoot _ = u
  have e : keyOf u = keyOf s := by rw [← hu]; simp
  clear hu
  repeat' split
  all_goals
    constructor
    all_goals simp [e]

@[simp] theorem held_warmReset (code : Nat) (s : State) : (keyOf (warmReset code s)).held = (keyOf s).held := by
  unfold warmReset; split <;> simp

theorem canon_warmReset (code : Nat) (s : State) (h : (keyOf s).mems.canon) : (keyOf (warmReset code s)).mems.canon := by
  unfold warmReset; split
  · rw [(rest_warmBoot _ _ _).2]; exact canon_warmState _ h
  · exact canon_selfCold _ _ h

@[simp] theorem kept_pulseTaken (low : Nat) (s : State) :
    keyOf (pulseTaken low s).2 = keyOf s := by
  simp only [pulseTaken]; (repeat' split) <;> simp_all

@[simp] theorem held_pcieEvent (i : Nat) (s : State) : (keyOf (pcieEvent i s)).held = (keyOf s).held := by
  unfold pcieEvent; dsimp only
  (repeat' split) <;> simp

theorem canon_pcieEvent (i : Nat) (s : State) (h : (keyOf s).mems.canon) : (keyOf (pcieEvent i s)).mems.canon := by
  unfold pcieEvent; dsimp only
  repeat' split
  all_goals first
    | exact h
    | (rw [kept_State_post]; first | exact canon_warmReset _ _ h | exact canon_endpointReset _ h)

@[simp] theorem kept_linkLost (s : State) :
    keyOf (linkLost s) = keyOf s := by
  simp [linkLost]

@[simp] theorem held_pcieDown (s : State) : (keyOf (pcieDown s)).held = (keyOf s).held := by
  unfold pcieDown; split <;> simp

theorem canon_pcieDown (s : State) (h : (keyOf s).mems.canon) : (keyOf (pcieDown s)).mems.canon := by
  unfold pcieDown; split
  · exact canon_pcieEvent _ _ (by simpa using h)
  · exact h

@[simp] theorem kept_dramFails (state channel step : Nat) (s : State) :
    keyOf (dramFails state channel step s) = keyOf s := by
  simp [dramFails]

@[simp] theorem kept_warmUnitEnd (b : Nat) (r : UnitTest) (s : State) :
    keyOf (warmUnitEnd b r s) = keyOf s := by
  simp [warmUnitEnd]

@[simp] theorem kept_assignSites (s : State) :
    keyOf (assignSites s) = keyOf s := by
  simp [assignSites]

@[simp] theorem kept_requestRelease (b : Nat) (s : State) :
    keyOf (requestRelease b s) = keyOf s := by
  simp [requestRelease]

@[simp] theorem kept_releaseBlocks (s : State) :
    keyOf (releaseBlocks s) = keyOf s := by
  simp [releaseBlocks]

@[simp] theorem kept_bootDomains (s : State) :
    keyOf (bootDomains s) = keyOf s := by
  simp [bootDomains]

@[simp] theorem kept_setReady (s : State) :
    keyOf (setReady s) = keyOf s := by
  simp [setReady]

@[simp] theorem kept_readyCold (s : State) :
    keyOf (readyCold s) = keyOf s := by
  simp [readyCold]

@[simp] theorem kept_readyWarm (s : State) :
    keyOf (readyWarm s) = keyOf s := by
  simp [readyWarm]

/-! Sys. -/

@[simp] theorem kept_endQuiesce (b : Nat) (q : Quiesce) (st : Status) (detail : Nat) (s : State) :
    keyOf (endQuiesce b q st detail s) = keyOf s := by
  simp only [endQuiesce]; (repeat' split) <;> simp_all

@[simp] theorem kept_runWaiting (b : Nat) (s : State) :
    keyOf (runWaiting b s) = keyOf s := by
  simp [runWaiting]

/-! PowerRows. -/

@[simp] theorem kept_powerState (n : Nat) (s : State) :
    keyOf (powerState n s) = keyOf s := by
  simp [powerState]

@[simp] theorem kept_stopLines (s : State) :
    keyOf (stopLines s) = keyOf s := by
  simp [stopLines]

@[simp] theorem kept_enterSleep (s : State) :
    keyOf (enterSleep s) = keyOf s := by
  simp [enterSleep]

@[simp] theorem kept_wakeSleep (s : State) :
    keyOf (wakeSleep s) = keyOf s := by
  simp [wakeSleep]

@[simp] theorem kept_wakeIfAsleep (s : State) :
    keyOf (wakeIfAsleep s) = keyOf s := by
  simp [wakeIfAsleep]

@[simp] theorem kept_hosted (f : State → State) (s : State) (h : ∀ s, keyOf (f s) = keyOf s) : keyOf (s.hosted f) = keyOf s := by
  unfold State.hosted; split <;> simp [h]

@[simp] theorem rest_mediaOff (s : State) :
    (keyOf (mediaOff s)).held = (keyOf s).held ∧ (keyOf (mediaOff s)).active = (keyOf s).active := by
  unfold mediaOff; dsimp only
  generalize hx : resetTdm (resetMacs (s.modRt _)) = x
  have e : keyOf x = keyOf s := by rw [← hx]; simp
  have g := (rest_resetBar0 x)
  rw [e] at g
  exact g

theorem canon_mediaOff (s : State) (h : (keyOf s).mems.canon) : (keyOf (mediaOff s)).mems.canon := by
  unfold mediaOff; dsimp only
  generalize hx : resetTdm (resetMacs (s.modRt _)) = x
  have e : keyOf x = keyOf s := by rw [← hx]; simp
  exact canon_resetBar0 x (e ▸ h)

@[simp] theorem rest_enterDeepSleep (s : State) :
    (keyOf (enterDeepSleep s)).held = (keyOf s).held ∧ (keyOf (enterDeepSleep s)).active = (keyOf s).active := by
  unfold enterDeepSleep; constructor <;> simp

theorem canon_enterDeepSleep (s : State) (h : (keyOf s).mems.canon) : (keyOf (enterDeepSleep s)).mems.canon := by
  unfold enterDeepSleep; dsimp only
  rw [kept_bitsPin]
  have g : (keyOf (powerState 3 (mediaOff (zeroise 2 s)))).mems.canon := by
    rw [kept_powerState]
    exact canon_mediaOff _ (by rw [kept_zeroise]; exact h)
  generalize powerState 3 (mediaOff (zeroise 2 s)) = x at g
  exact canon_modDram g id

@[simp] theorem rest_enterOff (s : State) :
    (keyOf (enterOff s)).held = (keyOf s).held ∧ (keyOf (enterOff s)).active = (keyOf s).active := by
  unfold enterOff
  constructor <;> simp

theorem canon_enterOff (s : State) (h : (keyOf s).mems.canon) : (keyOf (enterOff s)).mems.canon := by
  unfold enterOff
  simp only [kept_bitsPin, kept_State_emit, kept_modBoot]
  refine canon_modDram ?_ fun _ => by rfl
  rw [kept_powerState]
  refine canon_mediaOff _ ?_
  simpa using h

@[simp] theorem kept_wakeDeepSleep (s : State) :
    keyOf (wakeDeepSleep s) = keyOf s := by
  simp [wakeDeepSleep]

@[simp] theorem rest_stopBlock (s : State) (b : Nat) :
    (keyOf (stopBlock s b)).held = (keyOf s).held ∧ (keyOf (stopBlock s b)).active = (keyOf s).active := by
  unfold stopBlock; dsimp only; constructor <;> (repeat' split) <;> simp

theorem canon_stopBlock (s : State) (b : Nat) (h : (keyOf s).mems.canon) : (keyOf (stopBlock s b)).mems.canon := by
  unfold stopBlock; dsimp only
  rw [kept_modBoot]; split
  · simpa using h
  · exact canon_resetBlock _ _ h

@[simp] theorem held_loseLock (p : Nat) (s : State) : (keyOf (loseLock p s)).held = (keyOf s).held := by
  unfold loseLock; dsimp only
  split
  · rfl
  · rw [kept_alertUpdate]
    generalize hu : (s.modPower _).postIf _ _ _ _ _ = u
    have e : keyOf u = keyOf s := by rw [← hu, kept_State_postIf, kept_modPower]
    have g := held_foldl stopBlock (fun s a => (rest_stopBlock s a).1)
      ((List.range 36).filter fun b => b != 35 && (pllsOf b).contains p && !u.boot.inReset.getLsbD b) u
    rw [e] at g
    split
    · rw [held_pcieDown]; exact g
    · exact g

theorem canon_loseLock (p : Nat) (s : State) (h : (keyOf s).mems.canon) : (keyOf (loseLock p s)).mems.canon := by
  unfold loseLock; dsimp only
  split
  · exact h
  · rw [kept_alertUpdate]
    generalize hu : (s.modPower _).postIf _ _ _ _ _ = u
    have e : keyOf u = keyOf s := by rw [← hu, kept_State_postIf, kept_modPower]
    have g := canon_foldl stopBlock (fun s a hs => canon_stopBlock s a hs)
      ((List.range 36).filter fun b => b != 35 && (pllsOf b).contains p && !u.boot.inReset.getLsbD b) u (by rw [e]; exact h)
    split
    · exact canon_pcieDown _ g
    · exact g

@[simp] theorem held_refclkFails (s : State) : (keyOf (refclkFails s)).held = (keyOf s).held := by
  unfold refclkFails; rw [held_foldl _ fun s a => held_loseLock a s, kept_modPower]

theorem canon_refclkFails (s : State) (h : (keyOf s).mems.canon) : (keyOf (refclkFails s)).mems.canon := by
  unfold refclkFails
  exact canon_foldl _ (fun s a hs => canon_loseLock a s hs) _ _ (by simpa using h)

@[simp] theorem rest_thermalTrip (i : Nat) (s : State) :
    (keyOf (thermalTrip i s)).held = (keyOf s).held ∧ (keyOf (thermalTrip i s)).active = (keyOf s).active := by
  unfold thermalTrip; constructor <;> simp

theorem canon_thermalTrip (i : Nat) (s : State) (h : (keyOf s).mems.canon) : (keyOf (thermalTrip i s)).mems.canon := by
  unfold thermalTrip; dsimp only
  exact canon_enterOff _ (by simpa using h)

/-! Hsp. -/

@[simp] theorem kept_modDir (h : Nat) (out : Bool) (f : HspDir → HspDir) (s : State) :
    keyOf (modDir h out f s) = keyOf s := by
  simp [modDir]

@[simp] theorem kept_fullTime (h : Nat) (s : State) :
    keyOf (fullTime h s) = keyOf s := by
  simp only [fullTime]; (repeat' split) <;> simp_all

@[simp] theorem kept_writeHspTail (out : Bool) (h : Nat) (v : BitVec 32) (s : State) :
    keyOf (writeHspTail out h v s) = keyOf s := by
  simp [writeHspTail]

@[simp] theorem kept_writeHspSize (out : Bool) (h : Nat) (v : BitVec 32) (s : State) :
    keyOf (writeHspSize out h v s) = keyOf s := by
  simp [writeHspSize]

@[simp] theorem kept_writeHspBase (out hi : Bool) (h : Nat) (v : BitVec 32) (s : State) :
    keyOf (writeHspBase out hi h v s) = keyOf s := by
  simp [writeHspBase]

@[simp] theorem kept_writeHspErr (h : Nat) (v : BitVec 32) (s : State) :
    keyOf (writeHspErr h v s) = keyOf s := by
  simp [writeHspErr]

@[simp] theorem kept_hspVector (h : Nat) (s : State) :
    keyOf (hspVector h s) = keyOf s := by
  simp [hspVector]

@[simp] theorem rest_completeDesc (h : Nat) (out : Bool) (status written : Nat) (s : State) :
    (keyOf (completeDesc h out status written s)).held = (keyOf s).held ∧ (keyOf (completeDesc h out status written s)).active = (keyOf s).active := by
  unfold completeDesc; dsimp only; constructor <;> simp

theorem canon_completeDesc (h : Nat) (out : Bool) (status written : Nat) (s : State) (h' : (keyOf s).mems.canon) : (keyOf (completeDesc h out status written s)).mems.canon := by
  unfold completeDesc; dsimp only
  simp only [kept_hspVector, kept_modHsp, kept_modDir]
  exact canon_host _ h' (memWrite_wf _ _ h'.2.1)

@[simp] theorem rest_badDesc (h : Nat) (out : Bool) (s : State) :
    (keyOf (badDesc h out s)).held = (keyOf s).held ∧ (keyOf (badDesc h out s)).active = (keyOf s).active := by
  simp [badDesc]

theorem canon_badDesc (h : Nat) (out : Bool) (s : State) (h' : (keyOf s).mems.canon) : (keyOf (badDesc h out s)).mems.canon := by
  exact canon_completeDesc _ _ _ _ _ (by simpa using h')

@[simp] theorem kept_sendHostFrame (d : Bytes) (s : State) :
    keyOf (sendHostFrame d s) = keyOf s := by
  simp [sendHostFrame]

@[simp] theorem kept_deliverInbound (h : Nat) (d : Bytes) (s : State) :
    keyOf (deliverInbound h d s).2 = keyOf s := by
  simp only [deliverInbound]; (repeat' split) <;> simp_all

@[simp] theorem rest_writePacket (h a : Nat) (w : Bytes) (long : Bool) (s : State) :
    (keyOf (writePacket h a w long s)).held = (keyOf s).held ∧ (keyOf (writePacket h a w long s)).active = (keyOf s).active := by
  unfold writePacket; dsimp only; constructor <;> simp

theorem canon_writePacket (h a : Nat) (w : Bytes) (long : Bool) (s : State) (h' : (keyOf s).mems.canon) : (keyOf (writePacket h a w long s)).mems.canon := by
  unfold writePacket; dsimp only
  simp only [kept_ite, kept_bumpHsp, ite_self]
  exact canon_host _ h' (memWrite_wf _ _ h'.2.1)

/-! Bar0. -/

@[simp] theorem kept_hspWrite (h off : Nat) (v : BitVec 32) (s : State) :
    keyOf (hspWrite h off v s) = keyOf s := by
  simp only [hspWrite]; (repeat' split) <;> simp_all

@[simp] theorem kept_blockApply (off : Nat) (v : BitVec 32) (s : State) :
    keyOf (blockApply off v s) = keyOf s := by
  simp [blockApply]

@[simp] theorem kept_demandBlock (off : Nat) (s : State) :
    keyOf (demandBlock off s) = keyOf s := by
  simp [demandBlock]

@[simp] theorem kept_blockWrite (off : Nat) (v : BitVec 32) (s : State) :
    keyOf (blockWrite off v s) = keyOf s := by
  simp [blockWrite]

@[simp] theorem kept_blockUnread (off : Nat) (s : State) :
    keyOf (blockUnread off s) = keyOf s := by
  simp [blockUnread]

@[simp] theorem kept_writeMbxIrq (hi : Bool) (v : BitVec 32) (s : State) :
    keyOf (writeMbxIrq hi v s) = keyOf s := by
  simp [writeMbxIrq]

@[simp] theorem mems_regWrite (off : Nat) (v : BitVec 32) (s : State) :
    (keyOf (regWrite off v s)).held = (keyOf s).held ∧ (keyOf (regWrite off v s)).active = (keyOf s).active ∧
    (keyOf (regWrite off v s)).mems = (keyOf s).mems := by
  simp only [regWrite]; (repeat' split) <;> simp_all

@[simp] theorem rest_wordWrite (off : Nat) (v : BitVec 32) (s : State) :
    (keyOf (wordWrite off v s)).held = (keyOf s).held ∧ (keyOf (wordWrite off v s)).active = (keyOf s).active := by
  unfold wordWrite; split <;> simp

theorem canon_wordWrite (off : Nat) (v : BitVec 32) (s : State) (h : (keyOf s).mems.canon) : (keyOf (wordWrite off v s)).mems.canon := by
  unfold wordWrite; split
  · exact canon_modSenak h fun hm => memWrite_wf _ _ hm
  · rw [(mems_regWrite _ _ _).2.2]; exact h

@[simp] theorem rest_regWrites (off : Nat) (l : List (BitVec 32)) (s : State) :
    (keyOf (regWrites off l s)).held = (keyOf s).held ∧ (keyOf (regWrites off l s)).active = (keyOf s).active := by
  induction l generalizing off s with
  | nil => exact ⟨rfl, rfl⟩
  | cons v l ih => simp only [regWrites, ih, rest_wordWrite, and_self]

theorem canon_regWrites (off : Nat) (l : List (BitVec 32)) (s : State) (h : (keyOf s).mems.canon) :
    (keyOf (regWrites off l s)).mems.canon := by
  induction l generalizing off s with
  | nil => exact h
  | cons v l ih => exact ih _ _ (canon_wordWrite _ _ _ h)

@[simp] theorem rest_slotWrite (off : Nat) (data : Bytes) (s : State) :
    (keyOf (slotWrite off data s)).held = (keyOf s).held ∧ (keyOf (slotWrite off data s)).active = (keyOf s).active := by
  exact ⟨rfl, rfl⟩

theorem canon_slotWrite (off : Nat) (data : Bytes) (s : State) (h : (keyOf s).mems.canon) : (keyOf (slotWrite off data s)).mems.canon := by
  exact canon_modSenak h fun hm => memWrite_wf _ _ hm

@[simp] theorem rest_bar0Write (off : Nat) (data : Bytes) (s : State) :
    (keyOf (bar0Write off data s)).held = (keyOf s).held ∧ (keyOf (bar0Write off data s)).active = (keyOf s).active := by
  unfold bar0Write; dsimp only; constructor <;> (repeat' split) <;> simp

theorem canon_bar0Write (off : Nat) (data : Bytes) (s : State) (h : (keyOf s).mems.canon) : (keyOf (bar0Write off data s)).mems.canon := by
  unfold bar0Write; dsimp only
  split
  · exact canon_slotWrite _ _ _ h
  · split
    · exact canon_regWrites _ _ _ h
    · have k : (keyOf (if (isRegister (off / 4 * 4) || isRegister ((off + data.length - 1) / 4 * 4)) = true then s.devFault 4 else s)).mems.canon := by
        split <;> simpa using h
      split
      · exact canon_slotWrite _ _ _ k
      · exact k

@[simp] theorem kept_bar0Touch (off : Nat) (s : State) :
    keyOf (bar0Touch off s) = keyOf s := by
  unfold bar0Touch
  split
  · (repeat' split) <;> simp
  · split <;> simp

@[simp] theorem kept_wordReads (off n : Nat) (s : State) : keyOf (wordReads off n s).2 = keyOf s := by
  induction n generalizing off s with
  | zero => rfl
  | succ n ih => simp [wordReads, ih]

@[simp] theorem kept_bar0Read (off n : Nat) (s : State) :
    keyOf (bar0Read off n s) = keyOf s := by
  simp [bar0Read]

/-! Crypto. -/

@[simp] theorem kept_sendRefused (flow : Nat) (rtcp absent : Bool) (s : State) :
    keyOf (sendRefused flow rtcp absent s) = keyOf s := by
  simp [sendRefused]

@[simp] theorem kept_countDiscard (flow : Nat) (s : State) :
    keyOf (countDiscard flow s) = keyOf s := by
  simp [countDiscard]

@[simp] theorem kept_deliverOpened (flow : Nat) (arrived : Time) (f : Frame) (s : State) :
    keyOf (deliverOpened flow arrived f s) = keyOf s := by
  simp [deliverOpened]

@[simp] theorem kept_runRequest (q : SecReq) (s : State) :
    keyOf (runRequest q s) = keyOf s := by
  unfold runRequest; dsimp only
  split
  · rename_i slot rtcp bySeq o
    split
    · simp
    · rcases ha : acceptSend slot rtcp (if bySeq = true then some o.packet.seq else none) s with ⟨x, t⟩
      have e : keyOf t = keyOf s := by
        have := kept_acceptSend slot rtcp (if bySeq = true then some o.packet.seq else none) s
        rwa [ha] at this
      cases x <;> simp [e]
  · rename_i slot rtcp flow arrived f
    rcases ha : acceptReceive slot rtcp f.data s with ⟨x, t⟩
    have e : keyOf t = keyOf s := by
      have := kept_acceptReceive slot rtcp f.data s
      rwa [ha] at this
    cases x <;> simp [e]

@[simp] theorem kept_takeRequest (engine mismatch : Nat) (s : State) :
    keyOf (takeRequest engine mismatch s) = keyOf s := by
  simp only [takeRequest]; (repeat' split) <;> simp_all

/-! Dram. -/

@[simp] theorem kept_modCtl (c : Nat) (f : SubCtl → SubCtl) (s : State) :
    keyOf (modCtl c f s) = keyOf s := by
  simp [modCtl]

@[simp] theorem rest_serve (c : Nat) (r : LineAccess) (e : LineErr) (s : State) :
    (keyOf (serve c r e s)).held = (keyOf s).held ∧ (keyOf (serve c r e s)).active = (keyOf s).active := by
  unfold serve; dsimp only; constructor <;> (repeat' split) <;> simp

theorem canon_serve (c : Nat) (r : LineAccess) (e : LineErr) (s : State) (h : (keyOf s).mems.canon) : (keyOf (serve c r e s)).mems.canon := by
  unfold serve; dsimp only
  split
  · refine canon_State_dramWrite _ _ _ ?_
    simpa using h
  · split <;> simpa using h

/-! Zip. -/

@[simp] theorem kept_modZip (c : Nat) (f : ZipCtx → ZipCtx) (s : State) :
    keyOf (modZip c f s) = keyOf s := by
  simp [modZip]

@[simp] theorem rest_endZipJob (c : Nat) (fault : Bool) (z : ZipCtx) (p : PendingCmd) (s : State) :
    (keyOf (endZipJob c fault z p s)).held = (keyOf s).held ∧ (keyOf (endZipJob c fault z p s)).active = (keyOf s).active := by
  unfold endZipJob; dsimp only
  generalize zipOutcome _ _ _ _ _ = x
  simp only [kept_State_endPending, kept_State_postIf, kept_modZip, rest_State_dramWrite, kept_State_draw, and_self]

theorem canon_endZipJob (c : Nat) (fault : Bool) (z : ZipCtx) (p : PendingCmd) (s : State) (h : (keyOf s).mems.canon) :
    (keyOf (endZipJob c fault z p s)).mems.canon := by
  unfold endZipJob; dsimp only
  generalize zipOutcome _ _ _ _ _ = x
  rw [kept_State_endPending, kept_State_postIf, kept_modZip]
  exact canon_State_dramWrite _ _ _ (canon_State_dramWrite _ _ _ (by rw [kept_State_draw]; exact h))

/-! Issue. -/

@[simp] theorem kept_storeWord (b k : Nat) (w : Bool × Nat × Word24) (s : State) :
    keyOf (storeWord b k w s) = keyOf s := by
  simp only [storeWord]; (repeat' split) <;> simp_all

@[simp] theorem kept_issue (t : Time) (b p : Nat) (shape : Shape) (words : List Nat) (eff : Env → Option Eff) (s : State) :
    keyOf (issue t b p shape words eff s) = keyOf s := by
  simp only [issue]; (repeat' split) <;> simp_all

end Sys2Proof.Laws
end

