-- ==== Sys2Proof/Laws/Completion.lean ====
section
/-! SUPPORT. From a command's run to its row: each shape of statement about a command of Senak follows from its row's call and its run. -/

namespace Sys2Proof.Laws

open Sys2Proof.Machine

/-- Equal keys give equal slots and slot bits. -/
theorem slots_of_key {s t : State} (h : keyOf s = keyOf t) :
    s.senak.slots = t.senak.slots ∧ s.senak.busy = t.senak.busy ∧ s.senak.done = t.senak.done :=
  ⟨congrArg (·.mems.slots) h, congrArg (·.bits.1) h, congrArg (·.bits.2) h⟩

/-- The state a command's run sees has the key of the state before. -/
theorem key_acting (c : Cmd) (r : Request) (s : State) : keyOf (c.acting r s) = keyOf s := by simp [Cmd.acting]

/-- The slots of a safe state are canonical. -/
theorem slots_wf {s : State} (hs : Safe s) : s.senak.slots.wf = true := by
  simp only [Safe, State.memWf, Bool.and_eq_true] at hs
  exact hs.1.2

/-- A command with one outcome: its run's effect keeps the key, and its row calls it. -/
theorem completes_of_run {c : Cmd} {row : Request → Instr} {st : Status} {Q : Request → State → Prop}
    {U : Request → State → State} {D : Request → Generation → State → Bytes → Prop}
    (hrow : ∀ r s, exec (row r) s = execCmd c r s) (hst : st = .ok ∨ st = .pending)
    (hU : ∀ r s, keyOf (U r s) = keyOf s)
    (h : ∀ r g s, Q r s → ∃ data, c.run r g s = { status := st, data := data, st := U r s } ∧ D r g s data) :
    Completes c row st Q U D :=
  completes_cmd hrow hst (fun r s => slots_of_key (hU r s)) h

/-- A command that only answers. -/
theorem tells_of_run {c row d} (hrow : ∀ r s, exec (row r) s = execCmd c r s) (h : ∀ r g s, c.run r g s = okWith s (d r g s)) :
    Tells c row d :=
  completes_of_run hrow (.inl rfl) (fun _ _ => rfl) fun r g s _ => ⟨_, h r g s, rfl⟩

/-- A command that acts and answers no data. -/
theorem acts_of_run {c row u} (hrow : ∀ r s, exec (row r) s = execCmd c r s) (hk : ∀ r s, keyOf (u r s) = keyOf s)
    (h : ∀ r g s, c.run r g s = okWith (u r s)) : Acts c row u :=
  completes_of_run hrow (.inl rfl) hk fun r g s _ => ⟨_, h r g s, rfl⟩

/-- A command that changes the staged generation. -/
theorem stages_of_run {c row f} (hrow : ∀ r s, exec (row r) s = execCmd c r s) (h : ∀ r g s, c.run r g s = okWith (s.stage (f r))) :
    Stages c row f :=
  completes_of_run hrow (.inl rfl) (fun _ _ => rfl) fun r g s _ => ⟨_, h r g s, rfl⟩

/-- A command that answers counters and clears them where asked. -/
theorem clears_of_run {c row clear d u} (hrow : ∀ r s, exec (row r) s = execCmd c r s) (hk : ∀ r s, keyOf (u r s) = keyOf s)
    (h : ∀ r g s, c.run r g s = okWith (if clear r then u r s else s) (d r s)) : TellsAndClears c row clear d u := by
  refine completes_of_run hrow (.inl rfl) (fun r s => ?_) fun r g s _ => ⟨_, h r g s, rfl⟩
  split
  · exact hk r s
  · rfl

/-- A command that answers PENDING and waits among the pending commands. -/
theorem defers_of_run {c row code obj u} (hrow : ∀ r s, exec (row r) s = execCmd c r s) (hk : ∀ r s, keyOf (u r s) = keyOf s)
    (h : ∀ r g s, c.run r g s = { status := .pending, st := joined code (obj r) r (u r s) }) : Defers c row code obj u :=
  completes_of_run hrow (.inr rfl) (fun r s => (show keyOf (joined code (obj r) r (u r s)) = keyOf (u r s) from rfl).trans (hk r s))
    fun r g s _ => ⟨_, h r g s, rfl⟩

/-- One command on one state: what its run gives is what its row answers, beside what completing it changes. -/
theorem answers_of_run {c : Cmd} {row : Request → Instr} {r : Request} {s : State} {st : Status} {data : Bytes} {u : State}
    (hrow : exec (row r) s = execCmd c r s) (hs : Safe s) (hp : c.passes r s = true)
    (hst : st = .ok ∨ (st = .pending ∧ s.senak.pending.length < 16))
    (hrun : c.run r (c.genOf r s) (c.acting r s) = { status := st, data := data, st := u })
    (hk : u.senak.slots = s.senak.slots ∧ u.senak.busy = s.senak.busy ∧ u.senak.done = s.senak.done) :
    ∃ t, exec (row r) s = .next t ∧ Answered r s.senak.nextSeq (c.reported r s) st 0 data s t ∧ Beside u t := by
  have h := runCmd_passes hp hrun
  refine ⟨finishCmd r s.senak.nextSeq (c.reported r s) { status := st, data := data, st := u }, ?_, ?_, ?_⟩
  · rw [hrow, execCmd, h]
    rcases hst with rfl | ⟨rfl, h2⟩
    · simp
    · simp [h2]
  · exact answered_finishCmd r _ _ { status := st, data := data, st := u } s (slots_wf hs) hk.1 hk.2.1 hk.2.2
  · exact beside_finishCmd _ _ _ _

/-- What stands beside a command's outcome, part by part. -/
theorem beside_gens {u t : State} (h : Beside u t) : t.gens = u.gens := by rw [h]

theorem beside_pending {u t : State} (h : Beside u t) : t.senak.pending = u.senak.pending := by rw [h]

theorem beside_sec {u t : State} (h : Beside u t) : t.rt.sec = u.rt.sec := by rw [h]

end Sys2Proof.Laws
end

