-- ==== Sys2Proof/Laws/Frame.lean ====
section
/-! SUPPORT. What raising an event, ending a pending command, sending a vector and driving a pin leave, field by field. -/

namespace Sys2Proof.Laws

open Sys2Proof.Machine

variable (s : State)

/-! raise. -/

@[simp] theorem queueEvent_pcie (e : Event) (h : Senak) : (Senak.queueEvent e h).pcie = h.pcie := by
  unfold Senak.queueEvent; split <;> rfl
@[simp] theorem raise_senak_pcie (e : Event) : (s.raise e).senak.pcie = s.senak.pcie := by
  unfold State.raise State.raiseAt; dsimp only; split <;> (try split) <;> (try split) <;> simp
@[simp] theorem queueEvent_evq_base (e : Event) (h : Senak) : (Senak.queueEvent e h).evq.base = h.evq.base := by
  unfold Senak.queueEvent; split <;> rfl
@[simp] theorem raise_senak_evq_base (e : Event) : (s.raise e).senak.evq.base = s.senak.evq.base := by
  unfold State.raise State.raiseAt; dsimp only; split <;> (try split) <;> (try split) <;> simp
@[simp] theorem queueEvent_evq_log2 (e : Event) (h : Senak) : (Senak.queueEvent e h).evq.log2 = h.evq.log2 := by
  unfold Senak.queueEvent; split <;> rfl
@[simp] theorem raise_senak_evq_log2 (e : Event) : (s.raise e).senak.evq.log2 = s.senak.evq.log2 := by
  unfold State.raise State.raiseAt; dsimp only; split <;> (try split) <;> (try split) <;> simp
@[simp] theorem queueEvent_evq_holdoff (e : Event) (h : Senak) : (Senak.queueEvent e h).evq.holdoff = h.evq.holdoff := by
  unfold Senak.queueEvent; split <;> rfl
@[simp] theorem raise_senak_evq_holdoff (e : Event) : (s.raise e).senak.evq.holdoff = s.senak.evq.holdoff := by
  unfold State.raise State.raiseAt; dsimp only; split <;> (try split) <;> (try split) <;> simp
@[simp] theorem queueEvent_evq_en (e : Event) (h : Senak) : (Senak.queueEvent e h).evq.en = h.evq.en := by
  unfold Senak.queueEvent; split <;> rfl
@[simp] theorem raise_senak_evq_en (e : Event) : (s.raise e).senak.evq.en = s.senak.evq.en := by
  unfold State.raise State.raiseAt; dsimp only; split <;> (try split) <;> (try split) <;> simp
@[simp] theorem queueEvent_evq_head (e : Event) (h : Senak) : (Senak.queueEvent e h).evq.head = h.evq.head := by
  unfold Senak.queueEvent; split <;> rfl
@[simp] theorem raise_senak_evq_head (e : Event) : (s.raise e).senak.evq.head = s.senak.evq.head := by
  unfold State.raise State.raiseAt; dsimp only; split <;> (try split) <;> (try split) <;> simp
@[simp] theorem queueEvent_evq_tail (e : Event) (h : Senak) : (Senak.queueEvent e h).evq.tail = h.evq.tail := by
  unfold Senak.queueEvent; split <;> rfl
@[simp] theorem raise_senak_evq_tail (e : Event) : (s.raise e).senak.evq.tail = s.senak.evq.tail := by
  unfold State.raise State.raiseAt; dsimp only; split <;> (try split) <;> (try split) <;> simp
@[simp] theorem queueEvent_evq_phase (e : Event) (h : Senak) : (Senak.queueEvent e h).evq.phase = h.evq.phase := by
  unfold Senak.queueEvent; split <;> rfl
@[simp] theorem raise_senak_evq_phase (e : Event) : (s.raise e).senak.evq.phase = s.senak.evq.phase := by
  unfold State.raise State.raiseAt; dsimp only; split <;> (try split) <;> (try split) <;> simp
@[simp] theorem queueEvent_evq_lastMsg (e : Event) (h : Senak) : (Senak.queueEvent e h).evq.lastMsg = h.evq.lastMsg := by
  unfold Senak.queueEvent; split <;> rfl
@[simp] theorem raise_senak_evq_lastMsg (e : Event) : (s.raise e).senak.evq.lastMsg = s.senak.evq.lastMsg := by
  unfold State.raise State.raiseAt; dsimp only; split <;> (try split) <;> (try split) <;> simp
@[simp] theorem raise_pending (e : Event) : (s.raise e).pending = s.pending := congrArg (·.pending) (aside_raise e s).beside
@[simp] theorem raise_free (e : Event) : (s.raise e).free = s.free := congrArg (·.free) (aside_raise e s).beside
@[simp] theorem raise_wire (e : Event) : (s.raise e).wire = s.wire := by
  unfold State.raise State.raiseAt; dsimp only; split <;> (try split) <;> (try split) <;> simp
@[simp] theorem raise_gens (e : Event) : (s.raise e).gens = s.gens := congrArg (·.gens) (aside_raise e s).beside
@[simp] theorem raise_boot (e : Event) : (s.raise e).boot = s.boot := congrArg (·.boot) (aside_raise e s).beside
@[simp] theorem raise_latch (e : Event) : (s.raise e).latch = s.latch := congrArg (·.latch) (aside_raise e s).beside
@[simp] theorem raise_latchAt (e : Event) : (s.raise e).latchAt = s.latchAt := congrArg (·.latchAt) (aside_raise e s).beside
@[simp] theorem raise_latchStats (e : Event) : (s.raise e).latchStats = s.latchStats := congrArg (·.latchStats) (aside_raise e s).beside
@[simp] theorem raise_snap (e : Event) : (s.raise e).snap = s.snap := congrArg (·.snap) (aside_raise e s).beside
@[simp] theorem raise_journal (e : Event) : (s.raise e).journal = s.journal := congrArg (·.journal) (aside_raise e s).beside
@[simp] theorem raise_hostMem (e : Event) : (s.raise e).hostMem = s.hostMem := congrArg (·.hostMem) (aside_raise e s).beside
@[simp] theorem raise_rt_time (e : Event) : (s.raise e).rt.time = s.rt.time := congrArg (·.rt.time) (aside_raise e s).beside
@[simp] theorem raise_rt_clover (e : Event) : (s.raise e).rt.clover = s.rt.clover := congrArg (·.rt.clover) (aside_raise e s).beside
@[simp] theorem raise_rt_fault (e : Event) : (s.raise e).rt.fault = s.rt.fault := congrArg (·.rt.fault) (aside_raise e s).beside
@[simp] theorem raise_rt_power (e : Event) : (s.raise e).rt.power = s.rt.power := congrArg (·.rt.power) (aside_raise e s).beside
@[simp] theorem raise_rt_test (e : Event) : (s.raise e).rt.test = s.rt.test := congrArg (·.rt.test) (aside_raise e s).beside
@[simp] theorem raise_rt_dram (e : Event) : (s.raise e).rt.dram = s.rt.dram := congrArg (·.rt.dram) (aside_raise e s).beside
@[simp] theorem raise_rt_mallow (e : Event) : (s.raise e).rt.mallow = s.rt.mallow := congrArg (·.rt.mallow) (aside_raise e s).beside
@[simp] theorem raise_rt_audio (e : Event) : (s.raise e).rt.audio = s.rt.audio := congrArg (·.rt.audio) (aside_raise e s).beside
@[simp] theorem raise_rt_sec (e : Event) : (s.raise e).rt.sec = s.rt.sec := congrArg (·.rt.sec) (aside_raise e s).beside
@[simp] theorem raise_rt_net (e : Event) : (s.raise e).rt.net = s.rt.net := congrArg (·.rt.net) (aside_raise e s).beside
@[simp] theorem raise_rt_fwd (e : Event) : (s.raise e).rt.fwd = s.rt.fwd := congrArg (·.rt.fwd) (aside_raise e s).beside
@[simp] theorem raise_rt_video (e : Event) : (s.raise e).rt.video = s.rt.video := congrArg (·.rt.video) (aside_raise e s).beside
@[simp] theorem raise_rt_recorder (e : Event) : (s.raise e).rt.recorder = s.rt.recorder := congrArg (·.rt.recorder) (aside_raise e s).beside
@[simp] theorem raise_rt_dsp (e : Event) : (s.raise e).rt.dsp = s.rt.dsp := congrArg (·.rt.dsp) (aside_raise e s).beside
@[simp] theorem raise_rt_tdm (e : Event) : (s.raise e).rt.tdm = s.rt.tdm := congrArg (·.rt.tdm) (aside_raise e s).beside
@[simp] theorem raise_rt_hsp (e : Event) : (s.raise e).rt.hsp = s.rt.hsp := congrArg (·.rt.hsp) (aside_raise e s).beside
@[simp] theorem raise_rt_zip (e : Event) : (s.raise e).rt.zip = s.rt.zip := congrArg (·.rt.zip) (aside_raise e s).beside
@[simp] theorem raise_senak_scratch (e : Event) : (s.raise e).senak.scratch = s.senak.scratch := congrArg (·.senak.scratch) (aside_raise e s).beside
@[simp] theorem raise_senak_ready (e : Event) : (s.raise e).senak.ready = s.senak.ready := congrArg (·.senak.ready) (aside_raise e s).beside
@[simp] theorem raise_senak_safeBoot (e : Event) : (s.raise e).senak.safeBoot = s.senak.safeBoot := congrArg (·.senak.safeBoot) (aside_raise e s).beside
@[simp] theorem raise_senak_preparing (e : Event) : (s.raise e).senak.preparing = s.senak.preparing := congrArg (·.senak.preparing) (aside_raise e s).beside
@[simp] theorem raise_senak_dwinBase (e : Event) : (s.raise e).senak.dwinBase = s.senak.dwinBase := congrArg (·.senak.dwinBase) (aside_raise e s).beside
@[simp] theorem raise_senak_dwinErr (e : Event) : (s.raise e).senak.dwinErr = s.senak.dwinErr := congrArg (·.senak.dwinErr) (aside_raise e s).beside
@[simp] theorem raise_senak_busy (e : Event) : (s.raise e).senak.busy = s.senak.busy := (aside_raise e s).busy
@[simp] theorem raise_senak_done (e : Event) : (s.raise e).senak.done = s.senak.done := (aside_raise e s).done
@[simp] theorem raise_senak_irq (e : Event) : (s.raise e).senak.irq = s.senak.irq := congrArg (·.senak.irq) (aside_raise e s).beside
@[simp] theorem raise_senak_doorbells (e : Event) : (s.raise e).senak.doorbells = s.senak.doorbells := congrArg (·.senak.doorbells) (aside_raise e s).beside
@[simp] theorem raise_senak_mbxErr (e : Event) : (s.raise e).senak.mbxErr = s.senak.mbxErr := congrArg (·.senak.mbxErr) (aside_raise e s).beside
@[simp] theorem raise_senak_slots (e : Event) : (s.raise e).senak.slots = s.senak.slots := (aside_raise e s).slots
@[simp] theorem raise_senak_nextSeq (e : Event) : (s.raise e).senak.nextSeq = s.senak.nextSeq := congrArg (·.senak.nextSeq) (aside_raise e s).beside
@[simp] theorem raise_senak_pending (e : Event) : (s.raise e).senak.pending = s.senak.pending := congrArg (·.senak.pending) (aside_raise e s).beside
@[simp] theorem raise_senak_mask (e : Event) : (s.raise e).senak.mask = s.senak.mask := congrArg (·.senak.mask) (aside_raise e s).beside
@[simp] theorem raise_senak_heldWrites (e : Event) : (s.raise e).senak.heldWrites = s.senak.heldWrites := congrArg (·.senak.heldWrites) (aside_raise e s).beside
@[simp] theorem raise_senak_quiesce (e : Event) : (s.raise e).senak.quiesce = s.senak.quiesce := congrArg (·.senak.quiesce) (aside_raise e s).beside
@[simp] theorem raise_senak_stopped (e : Event) : (s.raise e).senak.stopped = s.senak.stopped := congrArg (·.senak.stopped) (aside_raise e s).beside
@[simp] theorem raise_senak_quiesced (e : Event) : (s.raise e).senak.quiesced = s.senak.quiesced := congrArg (·.senak.quiesced) (aside_raise e s).beside
@[simp] theorem raise_senak_resetAt (e : Event) : (s.raise e).senak.resetAt = s.senak.resetAt := congrArg (·.senak.resetAt) (aside_raise e s).beside
@[simp] theorem raise_rt_mgmt_lifecycle (e : Event) : (s.raise e).rt.mgmt.lifecycle = s.rt.mgmt.lifecycle := congrArg (·.rt.mgmt.lifecycle) (aside_raise e s).beside
@[simp] theorem raise_rt_mgmt_level (e : Event) : (s.raise e).rt.mgmt.level = s.rt.mgmt.level := congrArg (·.rt.mgmt.level) (aside_raise e s).beside
@[simp] theorem raise_rt_mgmt_otp (e : Event) : (s.raise e).rt.mgmt.otp = s.rt.mgmt.otp := congrArg (·.rt.mgmt.otp) (aside_raise e s).beside
@[simp] theorem raise_rt_mgmt_otpBad (e : Event) : (s.raise e).rt.mgmt.otpBad = s.rt.mgmt.otpBad := congrArg (·.rt.mgmt.otpBad) (aside_raise e s).beside
@[simp] theorem raise_rt_mgmt_rootKey (e : Event) : (s.raise e).rt.mgmt.rootKey = s.rt.mgmt.rootKey := congrArg (·.rt.mgmt.rootKey) (aside_raise e s).beside
@[simp] theorem raise_rt_mgmt_imageDigest (e : Event) : (s.raise e).rt.mgmt.imageDigest = s.rt.mgmt.imageDigest := congrArg (·.rt.mgmt.imageDigest) (aside_raise e s).beside
@[simp] theorem raise_rt_mgmt_macs (e : Event) : (s.raise e).rt.mgmt.macs = s.rt.mgmt.macs := congrArg (·.rt.mgmt.macs) (aside_raise e s).beside
@[simp] theorem raise_rt_mgmt_rollback (e : Event) : (s.raise e).rt.mgmt.rollback = s.rt.mgmt.rollback := congrArg (·.rt.mgmt.rollback) (aside_raise e s).beside
@[simp] theorem raise_rt_mgmt_slots (e : Event) : (s.raise e).rt.mgmt.slots = s.rt.mgmt.slots := congrArg (·.rt.mgmt.slots) (aside_raise e s).beside
@[simp] theorem raise_rt_mgmt_running (e : Event) : (s.raise e).rt.mgmt.running = s.rt.mgmt.running := congrArg (·.rt.mgmt.running) (aside_raise e s).beside
@[simp] theorem raise_rt_mgmt_asTrial (e : Event) : (s.raise e).rt.mgmt.asTrial = s.rt.mgmt.asTrial := congrArg (·.rt.mgmt.asTrial) (aside_raise e s).beside
@[simp] theorem raise_rt_mgmt_config (e : Event) : (s.raise e).rt.mgmt.config = s.rt.mgmt.config := congrArg (·.rt.mgmt.config) (aside_raise e s).beside
@[simp] theorem raise_rt_mgmt_copies (e : Event) : (s.raise e).rt.mgmt.copies = s.rt.mgmt.copies := congrArg (·.rt.mgmt.copies) (aside_raise e s).beside
@[simp] theorem raise_rt_mgmt_mirroredThrough (e : Event) : (s.raise e).rt.mgmt.mirroredThrough = s.rt.mgmt.mirroredThrough := congrArg (·.rt.mgmt.mirroredThrough) (aside_raise e s).beside
@[simp] theorem raise_rt_mgmt_mirrorFailing (e : Event) : (s.raise e).rt.mgmt.mirrorFailing = s.rt.mgmt.mirrorFailing := congrArg (·.rt.mgmt.mirrorFailing) (aside_raise e s).beside
@[simp] theorem raise_rt_mgmt_mirror (e : Event) : (s.raise e).rt.mgmt.mirror = s.rt.mgmt.mirror := congrArg (·.rt.mgmt.mirror) (aside_raise e s).beside
@[simp] theorem raise_rt_mgmt_mirrorFailAt (e : Event) : (s.raise e).rt.mgmt.mirrorFailAt = s.rt.mgmt.mirrorFailAt := congrArg (·.rt.mgmt.mirrorFailAt) (aside_raise e s).beside
@[simp] theorem raise_rt_mgmt_threshold (e : Event) : (s.raise e).rt.mgmt.threshold = s.rt.mgmt.threshold := congrArg (·.rt.mgmt.threshold) (aside_raise e s).beside
@[simp] theorem raise_rt_mgmt_alertMask (e : Event) : (s.raise e).rt.mgmt.alertMask = s.rt.mgmt.alertMask := congrArg (·.rt.mgmt.alertMask) (aside_raise e s).beside
@[simp] theorem raise_rt_mgmt_monitors (e : Event) : (s.raise e).rt.mgmt.monitors = s.rt.mgmt.monitors := congrArg (·.rt.mgmt.monitors) (aside_raise e s).beside
@[simp] theorem raise_rt_mgmt_tripped (e : Event) : (s.raise e).rt.mgmt.tripped = s.rt.mgmt.tripped := congrArg (·.rt.mgmt.tripped) (aside_raise e s).beside
@[simp] theorem raise_rt_mgmt_recovered (e : Event) : (s.raise e).rt.mgmt.recovered = s.rt.mgmt.recovered := congrArg (·.rt.mgmt.recovered) (aside_raise e s).beside
@[simp] theorem raise_rt_mgmt_flashHeld (e : Event) : (s.raise e).rt.mgmt.flashHeld = s.rt.mgmt.flashHeld := congrArg (·.rt.mgmt.flashHeld) (aside_raise e s).beside
@[simp] theorem raise_rt_mgmt_image (e : Event) : (s.raise e).rt.mgmt.image = s.rt.mgmt.image := congrArg (·.rt.mgmt.image) (aside_raise e s).beside

/-! post and postIf. -/

@[simp] theorem post_pending (c v o d : Nat) : (s.post c v o d).pending = s.pending := raise_pending _ _
@[simp] theorem post_free (c v o d : Nat) : (s.post c v o d).free = s.free := raise_free _ _
@[simp] theorem post_wire (c v o d : Nat) : (s.post c v o d).wire = s.wire := raise_wire _ _
@[simp] theorem post_gens (c v o d : Nat) : (s.post c v o d).gens = s.gens := raise_gens _ _
@[simp] theorem post_boot (c v o d : Nat) : (s.post c v o d).boot = s.boot := raise_boot _ _
@[simp] theorem post_latch (c v o d : Nat) : (s.post c v o d).latch = s.latch := raise_latch _ _
@[simp] theorem post_latchAt (c v o d : Nat) : (s.post c v o d).latchAt = s.latchAt := raise_latchAt _ _
@[simp] theorem post_latchStats (c v o d : Nat) : (s.post c v o d).latchStats = s.latchStats := raise_latchStats _ _
@[simp] theorem post_snap (c v o d : Nat) : (s.post c v o d).snap = s.snap := raise_snap _ _
@[simp] theorem post_journal (c v o d : Nat) : (s.post c v o d).journal = s.journal := raise_journal _ _
@[simp] theorem post_hostMem (c v o d : Nat) : (s.post c v o d).hostMem = s.hostMem := raise_hostMem _ _
@[simp] theorem post_rt_time (c v o d : Nat) : (s.post c v o d).rt.time = s.rt.time := raise_rt_time _ _
@[simp] theorem post_rt_clover (c v o d : Nat) : (s.post c v o d).rt.clover = s.rt.clover := raise_rt_clover _ _
@[simp] theorem post_rt_fault (c v o d : Nat) : (s.post c v o d).rt.fault = s.rt.fault := raise_rt_fault _ _
@[simp] theorem post_rt_power (c v o d : Nat) : (s.post c v o d).rt.power = s.rt.power := raise_rt_power _ _
@[simp] theorem post_rt_test (c v o d : Nat) : (s.post c v o d).rt.test = s.rt.test := raise_rt_test _ _
@[simp] theorem post_rt_dram (c v o d : Nat) : (s.post c v o d).rt.dram = s.rt.dram := raise_rt_dram _ _
@[simp] theorem post_rt_mallow (c v o d : Nat) : (s.post c v o d).rt.mallow = s.rt.mallow := raise_rt_mallow _ _
@[simp] theorem post_rt_audio (c v o d : Nat) : (s.post c v o d).rt.audio = s.rt.audio := raise_rt_audio _ _
@[simp] theorem post_rt_sec (c v o d : Nat) : (s.post c v o d).rt.sec = s.rt.sec := raise_rt_sec _ _
@[simp] theorem post_rt_net (c v o d : Nat) : (s.post c v o d).rt.net = s.rt.net := raise_rt_net _ _
@[simp] theorem post_rt_fwd (c v o d : Nat) : (s.post c v o d).rt.fwd = s.rt.fwd := raise_rt_fwd _ _
@[simp] theorem post_rt_video (c v o d : Nat) : (s.post c v o d).rt.video = s.rt.video := raise_rt_video _ _
@[simp] theorem post_rt_recorder (c v o d : Nat) : (s.post c v o d).rt.recorder = s.rt.recorder := raise_rt_recorder _ _
@[simp] theorem post_rt_dsp (c v o d : Nat) : (s.post c v o d).rt.dsp = s.rt.dsp := raise_rt_dsp _ _
@[simp] theorem post_rt_tdm (c v o d : Nat) : (s.post c v o d).rt.tdm = s.rt.tdm := raise_rt_tdm _ _
@[simp] theorem post_rt_hsp (c v o d : Nat) : (s.post c v o d).rt.hsp = s.rt.hsp := raise_rt_hsp _ _
@[simp] theorem post_rt_zip (c v o d : Nat) : (s.post c v o d).rt.zip = s.rt.zip := raise_rt_zip _ _
@[simp] theorem post_senak_scratch (c v o d : Nat) : (s.post c v o d).senak.scratch = s.senak.scratch := raise_senak_scratch _ _
@[simp] theorem post_senak_ready (c v o d : Nat) : (s.post c v o d).senak.ready = s.senak.ready := raise_senak_ready _ _
@[simp] theorem post_senak_safeBoot (c v o d : Nat) : (s.post c v o d).senak.safeBoot = s.senak.safeBoot := raise_senak_safeBoot _ _
@[simp] theorem post_senak_preparing (c v o d : Nat) : (s.post c v o d).senak.preparing = s.senak.preparing := raise_senak_preparing _ _
@[simp] theorem post_senak_dwinBase (c v o d : Nat) : (s.post c v o d).senak.dwinBase = s.senak.dwinBase := raise_senak_dwinBase _ _
@[simp] theorem post_senak_dwinErr (c v o d : Nat) : (s.post c v o d).senak.dwinErr = s.senak.dwinErr := raise_senak_dwinErr _ _
@[simp] theorem post_senak_busy (c v o d : Nat) : (s.post c v o d).senak.busy = s.senak.busy := raise_senak_busy _ _
@[simp] theorem post_senak_done (c v o d : Nat) : (s.post c v o d).senak.done = s.senak.done := raise_senak_done _ _
@[simp] theorem post_senak_irq (c v o d : Nat) : (s.post c v o d).senak.irq = s.senak.irq := raise_senak_irq _ _
@[simp] theorem post_senak_doorbells (c v o d : Nat) : (s.post c v o d).senak.doorbells = s.senak.doorbells := raise_senak_doorbells _ _
@[simp] theorem post_senak_mbxErr (c v o d : Nat) : (s.post c v o d).senak.mbxErr = s.senak.mbxErr := raise_senak_mbxErr _ _
@[simp] theorem post_senak_slots (c v o d : Nat) : (s.post c v o d).senak.slots = s.senak.slots := raise_senak_slots _ _
@[simp] theorem post_senak_nextSeq (c v o d : Nat) : (s.post c v o d).senak.nextSeq = s.senak.nextSeq := raise_senak_nextSeq _ _
@[simp] theorem post_senak_pending (c v o d : Nat) : (s.post c v o d).senak.pending = s.senak.pending := raise_senak_pending _ _
@[simp] theorem post_senak_mask (c v o d : Nat) : (s.post c v o d).senak.mask = s.senak.mask := raise_senak_mask _ _
@[simp] theorem post_senak_pcie (c v o d : Nat) : (s.post c v o d).senak.pcie = s.senak.pcie := raise_senak_pcie _ _
@[simp] theorem post_senak_heldWrites (c v o d : Nat) : (s.post c v o d).senak.heldWrites = s.senak.heldWrites := raise_senak_heldWrites _ _
@[simp] theorem post_senak_quiesce (c v o d : Nat) : (s.post c v o d).senak.quiesce = s.senak.quiesce := raise_senak_quiesce _ _
@[simp] theorem post_senak_stopped (c v o d : Nat) : (s.post c v o d).senak.stopped = s.senak.stopped := raise_senak_stopped _ _
@[simp] theorem post_senak_quiesced (c v o d : Nat) : (s.post c v o d).senak.quiesced = s.senak.quiesced := raise_senak_quiesced _ _
@[simp] theorem post_senak_resetAt (c v o d : Nat) : (s.post c v o d).senak.resetAt = s.senak.resetAt := raise_senak_resetAt _ _
@[simp] theorem post_senak_evq_base (c v o d : Nat) : (s.post c v o d).senak.evq.base = s.senak.evq.base := raise_senak_evq_base _ _
@[simp] theorem post_senak_evq_log2 (c v o d : Nat) : (s.post c v o d).senak.evq.log2 = s.senak.evq.log2 := raise_senak_evq_log2 _ _
@[simp] theorem post_senak_evq_holdoff (c v o d : Nat) : (s.post c v o d).senak.evq.holdoff = s.senak.evq.holdoff := raise_senak_evq_holdoff _ _
@[simp] theorem post_senak_evq_en (c v o d : Nat) : (s.post c v o d).senak.evq.en = s.senak.evq.en := raise_senak_evq_en _ _
@[simp] theorem post_senak_evq_head (c v o d : Nat) : (s.post c v o d).senak.evq.head = s.senak.evq.head := raise_senak_evq_head _ _
@[simp] theorem post_senak_evq_tail (c v o d : Nat) : (s.post c v o d).senak.evq.tail = s.senak.evq.tail := raise_senak_evq_tail _ _
@[simp] theorem post_senak_evq_phase (c v o d : Nat) : (s.post c v o d).senak.evq.phase = s.senak.evq.phase := raise_senak_evq_phase _ _
@[simp] theorem post_senak_evq_lastMsg (c v o d : Nat) : (s.post c v o d).senak.evq.lastMsg = s.senak.evq.lastMsg := raise_senak_evq_lastMsg _ _
@[simp] theorem post_rt_mgmt_lifecycle (c v o d : Nat) : (s.post c v o d).rt.mgmt.lifecycle = s.rt.mgmt.lifecycle := raise_rt_mgmt_lifecycle _ _
@[simp] theorem post_rt_mgmt_level (c v o d : Nat) : (s.post c v o d).rt.mgmt.level = s.rt.mgmt.level := raise_rt_mgmt_level _ _
@[simp] theorem post_rt_mgmt_otp (c v o d : Nat) : (s.post c v o d).rt.mgmt.otp = s.rt.mgmt.otp := raise_rt_mgmt_otp _ _
@[simp] theorem post_rt_mgmt_otpBad (c v o d : Nat) : (s.post c v o d).rt.mgmt.otpBad = s.rt.mgmt.otpBad := raise_rt_mgmt_otpBad _ _
@[simp] theorem post_rt_mgmt_rootKey (c v o d : Nat) : (s.post c v o d).rt.mgmt.rootKey = s.rt.mgmt.rootKey := raise_rt_mgmt_rootKey _ _
@[simp] theorem post_rt_mgmt_imageDigest (c v o d : Nat) : (s.post c v o d).rt.mgmt.imageDigest = s.rt.mgmt.imageDigest := raise_rt_mgmt_imageDigest _ _
@[simp] theorem post_rt_mgmt_macs (c v o d : Nat) : (s.post c v o d).rt.mgmt.macs = s.rt.mgmt.macs := raise_rt_mgmt_macs _ _
@[simp] theorem post_rt_mgmt_rollback (c v o d : Nat) : (s.post c v o d).rt.mgmt.rollback = s.rt.mgmt.rollback := raise_rt_mgmt_rollback _ _
@[simp] theorem post_rt_mgmt_slots (c v o d : Nat) : (s.post c v o d).rt.mgmt.slots = s.rt.mgmt.slots := raise_rt_mgmt_slots _ _
@[simp] theorem post_rt_mgmt_running (c v o d : Nat) : (s.post c v o d).rt.mgmt.running = s.rt.mgmt.running := raise_rt_mgmt_running _ _
@[simp] theorem post_rt_mgmt_asTrial (c v o d : Nat) : (s.post c v o d).rt.mgmt.asTrial = s.rt.mgmt.asTrial := raise_rt_mgmt_asTrial _ _
@[simp] theorem post_rt_mgmt_config (c v o d : Nat) : (s.post c v o d).rt.mgmt.config = s.rt.mgmt.config := raise_rt_mgmt_config _ _
@[simp] theorem post_rt_mgmt_copies (c v o d : Nat) : (s.post c v o d).rt.mgmt.copies = s.rt.mgmt.copies := raise_rt_mgmt_copies _ _
@[simp] theorem post_rt_mgmt_mirroredThrough (c v o d : Nat) : (s.post c v o d).rt.mgmt.mirroredThrough = s.rt.mgmt.mirroredThrough := raise_rt_mgmt_mirroredThrough _ _
@[simp] theorem post_rt_mgmt_mirrorFailing (c v o d : Nat) : (s.post c v o d).rt.mgmt.mirrorFailing = s.rt.mgmt.mirrorFailing := raise_rt_mgmt_mirrorFailing _ _
@[simp] theorem post_rt_mgmt_mirror (c v o d : Nat) : (s.post c v o d).rt.mgmt.mirror = s.rt.mgmt.mirror := raise_rt_mgmt_mirror _ _
@[simp] theorem post_rt_mgmt_mirrorFailAt (c v o d : Nat) : (s.post c v o d).rt.mgmt.mirrorFailAt = s.rt.mgmt.mirrorFailAt := raise_rt_mgmt_mirrorFailAt _ _
@[simp] theorem post_rt_mgmt_threshold (c v o d : Nat) : (s.post c v o d).rt.mgmt.threshold = s.rt.mgmt.threshold := raise_rt_mgmt_threshold _ _
@[simp] theorem post_rt_mgmt_alertMask (c v o d : Nat) : (s.post c v o d).rt.mgmt.alertMask = s.rt.mgmt.alertMask := raise_rt_mgmt_alertMask _ _
@[simp] theorem post_rt_mgmt_monitors (c v o d : Nat) : (s.post c v o d).rt.mgmt.monitors = s.rt.mgmt.monitors := raise_rt_mgmt_monitors _ _
@[simp] theorem post_rt_mgmt_tripped (c v o d : Nat) : (s.post c v o d).rt.mgmt.tripped = s.rt.mgmt.tripped := raise_rt_mgmt_tripped _ _
@[simp] theorem post_rt_mgmt_recovered (c v o d : Nat) : (s.post c v o d).rt.mgmt.recovered = s.rt.mgmt.recovered := raise_rt_mgmt_recovered _ _
@[simp] theorem post_rt_mgmt_flashHeld (c v o d : Nat) : (s.post c v o d).rt.mgmt.flashHeld = s.rt.mgmt.flashHeld := raise_rt_mgmt_flashHeld _ _
@[simp] theorem post_rt_mgmt_image (c v o d : Nat) : (s.post c v o d).rt.mgmt.image = s.rt.mgmt.image := raise_rt_mgmt_image _ _
@[simp] theorem postIf_pending (b : Bool) (c v o d : Nat) : (s.postIf b c v o d).pending = s.pending := by
  unfold State.postIf; split <;> simp
@[simp] theorem postIf_free (b : Bool) (c v o d : Nat) : (s.postIf b c v o d).free = s.free := by
  unfold State.postIf; split <;> simp
@[simp] theorem postIf_wire (b : Bool) (c v o d : Nat) : (s.postIf b c v o d).wire = s.wire := by
  unfold State.postIf; split <;> simp
@[simp] theorem postIf_gens (b : Bool) (c v o d : Nat) : (s.postIf b c v o d).gens = s.gens := by
  unfold State.postIf; split <;> simp
@[simp] theorem postIf_boot (b : Bool) (c v o d : Nat) : (s.postIf b c v o d).boot = s.boot := by
  unfold State.postIf; split <;> simp
@[simp] theorem postIf_latch (b : Bool) (c v o d : Nat) : (s.postIf b c v o d).latch = s.latch := by
  unfold State.postIf; split <;> simp
@[simp] theorem postIf_latchAt (b : Bool) (c v o d : Nat) : (s.postIf b c v o d).latchAt = s.latchAt := by
  unfold State.postIf; split <;> simp
@[simp] theorem postIf_latchStats (b : Bool) (c v o d : Nat) : (s.postIf b c v o d).latchStats = s.latchStats := by
  unfold State.postIf; split <;> simp
@[simp] theorem postIf_snap (b : Bool) (c v o d : Nat) : (s.postIf b c v o d).snap = s.snap := by
  unfold State.postIf; split <;> simp
@[simp] theorem postIf_journal (b : Bool) (c v o d : Nat) : (s.postIf b c v o d).journal = s.journal := by
  unfold State.postIf; split <;> simp
@[simp] theorem postIf_hostMem (b : Bool) (c v o d : Nat) : (s.postIf b c v o d).hostMem = s.hostMem := by
  unfold State.postIf; split <;> simp
@[simp] theorem postIf_rt_time (b : Bool) (c v o d : Nat) : (s.postIf b c v o d).rt.time = s.rt.time := by
  unfold State.postIf; split <;> simp
@[simp] theorem postIf_rt_clover (b : Bool) (c v o d : Nat) : (s.postIf b c v o d).rt.clover = s.rt.clover := by
  unfold State.postIf; split <;> simp
@[simp] theorem postIf_rt_fault (b : Bool) (c v o d : Nat) : (s.postIf b c v o d).rt.fault = s.rt.fault := by
  unfold State.postIf; split <;> simp
@[simp] theorem postIf_rt_power (b : Bool) (c v o d : Nat) : (s.postIf b c v o d).rt.power = s.rt.power := by
  unfold State.postIf; split <;> simp
@[simp] theorem postIf_rt_test (b : Bool) (c v o d : Nat) : (s.postIf b c v o d).rt.test = s.rt.test := by
  unfold State.postIf; split <;> simp
@[simp] theorem postIf_rt_dram (b : Bool) (c v o d : Nat) : (s.postIf b c v o d).rt.dram = s.rt.dram := by
  unfold State.postIf; split <;> simp
@[simp] theorem postIf_rt_mallow (b : Bool) (c v o d : Nat) : (s.postIf b c v o d).rt.mallow = s.rt.mallow := by
  unfold State.postIf; split <;> simp
@[simp] theorem postIf_rt_audio (b : Bool) (c v o d : Nat) : (s.postIf b c v o d).rt.audio = s.rt.audio := by
  unfold State.postIf; split <;> simp
@[simp] theorem postIf_rt_sec (b : Bool) (c v o d : Nat) : (s.postIf b c v o d).rt.sec = s.rt.sec := by
  unfold State.postIf; split <;> simp
@[simp] theorem postIf_rt_net (b : Bool) (c v o d : Nat) : (s.postIf b c v o d).rt.net = s.rt.net := by
  unfold State.postIf; split <;> simp
@[simp] theorem postIf_rt_fwd (b : Bool) (c v o d : Nat) : (s.postIf b c v o d).rt.fwd = s.rt.fwd := by
  unfold State.postIf; split <;> simp
@[simp] theorem postIf_rt_video (b : Bool) (c v o d : Nat) : (s.postIf b c v o d).rt.video = s.rt.video := by
  unfold State.postIf; split <;> simp
@[simp] theorem postIf_rt_recorder (b : Bool) (c v o d : Nat) : (s.postIf b c v o d).rt.recorder = s.rt.recorder := by
  unfold State.postIf; split <;> simp
@[simp] theorem postIf_rt_dsp (b : Bool) (c v o d : Nat) : (s.postIf b c v o d).rt.dsp = s.rt.dsp := by
  unfold State.postIf; split <;> simp
@[simp] theorem postIf_rt_tdm (b : Bool) (c v o d : Nat) : (s.postIf b c v o d).rt.tdm = s.rt.tdm := by
  unfold State.postIf; split <;> simp
@[simp] theorem postIf_rt_hsp (b : Bool) (c v o d : Nat) : (s.postIf b c v o d).rt.hsp = s.rt.hsp := by
  unfold State.postIf; split <;> simp
@[simp] theorem postIf_rt_zip (b : Bool) (c v o d : Nat) : (s.postIf b c v o d).rt.zip = s.rt.zip := by
  unfold State.postIf; split <;> simp
@[simp] theorem postIf_senak_scratch (b : Bool) (c v o d : Nat) : (s.postIf b c v o d).senak.scratch = s.senak.scratch := by
  unfold State.postIf; split <;> simp
@[simp] theorem postIf_senak_ready (b : Bool) (c v o d : Nat) : (s.postIf b c v o d).senak.ready = s.senak.ready := by
  unfold State.postIf; split <;> simp
@[simp] theorem postIf_senak_safeBoot (b : Bool) (c v o d : Nat) : (s.postIf b c v o d).senak.safeBoot = s.senak.safeBoot := by
  unfold State.postIf; split <;> simp
@[simp] theorem postIf_senak_preparing (b : Bool) (c v o d : Nat) : (s.postIf b c v o d).senak.preparing = s.senak.preparing := by
  unfold State.postIf; split <;> simp
@[simp] theorem postIf_senak_dwinBase (b : Bool) (c v o d : Nat) : (s.postIf b c v o d).senak.dwinBase = s.senak.dwinBase := by
  unfold State.postIf; split <;> simp
@[simp] theorem postIf_senak_dwinErr (b : Bool) (c v o d : Nat) : (s.postIf b c v o d).senak.dwinErr = s.senak.dwinErr := by
  unfold State.postIf; split <;> simp
@[simp] theorem postIf_senak_busy (b : Bool) (c v o d : Nat) : (s.postIf b c v o d).senak.busy = s.senak.busy := by
  unfold State.postIf; split <;> simp
@[simp] theorem postIf_senak_done (b : Bool) (c v o d : Nat) : (s.postIf b c v o d).senak.done = s.senak.done := by
  unfold State.postIf; split <;> simp
@[simp] theorem postIf_senak_irq (b : Bool) (c v o d : Nat) : (s.postIf b c v o d).senak.irq = s.senak.irq := by
  unfold State.postIf; split <;> simp
@[simp] theorem postIf_senak_doorbells (b : Bool) (c v o d : Nat) : (s.postIf b c v o d).senak.doorbells = s.senak.doorbells := by
  unfold State.postIf; split <;> simp
@[simp] theorem postIf_senak_mbxErr (b : Bool) (c v o d : Nat) : (s.postIf b c v o d).senak.mbxErr = s.senak.mbxErr := by
  unfold State.postIf; split <;> simp
@[simp] theorem postIf_senak_slots (b : Bool) (c v o d : Nat) : (s.postIf b c v o d).senak.slots = s.senak.slots := by
  unfold State.postIf; split <;> simp
@[simp] theorem postIf_senak_nextSeq (b : Bool) (c v o d : Nat) : (s.postIf b c v o d).senak.nextSeq = s.senak.nextSeq := by
  unfold State.postIf; split <;> simp
@[simp] theorem postIf_senak_pending (b : Bool) (c v o d : Nat) : (s.postIf b c v o d).senak.pending = s.senak.pending := by
  unfold State.postIf; split <;> simp
@[simp] theorem postIf_senak_mask (b : Bool) (c v o d : Nat) : (s.postIf b c v o d).senak.mask = s.senak.mask := by
  unfold State.postIf; split <;> simp
@[simp] theorem postIf_senak_pcie (b : Bool) (c v o d : Nat) : (s.postIf b c v o d).senak.pcie = s.senak.pcie := by
  unfold State.postIf; split <;> simp
@[simp] theorem postIf_senak_heldWrites (b : Bool) (c v o d : Nat) : (s.postIf b c v o d).senak.heldWrites = s.senak.heldWrites := by
  unfold State.postIf; split <;> simp
@[simp] theorem postIf_senak_quiesce (b : Bool) (c v o d : Nat) : (s.postIf b c v o d).senak.quiesce = s.senak.quiesce := by
  unfold State.postIf; split <;> simp
@[simp] theorem postIf_senak_stopped (b : Bool) (c v o d : Nat) : (s.postIf b c v o d).senak.stopped = s.senak.stopped := by
  unfold State.postIf; split <;> simp
@[simp] theorem postIf_senak_quiesced (b : Bool) (c v o d : Nat) : (s.postIf b c v o d).senak.quiesced = s.senak.quiesced := by
  unfold State.postIf; split <;> simp
@[simp] theorem postIf_senak_resetAt (b : Bool) (c v o d : Nat) : (s.postIf b c v o d).senak.resetAt = s.senak.resetAt := by
  unfold State.postIf; split <;> simp
@[simp] theorem postIf_senak_evq_base (b : Bool) (c v o d : Nat) : (s.postIf b c v o d).senak.evq.base = s.senak.evq.base := by
  unfold State.postIf; split <;> simp
@[simp] theorem postIf_senak_evq_log2 (b : Bool) (c v o d : Nat) : (s.postIf b c v o d).senak.evq.log2 = s.senak.evq.log2 := by
  unfold State.postIf; split <;> simp
@[simp] theorem postIf_senak_evq_holdoff (b : Bool) (c v o d : Nat) : (s.postIf b c v o d).senak.evq.holdoff = s.senak.evq.holdoff := by
  unfold State.postIf; split <;> simp
@[simp] theorem postIf_senak_evq_en (b : Bool) (c v o d : Nat) : (s.postIf b c v o d).senak.evq.en = s.senak.evq.en := by
  unfold State.postIf; split <;> simp
@[simp] theorem postIf_senak_evq_head (b : Bool) (c v o d : Nat) : (s.postIf b c v o d).senak.evq.head = s.senak.evq.head := by
  unfold State.postIf; split <;> simp
@[simp] theorem postIf_senak_evq_tail (b : Bool) (c v o d : Nat) : (s.postIf b c v o d).senak.evq.tail = s.senak.evq.tail := by
  unfold State.postIf; split <;> simp
@[simp] theorem postIf_senak_evq_phase (b : Bool) (c v o d : Nat) : (s.postIf b c v o d).senak.evq.phase = s.senak.evq.phase := by
  unfold State.postIf; split <;> simp
@[simp] theorem postIf_senak_evq_lastMsg (b : Bool) (c v o d : Nat) : (s.postIf b c v o d).senak.evq.lastMsg = s.senak.evq.lastMsg := by
  unfold State.postIf; split <;> simp
@[simp] theorem postIf_rt_mgmt_lifecycle (b : Bool) (c v o d : Nat) : (s.postIf b c v o d).rt.mgmt.lifecycle = s.rt.mgmt.lifecycle := by
  unfold State.postIf; split <;> simp
@[simp] theorem postIf_rt_mgmt_level (b : Bool) (c v o d : Nat) : (s.postIf b c v o d).rt.mgmt.level = s.rt.mgmt.level := by
  unfold State.postIf; split <;> simp
@[simp] theorem postIf_rt_mgmt_otp (b : Bool) (c v o d : Nat) : (s.postIf b c v o d).rt.mgmt.otp = s.rt.mgmt.otp := by
  unfold State.postIf; split <;> simp
@[simp] theorem postIf_rt_mgmt_otpBad (b : Bool) (c v o d : Nat) : (s.postIf b c v o d).rt.mgmt.otpBad = s.rt.mgmt.otpBad := by
  unfold State.postIf; split <;> simp
@[simp] theorem postIf_rt_mgmt_rootKey (b : Bool) (c v o d : Nat) : (s.postIf b c v o d).rt.mgmt.rootKey = s.rt.mgmt.rootKey := by
  unfold State.postIf; split <;> simp
@[simp] theorem postIf_rt_mgmt_imageDigest (b : Bool) (c v o d : Nat) : (s.postIf b c v o d).rt.mgmt.imageDigest = s.rt.mgmt.imageDigest := by
  unfold State.postIf; split <;> simp
@[simp] theorem postIf_rt_mgmt_macs (b : Bool) (c v o d : Nat) : (s.postIf b c v o d).rt.mgmt.macs = s.rt.mgmt.macs := by
  unfold State.postIf; split <;> simp
@[simp] theorem postIf_rt_mgmt_rollback (b : Bool) (c v o d : Nat) : (s.postIf b c v o d).rt.mgmt.rollback = s.rt.mgmt.rollback := by
  unfold State.postIf; split <;> simp
@[simp] theorem postIf_rt_mgmt_slots (b : Bool) (c v o d : Nat) : (s.postIf b c v o d).rt.mgmt.slots = s.rt.mgmt.slots := by
  unfold State.postIf; split <;> simp
@[simp] theorem postIf_rt_mgmt_running (b : Bool) (c v o d : Nat) : (s.postIf b c v o d).rt.mgmt.running = s.rt.mgmt.running := by
  unfold State.postIf; split <;> simp
@[simp] theorem postIf_rt_mgmt_asTrial (b : Bool) (c v o d : Nat) : (s.postIf b c v o d).rt.mgmt.asTrial = s.rt.mgmt.asTrial := by
  unfold State.postIf; split <;> simp
@[simp] theorem postIf_rt_mgmt_config (b : Bool) (c v o d : Nat) : (s.postIf b c v o d).rt.mgmt.config = s.rt.mgmt.config := by
  unfold State.postIf; split <;> simp
@[simp] theorem postIf_rt_mgmt_copies (b : Bool) (c v o d : Nat) : (s.postIf b c v o d).rt.mgmt.copies = s.rt.mgmt.copies := by
  unfold State.postIf; split <;> simp
@[simp] theorem postIf_rt_mgmt_mirroredThrough (b : Bool) (c v o d : Nat) : (s.postIf b c v o d).rt.mgmt.mirroredThrough = s.rt.mgmt.mirroredThrough := by
  unfold State.postIf; split <;> simp
@[simp] theorem postIf_rt_mgmt_mirrorFailing (b : Bool) (c v o d : Nat) : (s.postIf b c v o d).rt.mgmt.mirrorFailing = s.rt.mgmt.mirrorFailing := by
  unfold State.postIf; split <;> simp
@[simp] theorem postIf_rt_mgmt_mirror (b : Bool) (c v o d : Nat) : (s.postIf b c v o d).rt.mgmt.mirror = s.rt.mgmt.mirror := by
  unfold State.postIf; split <;> simp
@[simp] theorem postIf_rt_mgmt_mirrorFailAt (b : Bool) (c v o d : Nat) : (s.postIf b c v o d).rt.mgmt.mirrorFailAt = s.rt.mgmt.mirrorFailAt := by
  unfold State.postIf; split <;> simp
@[simp] theorem postIf_rt_mgmt_threshold (b : Bool) (c v o d : Nat) : (s.postIf b c v o d).rt.mgmt.threshold = s.rt.mgmt.threshold := by
  unfold State.postIf; split <;> simp
@[simp] theorem postIf_rt_mgmt_alertMask (b : Bool) (c v o d : Nat) : (s.postIf b c v o d).rt.mgmt.alertMask = s.rt.mgmt.alertMask := by
  unfold State.postIf; split <;> simp
@[simp] theorem postIf_rt_mgmt_monitors (b : Bool) (c v o d : Nat) : (s.postIf b c v o d).rt.mgmt.monitors = s.rt.mgmt.monitors := by
  unfold State.postIf; split <;> simp
@[simp] theorem postIf_rt_mgmt_tripped (b : Bool) (c v o d : Nat) : (s.postIf b c v o d).rt.mgmt.tripped = s.rt.mgmt.tripped := by
  unfold State.postIf; split <;> simp
@[simp] theorem postIf_rt_mgmt_recovered (b : Bool) (c v o d : Nat) : (s.postIf b c v o d).rt.mgmt.recovered = s.rt.mgmt.recovered := by
  unfold State.postIf; split <;> simp
@[simp] theorem postIf_rt_mgmt_flashHeld (b : Bool) (c v o d : Nat) : (s.postIf b c v o d).rt.mgmt.flashHeld = s.rt.mgmt.flashHeld := by
  unfold State.postIf; split <;> simp
@[simp] theorem postIf_rt_mgmt_image (b : Bool) (c v o d : Nat) : (s.postIf b c v o d).rt.mgmt.image = s.rt.mgmt.image := by
  unfold State.postIf; split <;> simp

/-! endPending. -/

@[simp] theorem endPending_pending (p : PendingCmd) (st : Status) (d : Nat) : (s.endPending p st d).pending = s.pending := by
  unfold State.endPending State.cmdDone State.countFailed; split <;> simp
@[simp] theorem endPending_free (p : PendingCmd) (st : Status) (d : Nat) : (s.endPending p st d).free = s.free := by
  unfold State.endPending State.cmdDone State.countFailed; split <;> simp
@[simp] theorem endPending_wire (p : PendingCmd) (st : Status) (d : Nat) : (s.endPending p st d).wire = s.wire := by
  unfold State.endPending State.cmdDone State.countFailed; split <;> simp
@[simp] theorem endPending_gens (p : PendingCmd) (st : Status) (d : Nat) : (s.endPending p st d).gens = s.gens := by
  unfold State.endPending State.cmdDone State.countFailed; split <;> simp
@[simp] theorem endPending_boot (p : PendingCmd) (st : Status) (d : Nat) : (s.endPending p st d).boot = s.boot := by
  unfold State.endPending State.cmdDone State.countFailed; split <;> simp
@[simp] theorem endPending_latch (p : PendingCmd) (st : Status) (d : Nat) : (s.endPending p st d).latch = s.latch := by
  unfold State.endPending State.cmdDone State.countFailed; split <;> simp
@[simp] theorem endPending_latchAt (p : PendingCmd) (st : Status) (d : Nat) : (s.endPending p st d).latchAt = s.latchAt := by
  unfold State.endPending State.cmdDone State.countFailed; split <;> simp
@[simp] theorem endPending_latchStats (p : PendingCmd) (st : Status) (d : Nat) : (s.endPending p st d).latchStats = s.latchStats := by
  unfold State.endPending State.cmdDone State.countFailed; split <;> simp
@[simp] theorem endPending_snap (p : PendingCmd) (st : Status) (d : Nat) : (s.endPending p st d).snap = s.snap := by
  unfold State.endPending State.cmdDone State.countFailed; split <;> simp
@[simp] theorem endPending_journal (p : PendingCmd) (st : Status) (d : Nat) : (s.endPending p st d).journal = s.journal := by
  unfold State.endPending State.cmdDone State.countFailed; split <;> simp
@[simp] theorem endPending_hostMem (p : PendingCmd) (st : Status) (d : Nat) : (s.endPending p st d).hostMem = s.hostMem := by
  unfold State.endPending State.cmdDone State.countFailed; split <;> simp
@[simp] theorem endPending_rt_time (p : PendingCmd) (st : Status) (d : Nat) : (s.endPending p st d).rt.time = s.rt.time := by
  unfold State.endPending State.cmdDone State.countFailed; split <;> simp
@[simp] theorem endPending_rt_clover (p : PendingCmd) (st : Status) (d : Nat) : (s.endPending p st d).rt.clover = s.rt.clover := by
  unfold State.endPending State.cmdDone State.countFailed; split <;> simp
@[simp] theorem endPending_rt_fault (p : PendingCmd) (st : Status) (d : Nat) : (s.endPending p st d).rt.fault = s.rt.fault := by
  unfold State.endPending State.cmdDone State.countFailed; split <;> simp
@[simp] theorem endPending_rt_power (p : PendingCmd) (st : Status) (d : Nat) : (s.endPending p st d).rt.power = s.rt.power := by
  unfold State.endPending State.cmdDone State.countFailed; split <;> simp
@[simp] theorem endPending_rt_test (p : PendingCmd) (st : Status) (d : Nat) : (s.endPending p st d).rt.test = s.rt.test := by
  unfold State.endPending State.cmdDone State.countFailed; split <;> simp
@[simp] theorem endPending_rt_dram (p : PendingCmd) (st : Status) (d : Nat) : (s.endPending p st d).rt.dram = s.rt.dram := by
  unfold State.endPending State.cmdDone State.countFailed; split <;> simp
@[simp] theorem endPending_rt_mallow (p : PendingCmd) (st : Status) (d : Nat) : (s.endPending p st d).rt.mallow = s.rt.mallow := by
  unfold State.endPending State.cmdDone State.countFailed; split <;> simp
@[simp] theorem endPending_rt_audio (p : PendingCmd) (st : Status) (d : Nat) : (s.endPending p st d).rt.audio = s.rt.audio := by
  unfold State.endPending State.cmdDone State.countFailed; split <;> simp
@[simp] theorem endPending_rt_sec (p : PendingCmd) (st : Status) (d : Nat) : (s.endPending p st d).rt.sec = s.rt.sec := by
  unfold State.endPending State.cmdDone State.countFailed; split <;> simp
@[simp] theorem endPending_rt_net (p : PendingCmd) (st : Status) (d : Nat) : (s.endPending p st d).rt.net = s.rt.net := by
  unfold State.endPending State.cmdDone State.countFailed; split <;> simp
@[simp] theorem endPending_rt_fwd (p : PendingCmd) (st : Status) (d : Nat) : (s.endPending p st d).rt.fwd = s.rt.fwd := by
  unfold State.endPending State.cmdDone State.countFailed; split <;> simp
@[simp] theorem endPending_rt_video (p : PendingCmd) (st : Status) (d : Nat) : (s.endPending p st d).rt.video = s.rt.video := by
  unfold State.endPending State.cmdDone State.countFailed; split <;> simp
@[simp] theorem endPending_rt_recorder (p : PendingCmd) (st : Status) (d : Nat) : (s.endPending p st d).rt.recorder = s.rt.recorder := by
  unfold State.endPending State.cmdDone State.countFailed; split <;> simp
@[simp] theorem endPending_rt_dsp (p : PendingCmd) (st : Status) (d : Nat) : (s.endPending p st d).rt.dsp = s.rt.dsp := by
  unfold State.endPending State.cmdDone State.countFailed; split <;> simp
@[simp] theorem endPending_rt_tdm (p : PendingCmd) (st : Status) (d : Nat) : (s.endPending p st d).rt.tdm = s.rt.tdm := by
  unfold State.endPending State.cmdDone State.countFailed; split <;> simp
@[simp] theorem endPending_rt_hsp (p : PendingCmd) (st : Status) (d : Nat) : (s.endPending p st d).rt.hsp = s.rt.hsp := by
  unfold State.endPending State.cmdDone State.countFailed; split <;> simp
@[simp] theorem endPending_rt_zip (p : PendingCmd) (st : Status) (d : Nat) : (s.endPending p st d).rt.zip = s.rt.zip := by
  unfold State.endPending State.cmdDone State.countFailed; split <;> simp
@[simp] theorem endPending_senak_scratch (p : PendingCmd) (st : Status) (d : Nat) : (s.endPending p st d).senak.scratch = s.senak.scratch := by
  unfold State.endPending State.cmdDone State.countFailed; split <;> simp
@[simp] theorem endPending_senak_ready (p : PendingCmd) (st : Status) (d : Nat) : (s.endPending p st d).senak.ready = s.senak.ready := by
  unfold State.endPending State.cmdDone State.countFailed; split <;> simp
@[simp] theorem endPending_senak_safeBoot (p : PendingCmd) (st : Status) (d : Nat) : (s.endPending p st d).senak.safeBoot = s.senak.safeBoot := by
  unfold State.endPending State.cmdDone State.countFailed; split <;> simp
@[simp] theorem endPending_senak_preparing (p : PendingCmd) (st : Status) (d : Nat) : (s.endPending p st d).senak.preparing = s.senak.preparing := by
  unfold State.endPending State.cmdDone State.countFailed; split <;> simp
@[simp] theorem endPending_senak_dwinBase (p : PendingCmd) (st : Status) (d : Nat) : (s.endPending p st d).senak.dwinBase = s.senak.dwinBase := by
  unfold State.endPending State.cmdDone State.countFailed; split <;> simp
@[simp] theorem endPending_senak_dwinErr (p : PendingCmd) (st : Status) (d : Nat) : (s.endPending p st d).senak.dwinErr = s.senak.dwinErr := by
  unfold State.endPending State.cmdDone State.countFailed; split <;> simp
@[simp] theorem endPending_senak_busy (p : PendingCmd) (st : Status) (d : Nat) : (s.endPending p st d).senak.busy = s.senak.busy := by
  unfold State.endPending State.cmdDone State.countFailed; split <;> simp
@[simp] theorem endPending_senak_done (p : PendingCmd) (st : Status) (d : Nat) : (s.endPending p st d).senak.done = s.senak.done := by
  unfold State.endPending State.cmdDone State.countFailed; split <;> simp
@[simp] theorem endPending_senak_irq (p : PendingCmd) (st : Status) (d : Nat) : (s.endPending p st d).senak.irq = s.senak.irq := by
  unfold State.endPending State.cmdDone State.countFailed; split <;> simp
@[simp] theorem endPending_senak_doorbells (p : PendingCmd) (st : Status) (d : Nat) : (s.endPending p st d).senak.doorbells = s.senak.doorbells := by
  unfold State.endPending State.cmdDone State.countFailed; split <;> simp
@[simp] theorem endPending_senak_mbxErr (p : PendingCmd) (st : Status) (d : Nat) : (s.endPending p st d).senak.mbxErr = s.senak.mbxErr := by
  unfold State.endPending State.cmdDone State.countFailed; split <;> simp
@[simp] theorem endPending_senak_slots (p : PendingCmd) (st : Status) (d : Nat) : (s.endPending p st d).senak.slots = s.senak.slots := by
  unfold State.endPending State.cmdDone State.countFailed; split <;> simp
@[simp] theorem endPending_senak_nextSeq (p : PendingCmd) (st : Status) (d : Nat) : (s.endPending p st d).senak.nextSeq = s.senak.nextSeq := by
  unfold State.endPending State.cmdDone State.countFailed; split <;> simp
@[simp] theorem endPending_senak_pending (p : PendingCmd) (st : Status) (d : Nat) : (s.endPending p st d).senak.pending = s.senak.pending.erase p := by
  unfold State.endPending State.cmdDone State.countFailed; split <;> simp
@[simp] theorem endPending_senak_mask (p : PendingCmd) (st : Status) (d : Nat) : (s.endPending p st d).senak.mask = s.senak.mask := by
  unfold State.endPending State.cmdDone State.countFailed; split <;> simp
@[simp] theorem endPending_senak_pcie (p : PendingCmd) (st : Status) (d : Nat) : (s.endPending p st d).senak.pcie = s.senak.pcie := by
  unfold State.endPending State.cmdDone State.countFailed; split <;> simp
@[simp] theorem endPending_senak_heldWrites (p : PendingCmd) (st : Status) (d : Nat) : (s.endPending p st d).senak.heldWrites = s.senak.heldWrites := by
  unfold State.endPending State.cmdDone State.countFailed; split <;> simp
@[simp] theorem endPending_senak_quiesce (p : PendingCmd) (st : Status) (d : Nat) : (s.endPending p st d).senak.quiesce = s.senak.quiesce := by
  unfold State.endPending State.cmdDone State.countFailed; split <;> simp
@[simp] theorem endPending_senak_stopped (p : PendingCmd) (st : Status) (d : Nat) : (s.endPending p st d).senak.stopped = s.senak.stopped := by
  unfold State.endPending State.cmdDone State.countFailed; split <;> simp
@[simp] theorem endPending_senak_quiesced (p : PendingCmd) (st : Status) (d : Nat) : (s.endPending p st d).senak.quiesced = s.senak.quiesced := by
  unfold State.endPending State.cmdDone State.countFailed; split <;> simp
@[simp] theorem endPending_senak_resetAt (p : PendingCmd) (st : Status) (d : Nat) : (s.endPending p st d).senak.resetAt = s.senak.resetAt := by
  unfold State.endPending State.cmdDone State.countFailed; split <;> simp
@[simp] theorem endPending_senak_evq_base (p : PendingCmd) (st : Status) (d : Nat) : (s.endPending p st d).senak.evq.base = s.senak.evq.base := by
  unfold State.endPending State.cmdDone State.countFailed; split <;> simp
@[simp] theorem endPending_senak_evq_log2 (p : PendingCmd) (st : Status) (d : Nat) : (s.endPending p st d).senak.evq.log2 = s.senak.evq.log2 := by
  unfold State.endPending State.cmdDone State.countFailed; split <;> simp
@[simp] theorem endPending_senak_evq_holdoff (p : PendingCmd) (st : Status) (d : Nat) : (s.endPending p st d).senak.evq.holdoff = s.senak.evq.holdoff := by
  unfold State.endPending State.cmdDone State.countFailed; split <;> simp
@[simp] theorem endPending_senak_evq_en (p : PendingCmd) (st : Status) (d : Nat) : (s.endPending p st d).senak.evq.en = s.senak.evq.en := by
  unfold State.endPending State.cmdDone State.countFailed; split <;> simp
@[simp] theorem endPending_senak_evq_head (p : PendingCmd) (st : Status) (d : Nat) : (s.endPending p st d).senak.evq.head = s.senak.evq.head := by
  unfold State.endPending State.cmdDone State.countFailed; split <;> simp
@[simp] theorem endPending_senak_evq_tail (p : PendingCmd) (st : Status) (d : Nat) : (s.endPending p st d).senak.evq.tail = s.senak.evq.tail := by
  unfold State.endPending State.cmdDone State.countFailed; split <;> simp
@[simp] theorem endPending_senak_evq_phase (p : PendingCmd) (st : Status) (d : Nat) : (s.endPending p st d).senak.evq.phase = s.senak.evq.phase := by
  unfold State.endPending State.cmdDone State.countFailed; split <;> simp
@[simp] theorem endPending_senak_evq_lastMsg (p : PendingCmd) (st : Status) (d : Nat) : (s.endPending p st d).senak.evq.lastMsg = s.senak.evq.lastMsg := by
  unfold State.endPending State.cmdDone State.countFailed; split <;> simp
@[simp] theorem endPending_rt_mgmt_lifecycle (p : PendingCmd) (st : Status) (d : Nat) : (s.endPending p st d).rt.mgmt.lifecycle = s.rt.mgmt.lifecycle := by
  unfold State.endPending State.cmdDone State.countFailed; split <;> simp
@[simp] theorem endPending_rt_mgmt_level (p : PendingCmd) (st : Status) (d : Nat) : (s.endPending p st d).rt.mgmt.level = s.rt.mgmt.level := by
  unfold State.endPending State.cmdDone State.countFailed; split <;> simp
@[simp] theorem endPending_rt_mgmt_otp (p : PendingCmd) (st : Status) (d : Nat) : (s.endPending p st d).rt.mgmt.otp = s.rt.mgmt.otp := by
  unfold State.endPending State.cmdDone State.countFailed; split <;> simp
@[simp] theorem endPending_rt_mgmt_otpBad (p : PendingCmd) (st : Status) (d : Nat) : (s.endPending p st d).rt.mgmt.otpBad = s.rt.mgmt.otpBad := by
  unfold State.endPending State.cmdDone State.countFailed; split <;> simp
@[simp] theorem endPending_rt_mgmt_rootKey (p : PendingCmd) (st : Status) (d : Nat) : (s.endPending p st d).rt.mgmt.rootKey = s.rt.mgmt.rootKey := by
  unfold State.endPending State.cmdDone State.countFailed; split <;> simp
@[simp] theorem endPending_rt_mgmt_imageDigest (p : PendingCmd) (st : Status) (d : Nat) : (s.endPending p st d).rt.mgmt.imageDigest = s.rt.mgmt.imageDigest := by
  unfold State.endPending State.cmdDone State.countFailed; split <;> simp
@[simp] theorem endPending_rt_mgmt_macs (p : PendingCmd) (st : Status) (d : Nat) : (s.endPending p st d).rt.mgmt.macs = s.rt.mgmt.macs := by
  unfold State.endPending State.cmdDone State.countFailed; split <;> simp
@[simp] theorem endPending_rt_mgmt_rollback (p : PendingCmd) (st : Status) (d : Nat) : (s.endPending p st d).rt.mgmt.rollback = s.rt.mgmt.rollback := by
  unfold State.endPending State.cmdDone State.countFailed; split <;> simp
@[simp] theorem endPending_rt_mgmt_slots (p : PendingCmd) (st : Status) (d : Nat) : (s.endPending p st d).rt.mgmt.slots = s.rt.mgmt.slots := by
  unfold State.endPending State.cmdDone State.countFailed; split <;> simp
@[simp] theorem endPending_rt_mgmt_running (p : PendingCmd) (st : Status) (d : Nat) : (s.endPending p st d).rt.mgmt.running = s.rt.mgmt.running := by
  unfold State.endPending State.cmdDone State.countFailed; split <;> simp
@[simp] theorem endPending_rt_mgmt_asTrial (p : PendingCmd) (st : Status) (d : Nat) : (s.endPending p st d).rt.mgmt.asTrial = s.rt.mgmt.asTrial := by
  unfold State.endPending State.cmdDone State.countFailed; split <;> simp
@[simp] theorem endPending_rt_mgmt_config (p : PendingCmd) (st : Status) (d : Nat) : (s.endPending p st d).rt.mgmt.config = s.rt.mgmt.config := by
  unfold State.endPending State.cmdDone State.countFailed; split <;> simp
@[simp] theorem endPending_rt_mgmt_copies (p : PendingCmd) (st : Status) (d : Nat) : (s.endPending p st d).rt.mgmt.copies = s.rt.mgmt.copies := by
  unfold State.endPending State.cmdDone State.countFailed; split <;> simp
@[simp] theorem endPending_rt_mgmt_mirroredThrough (p : PendingCmd) (st : Status) (d : Nat) : (s.endPending p st d).rt.mgmt.mirroredThrough = s.rt.mgmt.mirroredThrough := by
  unfold State.endPending State.cmdDone State.countFailed; split <;> simp
@[simp] theorem endPending_rt_mgmt_mirrorFailing (p : PendingCmd) (st : Status) (d : Nat) : (s.endPending p st d).rt.mgmt.mirrorFailing = s.rt.mgmt.mirrorFailing := by
  unfold State.endPending State.cmdDone State.countFailed; split <;> simp
@[simp] theorem endPending_rt_mgmt_mirror (p : PendingCmd) (st : Status) (d : Nat) : (s.endPending p st d).rt.mgmt.mirror = s.rt.mgmt.mirror := by
  unfold State.endPending State.cmdDone State.countFailed; split <;> simp
@[simp] theorem endPending_rt_mgmt_mirrorFailAt (p : PendingCmd) (st : Status) (d : Nat) : (s.endPending p st d).rt.mgmt.mirrorFailAt = s.rt.mgmt.mirrorFailAt := by
  unfold State.endPending State.cmdDone State.countFailed; split <;> simp
@[simp] theorem endPending_rt_mgmt_threshold (p : PendingCmd) (st : Status) (d : Nat) : (s.endPending p st d).rt.mgmt.threshold = s.rt.mgmt.threshold := by
  unfold State.endPending State.cmdDone State.countFailed; split <;> simp
@[simp] theorem endPending_rt_mgmt_alertMask (p : PendingCmd) (st : Status) (d : Nat) : (s.endPending p st d).rt.mgmt.alertMask = s.rt.mgmt.alertMask := by
  unfold State.endPending State.cmdDone State.countFailed; split <;> simp
@[simp] theorem endPending_rt_mgmt_monitors (p : PendingCmd) (st : Status) (d : Nat) : (s.endPending p st d).rt.mgmt.monitors = s.rt.mgmt.monitors := by
  unfold State.endPending State.cmdDone State.countFailed; split <;> simp
@[simp] theorem endPending_rt_mgmt_tripped (p : PendingCmd) (st : Status) (d : Nat) : (s.endPending p st d).rt.mgmt.tripped = s.rt.mgmt.tripped := by
  unfold State.endPending State.cmdDone State.countFailed; split <;> simp
@[simp] theorem endPending_rt_mgmt_recovered (p : PendingCmd) (st : Status) (d : Nat) : (s.endPending p st d).rt.mgmt.recovered = s.rt.mgmt.recovered := by
  unfold State.endPending State.cmdDone State.countFailed; split <;> simp
@[simp] theorem endPending_rt_mgmt_flashHeld (p : PendingCmd) (st : Status) (d : Nat) : (s.endPending p st d).rt.mgmt.flashHeld = s.rt.mgmt.flashHeld := by
  unfold State.endPending State.cmdDone State.countFailed; split <;> simp
@[simp] theorem endPending_rt_mgmt_image (p : PendingCmd) (st : Status) (d : Nat) : (s.endPending p st d).rt.mgmt.image = s.rt.mgmt.image := by
  unfold State.endPending State.cmdDone State.countFailed; split <;> simp

/-! sendVector. -/

@[simp] theorem sendVector_pending (v : Nat) : (s.sendVector v).pending = s.pending := by
  unfold State.sendVector; dsimp only; split <;> rfl
@[simp] theorem sendVector_free (v : Nat) : (s.sendVector v).free = s.free := by
  unfold State.sendVector; dsimp only; split <;> rfl
@[simp] theorem sendVector_gens (v : Nat) : (s.sendVector v).gens = s.gens := by
  unfold State.sendVector; dsimp only; split <;> rfl
@[simp] theorem sendVector_boot (v : Nat) : (s.sendVector v).boot = s.boot := by
  unfold State.sendVector; dsimp only; split <;> rfl
@[simp] theorem sendVector_latch (v : Nat) : (s.sendVector v).latch = s.latch := by
  unfold State.sendVector; dsimp only; split <;> rfl
@[simp] theorem sendVector_latchAt (v : Nat) : (s.sendVector v).latchAt = s.latchAt := by
  unfold State.sendVector; dsimp only; split <;> rfl
@[simp] theorem sendVector_latchStats (v : Nat) : (s.sendVector v).latchStats = s.latchStats := by
  unfold State.sendVector; dsimp only; split <;> rfl
@[simp] theorem sendVector_snap (v : Nat) : (s.sendVector v).snap = s.snap := by
  unfold State.sendVector; dsimp only; split <;> rfl
@[simp] theorem sendVector_journal (v : Nat) : (s.sendVector v).journal = s.journal := by
  unfold State.sendVector; dsimp only; split <;> rfl
@[simp] theorem sendVector_hostMem (v : Nat) : (s.sendVector v).hostMem = s.hostMem := by
  unfold State.sendVector; dsimp only; split <;> rfl
@[simp] theorem sendVector_rt (v : Nat) : (s.sendVector v).rt = s.rt := by
  unfold State.sendVector; dsimp only; split <;> rfl
@[simp] theorem sendVector_senak_scratch (v : Nat) : (s.sendVector v).senak.scratch = s.senak.scratch := by
  unfold State.sendVector; dsimp only; split <;> rfl
@[simp] theorem sendVector_senak_ready (v : Nat) : (s.sendVector v).senak.ready = s.senak.ready := by
  unfold State.sendVector; dsimp only; split <;> rfl
@[simp] theorem sendVector_senak_safeBoot (v : Nat) : (s.sendVector v).senak.safeBoot = s.senak.safeBoot := by
  unfold State.sendVector; dsimp only; split <;> rfl
@[simp] theorem sendVector_senak_preparing (v : Nat) : (s.sendVector v).senak.preparing = s.senak.preparing := by
  unfold State.sendVector; dsimp only; split <;> rfl
@[simp] theorem sendVector_senak_dwinBase (v : Nat) : (s.sendVector v).senak.dwinBase = s.senak.dwinBase := by
  unfold State.sendVector; dsimp only; split <;> rfl
@[simp] theorem sendVector_senak_dwinErr (v : Nat) : (s.sendVector v).senak.dwinErr = s.senak.dwinErr := by
  unfold State.sendVector; dsimp only; split <;> rfl
@[simp] theorem sendVector_senak_busy (v : Nat) : (s.sendVector v).senak.busy = s.senak.busy := by
  unfold State.sendVector; dsimp only; split <;> rfl
@[simp] theorem sendVector_senak_done (v : Nat) : (s.sendVector v).senak.done = s.senak.done := by
  unfold State.sendVector; dsimp only; split <;> rfl
@[simp] theorem sendVector_senak_irq (v : Nat) : (s.sendVector v).senak.irq = s.senak.irq := by
  unfold State.sendVector; dsimp only; split <;> rfl
@[simp] theorem sendVector_senak_doorbells (v : Nat) : (s.sendVector v).senak.doorbells = s.senak.doorbells := by
  unfold State.sendVector; dsimp only; split <;> rfl
@[simp] theorem sendVector_senak_mbxErr (v : Nat) : (s.sendVector v).senak.mbxErr = s.senak.mbxErr := by
  unfold State.sendVector; dsimp only; split <;> rfl
@[simp] theorem sendVector_senak_slots (v : Nat) : (s.sendVector v).senak.slots = s.senak.slots := by
  unfold State.sendVector; dsimp only; split <;> rfl
@[simp] theorem sendVector_senak_nextSeq (v : Nat) : (s.sendVector v).senak.nextSeq = s.senak.nextSeq := by
  unfold State.sendVector; dsimp only; split <;> rfl
@[simp] theorem sendVector_senak_pending (v : Nat) : (s.sendVector v).senak.pending = s.senak.pending := by
  unfold State.sendVector; dsimp only; split <;> rfl
@[simp] theorem sendVector_senak_mask (v : Nat) : (s.sendVector v).senak.mask = s.senak.mask := by
  unfold State.sendVector; dsimp only; split <;> rfl
@[simp] theorem sendVector_senak_heldWrites (v : Nat) : (s.sendVector v).senak.heldWrites = s.senak.heldWrites := by
  unfold State.sendVector; dsimp only; split <;> rfl
@[simp] theorem sendVector_senak_quiesce (v : Nat) : (s.sendVector v).senak.quiesce = s.senak.quiesce := by
  unfold State.sendVector; dsimp only; split <;> rfl
@[simp] theorem sendVector_senak_stopped (v : Nat) : (s.sendVector v).senak.stopped = s.senak.stopped := by
  unfold State.sendVector; dsimp only; split <;> rfl
@[simp] theorem sendVector_senak_quiesced (v : Nat) : (s.sendVector v).senak.quiesced = s.senak.quiesced := by
  unfold State.sendVector; dsimp only; split <;> rfl
@[simp] theorem sendVector_senak_resetAt (v : Nat) : (s.sendVector v).senak.resetAt = s.senak.resetAt := by
  unfold State.sendVector; dsimp only; split <;> rfl
@[simp] theorem sendVector_senak_devFault (v : Nat) : (s.sendVector v).senak.devFault = s.senak.devFault := by
  unfold State.sendVector; dsimp only; split <;> rfl
@[simp] theorem sendVector_senak_stats (v : Nat) : (s.sendVector v).senak.stats = s.senak.stats := by
  unfold State.sendVector; dsimp only; split <;> rfl
@[simp] theorem sendVector_senak_evq (v : Nat) : (s.sendVector v).senak.evq = s.senak.evq := by
  unfold State.sendVector; dsimp only; split <;> rfl

/-! setPin. -/

@[simp] theorem setPin_pending (p : Nat) (v : Bool) : (s.setPin p v).pending = s.pending := by
  unfold State.setPin; split <;> rfl
@[simp] theorem setPin_free (p : Nat) (v : Bool) : (s.setPin p v).free = s.free := by
  unfold State.setPin; split <;> rfl
@[simp] theorem setPin_gens (p : Nat) (v : Bool) : (s.setPin p v).gens = s.gens := by
  unfold State.setPin; split <;> rfl
@[simp] theorem setPin_latch (p : Nat) (v : Bool) : (s.setPin p v).latch = s.latch := by
  unfold State.setPin; split <;> rfl
@[simp] theorem setPin_latchAt (p : Nat) (v : Bool) : (s.setPin p v).latchAt = s.latchAt := by
  unfold State.setPin; split <;> rfl
@[simp] theorem setPin_latchStats (p : Nat) (v : Bool) : (s.setPin p v).latchStats = s.latchStats := by
  unfold State.setPin; split <;> rfl
@[simp] theorem setPin_snap (p : Nat) (v : Bool) : (s.setPin p v).snap = s.snap := by
  unfold State.setPin; split <;> rfl
@[simp] theorem setPin_journal (p : Nat) (v : Bool) : (s.setPin p v).journal = s.journal := by
  unfold State.setPin; split <;> rfl
@[simp] theorem setPin_hostMem (p : Nat) (v : Bool) : (s.setPin p v).hostMem = s.hostMem := by
  unfold State.setPin; split <;> rfl
@[simp] theorem setPin_rt (p : Nat) (v : Bool) : (s.setPin p v).rt = s.rt := by
  unfold State.setPin; split <;> rfl
@[simp] theorem setPin_senak (p : Nat) (v : Bool) : (s.setPin p v).senak = s.senak := by
  unfold State.setPin; split <;> rfl
@[simp] theorem setPin_boot_phase (p : Nat) (v : Bool) : (s.setPin p v).boot.phase = s.boot.phase := by
  unfold State.setPin; split <;> rfl
@[simp] theorem setPin_boot_lastReset (p : Nat) (v : Bool) : (s.setPin p v).boot.lastReset = s.boot.lastReset := by
  unfold State.setPin; split <;> rfl
@[simp] theorem setPin_boot_cfgCode (p : Nat) (v : Bool) : (s.setPin p v).boot.cfgCode = s.boot.cfgCode := by
  unfold State.setPin; split <;> rfl
@[simp] theorem setPin_boot_band (p : Nat) (v : Bool) : (s.setPin p v).boot.band = s.boot.band := by
  unfold State.setPin; split <;> rfl
@[simp] theorem setPin_boot_causes (p : Nat) (v : Bool) : (s.setPin p v).boot.causes = s.boot.causes := by
  unfold State.setPin; split <;> rfl
@[simp] theorem setPin_boot_otpFailures (p : Nat) (v : Bool) : (s.setPin p v).boot.otpFailures = s.boot.otpFailures := by
  unfold State.setPin; split <;> rfl
@[simp] theorem setPin_boot_otpLoaded (p : Nat) (v : Bool) : (s.setPin p v).boot.otpLoaded = s.boot.otpLoaded := by
  unfold State.setPin; split <;> rfl
@[simp] theorem setPin_boot_trained (p : Nat) (v : Bool) : (s.setPin p v).boot.trained = s.boot.trained := by
  unfold State.setPin; split <;> rfl
@[simp] theorem setPin_boot_resetEnd (p : Nat) (v : Bool) : (s.setPin p v).boot.resetEnd = s.boot.resetEnd := by
  unfold State.setPin; split <;> rfl
@[simp] theorem setPin_boot_bootMs (p : Nat) (v : Bool) : (s.setPin p v).boot.bootMs = s.boot.bootMs := by
  unfold State.setPin; split <;> rfl
@[simp] theorem setPin_boot_uzoganAt (p : Nat) (v : Bool) : (s.setPin p v).boot.uzoganAt = s.boot.uzoganAt := by
  unfold State.setPin; split <;> rfl
@[simp] theorem setPin_boot_coldResets (p : Nat) (v : Bool) : (s.setPin p v).boot.coldResets = s.boot.coldResets := by
  unfold State.setPin; split <;> rfl
@[simp] theorem setPin_boot_warmResets (p : Nat) (v : Bool) : (s.setPin p v).boot.warmResets = s.boot.warmResets := by
  unfold State.setPin; split <;> rfl
@[simp] theorem setPin_boot_endpointResets (p : Nat) (v : Bool) : (s.setPin p v).boot.endpointResets = s.boot.endpointResets := by
  unfold State.setPin; split <;> rfl
@[simp] theorem setPin_boot_pendingRelease (p : Nat) (v : Bool) : (s.setPin p v).boot.pendingRelease = s.boot.pendingRelease := by
  unfold State.setPin; split <;> rfl
@[simp] theorem setPin_boot_inReset (p : Nat) (v : Bool) : (s.setPin p v).boot.inReset = s.boot.inReset := by
  unfold State.setPin; split <;> rfl
@[simp] theorem setPin_boot_readyOnce (p : Nat) (v : Bool) : (s.setPin p v).boot.readyOnce = s.boot.readyOnce := by
  unfold State.setPin; split <;> rfl
@[simp] theorem setPin_boot_endpointOnly (p : Nat) (v : Bool) : (s.setPin p v).boot.endpointOnly = s.boot.endpointOnly := by
  unfold State.setPin; split <;> rfl
@[simp] theorem setPin_boot_waitRefclk (p : Nat) (v : Bool) : (s.setPin p v).boot.waitRefclk = s.boot.waitRefclk := by
  unfold State.setPin; split <;> rfl
@[simp] theorem setPin_boot_gpio (p : Nat) (v : Bool) : (s.setPin p v).boot.gpio = s.boot.gpio := by
  unfold State.setPin; split <;> rfl

/-- A pin reads as it was last driven. -/
@[simp] theorem setPin_pin (p : Nat) (v d : Bool) (h : d = true) : mgetD (s.setPin p v).boot.pins p d = v := by
  subst h
  unfold State.setPin
  split
  · assumption
  · simp [State.modBoot, State.emit]

/-! writeFlash. -/

@[simp] theorem writeFlash_pending (f : FlashConfig → FlashConfig) : (s.writeFlash f).pending = s.pending := (rfl)
@[simp] theorem writeFlash_free (f : FlashConfig → FlashConfig) : (s.writeFlash f).free = s.free := (rfl)
@[simp] theorem writeFlash_wire (f : FlashConfig → FlashConfig) : (s.writeFlash f).wire = s.wire := (rfl)
@[simp] theorem writeFlash_gens (f : FlashConfig → FlashConfig) : (s.writeFlash f).gens = s.gens := (rfl)
@[simp] theorem writeFlash_boot (f : FlashConfig → FlashConfig) : (s.writeFlash f).boot = s.boot := (rfl)
@[simp] theorem writeFlash_latch (f : FlashConfig → FlashConfig) : (s.writeFlash f).latch = s.latch := (rfl)
@[simp] theorem writeFlash_latchAt (f : FlashConfig → FlashConfig) : (s.writeFlash f).latchAt = s.latchAt := (rfl)
@[simp] theorem writeFlash_latchStats (f : FlashConfig → FlashConfig) : (s.writeFlash f).latchStats = s.latchStats := (rfl)
@[simp] theorem writeFlash_snap (f : FlashConfig → FlashConfig) : (s.writeFlash f).snap = s.snap := (rfl)
@[simp] theorem writeFlash_journal (f : FlashConfig → FlashConfig) : (s.writeFlash f).journal = s.journal := (rfl)
@[simp] theorem writeFlash_hostMem (f : FlashConfig → FlashConfig) : (s.writeFlash f).hostMem = s.hostMem := (rfl)
@[simp] theorem writeFlash_senak (f : FlashConfig → FlashConfig) : (s.writeFlash f).senak = s.senak := (rfl)
@[simp] theorem writeFlash_rt_time (f : FlashConfig → FlashConfig) : (s.writeFlash f).rt.time = s.rt.time := (rfl)
@[simp] theorem writeFlash_rt_clover (f : FlashConfig → FlashConfig) : (s.writeFlash f).rt.clover = s.rt.clover := (rfl)
@[simp] theorem writeFlash_rt_fault (f : FlashConfig → FlashConfig) : (s.writeFlash f).rt.fault = s.rt.fault := (rfl)
@[simp] theorem writeFlash_rt_power (f : FlashConfig → FlashConfig) : (s.writeFlash f).rt.power = s.rt.power := (rfl)
@[simp] theorem writeFlash_rt_test (f : FlashConfig → FlashConfig) : (s.writeFlash f).rt.test = s.rt.test := (rfl)
@[simp] theorem writeFlash_rt_dram (f : FlashConfig → FlashConfig) : (s.writeFlash f).rt.dram = s.rt.dram := (rfl)
@[simp] theorem writeFlash_rt_mallow (f : FlashConfig → FlashConfig) : (s.writeFlash f).rt.mallow = s.rt.mallow := (rfl)
@[simp] theorem writeFlash_rt_audio (f : FlashConfig → FlashConfig) : (s.writeFlash f).rt.audio = s.rt.audio := (rfl)
@[simp] theorem writeFlash_rt_sec (f : FlashConfig → FlashConfig) : (s.writeFlash f).rt.sec = s.rt.sec := (rfl)
@[simp] theorem writeFlash_rt_net (f : FlashConfig → FlashConfig) : (s.writeFlash f).rt.net = s.rt.net := (rfl)
@[simp] theorem writeFlash_rt_fwd (f : FlashConfig → FlashConfig) : (s.writeFlash f).rt.fwd = s.rt.fwd := (rfl)
@[simp] theorem writeFlash_rt_video (f : FlashConfig → FlashConfig) : (s.writeFlash f).rt.video = s.rt.video := (rfl)
@[simp] theorem writeFlash_rt_recorder (f : FlashConfig → FlashConfig) : (s.writeFlash f).rt.recorder = s.rt.recorder := (rfl)
@[simp] theorem writeFlash_rt_dsp (f : FlashConfig → FlashConfig) : (s.writeFlash f).rt.dsp = s.rt.dsp := (rfl)
@[simp] theorem writeFlash_rt_tdm (f : FlashConfig → FlashConfig) : (s.writeFlash f).rt.tdm = s.rt.tdm := (rfl)
@[simp] theorem writeFlash_rt_hsp (f : FlashConfig → FlashConfig) : (s.writeFlash f).rt.hsp = s.rt.hsp := (rfl)
@[simp] theorem writeFlash_rt_zip (f : FlashConfig → FlashConfig) : (s.writeFlash f).rt.zip = s.rt.zip := (rfl)
@[simp] theorem writeFlash_rt_mgmt_lifecycle (f : FlashConfig → FlashConfig) : (s.writeFlash f).rt.mgmt.lifecycle = s.rt.mgmt.lifecycle := by
  unfold State.writeFlash State.modMgmt State.modRt; dsimp only; split <;> rfl
@[simp] theorem writeFlash_rt_mgmt_level (f : FlashConfig → FlashConfig) : (s.writeFlash f).rt.mgmt.level = s.rt.mgmt.level := by
  unfold State.writeFlash State.modMgmt State.modRt; dsimp only; split <;> rfl
@[simp] theorem writeFlash_rt_mgmt_otp (f : FlashConfig → FlashConfig) : (s.writeFlash f).rt.mgmt.otp = s.rt.mgmt.otp := by
  unfold State.writeFlash State.modMgmt State.modRt; dsimp only; split <;> rfl
@[simp] theorem writeFlash_rt_mgmt_otpBad (f : FlashConfig → FlashConfig) : (s.writeFlash f).rt.mgmt.otpBad = s.rt.mgmt.otpBad := by
  unfold State.writeFlash State.modMgmt State.modRt; dsimp only; split <;> rfl
@[simp] theorem writeFlash_rt_mgmt_rootKey (f : FlashConfig → FlashConfig) : (s.writeFlash f).rt.mgmt.rootKey = s.rt.mgmt.rootKey := by
  unfold State.writeFlash State.modMgmt State.modRt; dsimp only; split <;> rfl
@[simp] theorem writeFlash_rt_mgmt_imageDigest (f : FlashConfig → FlashConfig) : (s.writeFlash f).rt.mgmt.imageDigest = s.rt.mgmt.imageDigest := by
  unfold State.writeFlash State.modMgmt State.modRt; dsimp only; split <;> rfl
@[simp] theorem writeFlash_rt_mgmt_macs (f : FlashConfig → FlashConfig) : (s.writeFlash f).rt.mgmt.macs = s.rt.mgmt.macs := by
  unfold State.writeFlash State.modMgmt State.modRt; dsimp only; split <;> rfl
@[simp] theorem writeFlash_rt_mgmt_rollback (f : FlashConfig → FlashConfig) : (s.writeFlash f).rt.mgmt.rollback = s.rt.mgmt.rollback := by
  unfold State.writeFlash State.modMgmt State.modRt; dsimp only; split <;> rfl
@[simp] theorem writeFlash_rt_mgmt_slots (f : FlashConfig → FlashConfig) : (s.writeFlash f).rt.mgmt.slots = s.rt.mgmt.slots := by
  unfold State.writeFlash State.modMgmt State.modRt; dsimp only; split <;> rfl
@[simp] theorem writeFlash_rt_mgmt_running (f : FlashConfig → FlashConfig) : (s.writeFlash f).rt.mgmt.running = s.rt.mgmt.running := by
  unfold State.writeFlash State.modMgmt State.modRt; dsimp only; split <;> rfl
@[simp] theorem writeFlash_rt_mgmt_asTrial (f : FlashConfig → FlashConfig) : (s.writeFlash f).rt.mgmt.asTrial = s.rt.mgmt.asTrial := by
  unfold State.writeFlash State.modMgmt State.modRt; dsimp only; split <;> rfl
@[simp] theorem writeFlash_rt_mgmt_mirroredThrough (f : FlashConfig → FlashConfig) : (s.writeFlash f).rt.mgmt.mirroredThrough = s.rt.mgmt.mirroredThrough := by
  unfold State.writeFlash State.modMgmt State.modRt; dsimp only; split <;> rfl
@[simp] theorem writeFlash_rt_mgmt_mirrorFailing (f : FlashConfig → FlashConfig) : (s.writeFlash f).rt.mgmt.mirrorFailing = s.rt.mgmt.mirrorFailing := by
  unfold State.writeFlash State.modMgmt State.modRt; dsimp only; split <;> rfl
@[simp] theorem writeFlash_rt_mgmt_mirror (f : FlashConfig → FlashConfig) : (s.writeFlash f).rt.mgmt.mirror = s.rt.mgmt.mirror := by
  unfold State.writeFlash State.modMgmt State.modRt; dsimp only; split <;> rfl
@[simp] theorem writeFlash_rt_mgmt_mirrorFailAt (f : FlashConfig → FlashConfig) : (s.writeFlash f).rt.mgmt.mirrorFailAt = s.rt.mgmt.mirrorFailAt := by
  unfold State.writeFlash State.modMgmt State.modRt; dsimp only; split <;> rfl
@[simp] theorem writeFlash_rt_mgmt_threshold (f : FlashConfig → FlashConfig) : (s.writeFlash f).rt.mgmt.threshold = s.rt.mgmt.threshold := by
  unfold State.writeFlash State.modMgmt State.modRt; dsimp only; split <;> rfl
@[simp] theorem writeFlash_rt_mgmt_alertMask (f : FlashConfig → FlashConfig) : (s.writeFlash f).rt.mgmt.alertMask = s.rt.mgmt.alertMask := by
  unfold State.writeFlash State.modMgmt State.modRt; dsimp only; split <;> rfl
@[simp] theorem writeFlash_rt_mgmt_monitors (f : FlashConfig → FlashConfig) : (s.writeFlash f).rt.mgmt.monitors = s.rt.mgmt.monitors := by
  unfold State.writeFlash State.modMgmt State.modRt; dsimp only; split <;> rfl
@[simp] theorem writeFlash_rt_mgmt_tripped (f : FlashConfig → FlashConfig) : (s.writeFlash f).rt.mgmt.tripped = s.rt.mgmt.tripped := by
  unfold State.writeFlash State.modMgmt State.modRt; dsimp only; split <;> rfl
@[simp] theorem writeFlash_rt_mgmt_recovered (f : FlashConfig → FlashConfig) : (s.writeFlash f).rt.mgmt.recovered = s.rt.mgmt.recovered := by
  unfold State.writeFlash State.modMgmt State.modRt; dsimp only; split <;> rfl
@[simp] theorem writeFlash_rt_mgmt_flashHeld (f : FlashConfig → FlashConfig) : (s.writeFlash f).rt.mgmt.flashHeld = s.rt.mgmt.flashHeld := by
  unfold State.writeFlash State.modMgmt State.modRt; dsimp only; split <;> rfl
@[simp] theorem writeFlash_rt_mgmt_image (f : FlashConfig → FlashConfig) : (s.writeFlash f).rt.mgmt.image = s.rt.mgmt.image := by
  unfold State.writeFlash State.modMgmt State.modRt; dsimp only; split <;> rfl
@[simp] theorem writeFlash_rt_mgmt_config (f : FlashConfig → FlashConfig) : (s.writeFlash f).rt.mgmt.config = f s.rt.mgmt.config := by
  unfold State.writeFlash State.modMgmt State.modRt; dsimp only; split <;> rfl

end Sys2Proof.Laws
end

