-- ==== Sys2Proof/Laws/Issue.lean ====
section
/-! SUPPORT. What the issue of one Yarrow instruction can do, said once. -/

namespace Sys2Proof.Machine

open Sys2Proof.Laws

@[simp] theorem core_modCore_self (k : Nat) (f : Core → Core) (s : State) : (modCore k f s).core k = f (s.core k) := by
  simp [modCore, State.core, mgetD, mmod]

theorem core_modCore_ne {k j : Nat} (f : Core → Core) (s : State) (h : j ≠ k) : (modCore k f s).core j = s.core j := by
  simp [modCore, State.core, mgetD, mmod, mget_mset_ne _ _ h]

/-- Everything of the device but the cores, cluster memory, the reports of tests, the clocks and the count of free values. -/
structure Elsewhere (s u : State) : Prop where
  senak : u.senak = s.senak
  gens : u.gens = s.gens
  hostMem : u.hostMem = s.hostMem
  dram : u.rt.dram = s.rt.dram
  clover : u.rt.clover = s.rt.clover
  fault : u.rt.fault = s.rt.fault
  images : u.rt.dsp.images = s.rt.dsp.images

theorem Elsewhere.refl (s : State) : Elsewhere s s := ⟨rfl, rfl, rfl, rfl, rfl, rfl, rfl⟩

theorem Elsewhere.trans {s u v : State} (h : Elsewhere s u) (g : Elsewhere u v) : Elsewhere s v :=
  ⟨g.1.trans h.1, g.2.trans h.2, g.3.trans h.3, g.4.trans h.4, g.5.trans h.5, g.6.trans h.6, g.7.trans h.7⟩

theorem elsewhere_modCore (k : Nat) (f : Core → Core) (s : State) : Elsewhere s (modCore k f s) := ⟨rfl, rfl, rfl, rfl, rfl, rfl, rfl⟩

/-- What the stores of an instruction do to its core, the other cores and cluster memory. -/
structure Stores (b k : Nat) (l : List (Bool × Nat × Word24)) (s u : State) : Prop where
  self : u.core k = { s.core k with
    xmem := (l.filter fun w => w.1 == false && decide (w.2.1 < 0x4000)).foldl (fun m w => wordSet m w.2.1 w.2.2) (s.core k).xmem
    ymem := (l.filter fun w => w.1 && decide (w.2.1 < 0x4000)).foldl (fun m w => wordSet m w.2.1 w.2.2) (s.core k).ymem }
  cores : ∀ j, j ≠ k → u.core j = s.core j
  running : u.rt.test.running = s.rt.test.running
  shared : mhas s.rt.test.running (b * 256 + 255) = false → u.rt.test = s.rt.test ∧
    (∀ j, j ≠ b → mget u.rt.dsp.shared j = mget s.rt.dsp.shared j) ∧
    mgetD u.rt.dsp.shared b [] = (l.filter fun w => spaceOf w.1 w.2.1 == some 2).foldl (fun m w => wordSet m (w.2.1 - 0x20000) w.2.2)
      (mgetD s.rt.dsp.shared b [])
  banks : (∀ w ∈ l, w.2.1 < 0x4000) → u.rt.dsp.shared = s.rt.dsp.shared ∧ u.rt.test = s.rt.test
  elsewhere : Elsewhere s u

theorem space_bank {y : Bool} {a : Nat} (h : a < 0x4000) : spaceOf y a = some 0 := by simp [spaceOf, h]

theorem space_not_bank {y : Bool} {a : Nat} (h : ¬ a < 0x4000) : spaceOf y a ≠ some 0 := by
  unfold spaceOf
  rw [if_neg h]
  split
  · simp
  · split
    · simp
    · split <;> simp

theorem stores_one (b k : Nat) (w : Bool × Nat × Word24) (s : State) : Stores b k [w] s (storeWord b k w s) := by
  obtain ⟨y, a, v⟩ := w
  by_cases h : a < 0x4000
  · have e : storeWord b k (y, a, v) s = modCore k (fun c => if y then { c with ymem := wordSet c.ymem a v } else { c with xmem := wordSet c.xmem a v }) s := by
      simp [storeWord, space_bank h]
    rw [e]
    refine ⟨?_, fun j hj => core_modCore_ne _ _ hj, rfl, fun _ => ⟨rfl, fun _ _ => rfl, ?_⟩, fun _ => ⟨rfl, rfl⟩, elsewhere_modCore _ _ _⟩
    · rw [core_modCore_self]
      cases y <;> simp [h]
    · simp [space_bank h]
      rfl
  · have hx : ∀ z : Bool, (([(y, a, v)] : List (Bool × Nat × Word24)).filter fun w => (w.1 == z) && decide (w.2.1 < 0x4000)) = [] := by
      simp [h]
    have hy : (([(y, a, v)] : List (Bool × Nat × Word24)).filter fun w => w.1 && decide (w.2.1 < 0x4000)) = [] := by
      simp [h]
    have h0 := space_not_bank (y := y) h
    by_cases h2 : spaceOf y a = some 2
    · by_cases ht : mhas s.rt.test.running (b * 256 + 255) = true
      · have e : storeWord b k (y, a, v) s = countIsolated (b * 256 + 255) s := by simp [storeWord, h2, ht]
        rw [e]
        refine ⟨?_, fun _ _ => rfl, rfl, fun hf => by simp [hf] at ht, fun hb => absurd (hb _ (List.mem_singleton.mpr rfl)) h, ⟨rfl, rfl, rfl, rfl, rfl, rfl, rfl⟩⟩
        rw [hx false, hy]
        rfl
      · have e : storeWord b k (y, a, v) s = s.modDsp fun d => { d with shared := mmod d.shared b [] fun m => wordSet m (a - 0x20000) v } := by
          simp [storeWord, h2, ht]
        rw [e]
        refine ⟨?_, fun _ _ => rfl, rfl, fun _ => ⟨rfl, fun j hj => mget_mset_ne _ _ hj, ?_⟩,
          fun hb => absurd (hb _ (List.mem_singleton.mpr rfl)) h, ⟨rfl, rfl, rfl, rfl, rfl, rfl, rfl⟩⟩
        · rw [hx false, hy]
          rfl
        · simp [h2, mgetD, mmod]
    · have e : storeWord b k (y, a, v) s = s := by
        unfold storeWord
        split
        · rename_i h'; exact absurd h' h0
        · rename_i h'; exact absurd h' h2
        · rfl
      rw [e]
      refine ⟨?_, fun _ _ => rfl, rfl, fun _ => ⟨rfl, fun _ _ => rfl, ?_⟩, fun hb => absurd (hb _ (List.mem_singleton.mpr rfl)) h, .refl s⟩
      · rw [hx false, hy]
        rfl
      · simp [h2]

theorem Stores.cons {b k : Nat} {w : Bool × Nat × Word24} {l : List (Bool × Nat × Word24)} {s u v : State} (h : Stores b k [w] s u)
    (g : Stores b k l u v) : Stores b k (w :: l) s v := by
  have fc : ∀ (p : Bool × Nat × Word24 → Bool) (f : Mem → Bool × Nat × Word24 → Mem) (m : Mem),
      ((w :: l).filter p).foldl f m = (l.filter p).foldl f (([w].filter p).foldl f m) := by
    intro p f m
    by_cases hp : p w = true <;> simp [hp]
  refine ⟨?_, fun j hj => (g.cores j hj).trans (h.cores j hj), g.running.trans h.running, fun ht => ?_, fun hb => ?_, h.elsewhere.trans g.elsewhere⟩
  · rw [g.self, h.self, fc, fc]
  · have h1 := h.shared ht
    have h2 := g.shared (by rw [h.running]; exact ht)
    refine ⟨h2.1.trans h1.1, fun j hj => (h2.2.1 j hj).trans (h1.2.1 j hj), ?_⟩
    rw [h2.2.2, h1.2.2, fc]
  · have h1 := h.banks fun x hx => hb x (by simp_all)
    have h2 := g.banks fun x hx => hb x (by simp_all)
    exact ⟨h2.1.trans h1.1, h2.2.trans h1.2⟩

/-- The stores of an instruction, in order. -/
theorem stores_all (b k : Nat) (l : List (Bool × Nat × Word24)) (s : State) : Stores b k l s (l.foldl (fun s w => storeWord b k w s) s) := by
  induction l generalizing s with
  | nil => exact ⟨rfl, fun _ _ => rfl, rfl, fun _ => ⟨rfl, fun _ _ => rfl, rfl⟩, fun _ => ⟨rfl, rfl⟩, .refl s⟩
  | cons w l ih => exact (stores_one b k w s).cons (ih _)

/-- Words that are known stay as they are (R415; log 72). -/
theorem mget_learn {words : List Nat} {c : Core} {a : Nat} {v : BitVec 48} (h : mget c.prog a = some v) :
    mget (c.learn words).prog a = some v := by
  suffices ∀ (l : List (Nat × Nat)) (m : Map (BitVec 48)), mget m a = some v → mget (l.foldl (fun m x =>
      let a := (c.pc + x.2) % 16384
      if mhas m a then m else mset m a (BitVec.ofNat 48 x.1)) m) a = some v from this _ _ h
  intro l
  induction l with
  | nil => exact fun _ h => h
  | cons x l ih =>
    intro m hm
    refine ih _ ?_
    dsimp only
    split
    · exact hm
    · rename_i hn
      rw [mget_mset_ne _ _ ?_, hm]
      rintro rfl
      simp [mhas, hm] at hn

/-- An instruction that executes, seen from before: its stores are made and its core retires it (R420, R421, R450). -/
theorem issue_some {t : Time} {b p k : Nat} {shape : Shape} {words : List Nat} {eff : Env → Option Eff} {s : State} {e : Eff}
    (h : Issues words b p k s) (he : eff ((s.advance t).env b p k) = some e) :
    Beyond b k e.stores s (issue t b p shape words eff s) ∧
      ∃ m n q, (issue t b p shape words eff s).core k = Core.retire words.length e
        ((e.stores.filter fun w => spaceOf w.1 w.2.1 == some 1).map fun w => (w.2.1 - 0x10000, w.2.2))
          { s.core k with xmem := m, ymem := n, prog := q } := by
  have h1 : issuing (s.advance t) b p = some k := h.executes
  have hc : (s.advance t).core k = s.core k := rfl
  have hs : ¬ (shape != .word && ((s.core k).delay.isSome || (s.core k).repeat_.isSome)) = true := by simp [h.straight]
  have hf : ¬ (!fetches (s.core k) words) = true := by simp [h.fetched]
  have hr : ¬ (s.core k).repeat_ = some 0 := by simp [h.straight]
  have henv : eff { s := s.advance t, b := b, p := p, c := s.core k, r := landAll (s.core k).later (s.core k).regs, free := (s.advance t).free } = some e := he
  unfold issue
  dsimp only
  rw [h1]
  dsimp only
  rw [hc, if_neg hf, if_neg hs, if_neg hr, henv, h.quiet]
  simp only [applyCtrl, List.foldl_nil]
  generalize hs1 : (if (s.core k).dma.any (·.busy) then { s.advance t with free := (s.advance t).free + 4 } else s.advance t) = s1
  have k1 : s1.core k = s.core k := by subst hs1; split <;> rfl
  have kk : ∀ j, s1.core j = s.core j := by subst hs1; intro j; split <;> rfl
  have kd : s1.rt.dsp = s.rt.dsp := by subst hs1; split <;> rfl
  have kt : s1.rt.test = s.rt.test := by subst hs1; split <;> rfl
  have ke : Elsewhere s s1 := by subst hs1; split <;> exact ⟨rfl, rfl, rfl, rfl, rfl, rfl, rfl⟩
  have st := stores_all b k e.stores s1
  generalize e.stores.foldl (fun s w => storeWord b k w s) s1 = s2 at st
  have h2 := st.self
  rw [k1] at h2
  refine ⟨⟨?_, ?_, ?_, fun a v hv => ?_, fun j hj => ?_, ?_, ?_, fun ht => ?_, fun hb => ?_⟩, (s2.core k).xmem, (s2.core k).ymem,
    ((s2.core k).learn words).prog, ?_⟩
  · rw [core_modCore_self, h2]; rfl
  · rw [core_modCore_self, h2]; rfl
  · rw [core_modCore_self, h2]; rfl
  · rw [core_modCore_self]
    exact mget_learn (by rw [h2]; exact hv)
  · rw [core_modCore_ne _ _ hj, st.cores j hj, kk]
  · have := (ke.trans st.elsewhere).trans (elsewhere_modCore k (fun c => Core.retire words.length e
      ((e.stores.filter fun w => spaceOf w.1 w.2.1 == some 1).map fun w => (w.2.1 - 0x10000, w.2.2)) (c.learn words)) s2)
    exact ⟨this.1, this.2, this.3, this.4, this.5, this.6, this.7⟩
  · rw [core_modCore_self]; rfl
  · have := st.shared (by rw [kt]; exact ht)
    rw [kt, kd] at this
    exact this
  · have := st.banks hb
    rw [kt, kd] at this
    exact this
  · rw [core_modCore_self]
    generalize s2.core k = c at h2 ⊢
    subst h2
    rfl

/-- A core in no delay slot and no repetition, after an instruction. -/
theorem retire_straight {n : Nat} {e : Eff} {l : List (Nat × Word24)} {c : Core} (h : c.delay = none ∧ c.repeat_ = none) :
    (Core.retire n e l c).pc = (c.pc + n) % 16384 ∧ (Core.retire n e l c).delay = e.branch.map (fun x => (2, x)) ∧
      (Core.retire n e l c).repeat_ = e.rep ∧ (Core.retire n e l c).late = e.writes := by
  simp only [Core.retire, h.1, h.2]
  cases e.rep <;> simp

/-- Its registers, where it does not decrement LC. -/
theorem retire_regs {n : Nat} {e : Eff} {l : List (Nat × Word24)} {c : Core} (h : e.lc = none) :
    (Core.retire n e l c).regs = c.after e.ptrs := by
  simp only [Core.retire, h]
  rfl

/-- A parallel word's statement, from what its operation writes. -/
theorem operates_of {row : Time → Fin 16 → Fin 9 → BitVec 41 → Instr} {op mask : Nat} {Q : Nat → Prop} {f : Env → Nat → Regs → Regs}
    {g : Env → Nat → Option Alu} (hrow : ∀ t b p w s, exec (row t b p w) s = issueParallel t b p op w (parallel mask g) s)
    (h : ∀ e w, Q w → ∃ a, g e w = some a ∧ ∀ r, landAll a.writes r = f e w r) : Operates row op mask Q f := by
  intro t b p w k m s hi hm hq hv
  obtain ⟨a, ha, hl⟩ := h ((s.advance t).env b.val p.val k) w.toNat hq
  have he : parallel mask g w ((s.advance t).env b.val p.val k) =
      some { m.2.2 with writes := m.2.2.writes ++ a.writes, forward := a.forward } := by
    simp only [parallel, hm, bne_self_eq_false, Bool.false_eq_true, ite_false, hv, ha]
  have hlc : m.2.2.lc = none ∧ m.2.2.branch = none ∧ m.2.2.rep = none := by
    simp only [Env.moves] at hv
    split at hv
    · split at hv
      · simp only [Option.some.injEq] at hv
        subst hv
        exact ⟨rfl, rfl, rfl⟩
      · exact nomatch hv
    · exact nomatch hv
  obtain ⟨hb, x, y, q, hc⟩ := issue_some (shape := .word) hi he
  refine ⟨_, by rw [hrow]; rfl, ?_, hb, ?_, ?_⟩
  · have := retire_straight (n := 1) (e := { m.2.2 with writes := m.2.2.writes ++ a.writes, forward := a.forward })
      (l := (m.2.2.stores.filter fun w => spaceOf w.1 w.2.1 == some 1).map fun w => (w.2.1 - 0x10000, w.2.2))
      (c := { s.core k with xmem := x, ymem := y, prog := q }) hi.straight
    rw [Core.goesTo, hc]
    exact ⟨this.1, by rw [List.length_singleton, this.2.1, hlc.2.1]; rfl, by rw [List.length_singleton, this.2.2.1, hlc.2.2]⟩
  · rw [hc]
    exact retire_regs hlc.1
  · have e2 : ∀ r, landAll (m.2.2.writes ++ a.writes) r = landAll a.writes (landAll m.2.2.writes r) := fun r => List.foldl_append ..
    have := retire_straight (n := 1) (e := { m.2.2 with writes := m.2.2.writes ++ a.writes, forward := a.forward })
      (l := (m.2.2.stores.filter fun w => spaceOf w.1 w.2.1 == some 1).map fun w => (w.2.1 - 0x10000, w.2.2))
      (c := { s.core k with xmem := x, ymem := y, prog := q }) hi.straight
    rw [Core.landed, hc, List.length_singleton, this.2.2.2, e2, hl]

/-- A general instruction's statement, from its effect. -/
theorem executes_of {row : Time → Fin 16 → Fin 9 → BitVec 40 → Instr} {op mask : Nat} {shape : Shape} {Q : Env → Nat → Prop}
    {st : Env → Nat → List (Bool × Nat × Word24)} {R : Env → Nat → Core → Core → Prop} {g : Env → Nat → Option Eff}
    (hrow : ∀ t b p w s, exec (row t b p w) s = issueGeneral t b p shape op w (general mask g) s)
    (h : ∀ e w, Q e w → w &&& mask = w → e.r = landAll e.c.later e.c.regs → e.c.delay = none ∧ e.c.repeat_ = none → ∃ x, g e w = some x ∧
      x.stores = st e w ∧ ∀ c d, c = e.c → d.pc = (c.pc + 1) % 16384 → d.delay = x.branch.map (fun x => (2, x)) → d.repeat_ = x.rep →
        d.late = x.writes →
        (d.regs = { landAll ((if x.lc.isSome then c.late.filter fun w => match w with
          | .lc _ => false
          | _ => true else c.late).filter fun w => !w.ptr) (landAll c.later (updatePointers x.ptrs c.regs)) with
          lc := x.lc.getD (landAll ((if x.lc.isSome then c.late.filter fun w => match w with
            | .lc _ => false
            | _ => true else c.late).filter fun w => !w.ptr) (landAll c.later (updatePointers x.ptrs c.regs))).lc }) → R e w c d) :
    Executes row op mask Q st R := by
  intro t b p w k s hi hm hq
  obtain ⟨x, hx, hs, hR⟩ := h _ _ hq hm rfl hi.straight
  have he : general mask g w ((s.advance t).env b.val p.val k) = some x := by
    simp only [general, hm, bne_self_eq_false, Bool.false_eq_true, ite_false, hx]
  obtain ⟨hb, a, y, q, hc⟩ := issue_some (shape := shape) hi he
  refine ⟨_, by rw [hrow]; rfl, hs ▸ hb, ?_⟩
  have := retire_straight (n := 1) (e := x)
      (l := (x.stores.filter fun w => spaceOf w.1 w.2.1 == some 1).map fun w => (w.2.1 - 0x10000, w.2.2))
      (c := { s.core k with xmem := a, ymem := y, prog := q }) hi.straight
  refine hR (s.core k) _ rfl ?_ ?_ ?_ ?_ ?_
  · rw [hc]; exact this.1
  · rw [hc]; exact this.2.1
  · rw [hc]; exact this.2.2.1
  · rw [hc]; exact this.2.2.2
  · rw [hc]; rfl

end Sys2Proof.Machine
end

