-- ==== Sys2Proof/Laws/Rows.lean ====
section
/-! SUPPORT. Each row keeps the queue, the life cycle, the fuses and the rollback counter, and canonical memories canonical; the four rows
that may change the life cycle, the fuses or the counter stand apart. -/

namespace Sys2Proof.Laws

open Sys2Proof.Machine

/-- What every row keeps: the queue, life cycle, fuses and rollback counter, and canonical memories canonical. -/
def Keeps (s t : State) : Prop := (keyOf t).held = (keyOf s).held ∧ ((keyOf s).mems.canon → (keyOf t).mems.canon)

theorem Keeps.of_kept {s t : State} (h : keyOf t = keyOf s) : Keeps s t := ⟨by rw [h], by rw [h]; exact id⟩

/-- A row keeps what its next state keeps. -/
def RowKeeps (f : State → Host.Outcome State Fault Refusal) : Prop := ∀ s t, f s = .next t → Keeps s t

theorem row_done {f : State → State} (h : ∀ s, Keeps s (f s)) : RowKeeps fun s => done (f s) := by
  intro s t e
  simp only [done, Host.Outcome.next.injEq] at e
  exact e ▸ h s

theorem row_cmd (c : Cmd) (r : Request) (h : ∀ r g s, Keeps s (c.run r g s).st) : RowKeeps (execCmd c r) := by
  intro s t e
  simp only [execCmd, Host.Outcome.next.injEq] at e
  subst e
  exact ⟨held_runCmd c r s fun r g s => (h r g s).1, canon_runCmd c r s fun r g s hs => (h r g s).2 hs⟩

theorem keeps_execPowerGood (t : Time) (mv : Nat) : RowKeeps (execPowerGood t mv) := by
  intro s t e
  unfold execPowerGood at e; dsimp only [done] at e
  (repeat' split at e) <;> (injection e with e; subst e; exact .of_kept (by simp))

theorem keeps_execDvfsTimeout (t : Time) : RowKeeps (execDvfsTimeout t) := by
  intro s t e
  unfold execDvfsTimeout at e; dsimp only [done] at e
  (repeat' split at e) <;> (injection e with e; subst e; exact .of_kept (by simp))

theorem keeps_execDomainWake (t : Time) (b : Fin 36) : RowKeeps (execDomainWake t b) := by
  intro s t e
  unfold execDomainWake at e; dsimp only [done] at e
  (repeat' split at e) <;> (injection e with e; subst e; exact .of_kept (by simp))

theorem keeps_execPwrStatus (r : Request) : RowKeeps (execPwrStatus r) := by
  refine row_cmd cmdPwrStatus r fun r g s => ?_
  exact .of_kept (by simp [cmdPwrStatus])

theorem keeps_execPwrSet (r : Request) : RowKeeps (execPwrSet r) := by
  refine row_cmd cmdPwrSet r fun r g s => ?_
  exact .of_kept (by simp [cmdPwrSet])

theorem keeps_execPwrQuery (r : Request) : RowKeeps (execPwrQuery r) := by
  refine row_cmd cmdPwrQuery r fun r g s => ?_
  exact .of_kept (by simp [cmdPwrQuery])

theorem keeps_execPwrThermalSet (r : Request) : RowKeeps (execPwrThermalSet r) := by
  refine row_cmd cmdPwrThermalSet r fun r g s => ?_
  exact .of_kept (by simp [cmdPwrThermalSet])

theorem keeps_execWorkItemEnqueue (t : Time) (e : Enqueue) : RowKeeps (execWorkItemEnqueue t e) := by
  intro s t e
  unfold execWorkItemEnqueue at e; dsimp only [done] at e
  (repeat' split at e) <;> (injection e with e; subst e; exact .of_kept (by simp))

theorem keeps_execEnqueueStallRelease (t : Time) : RowKeeps (execEnqueueStallRelease t) := by
  intro s t e
  unfold execEnqueueStallRelease at e; dsimp only [done] at e
  (repeat' split at e) <;> (injection e with e; subst e; exact .of_kept (by simp))

theorem keeps_execSpillBlock (t : Time) : RowKeeps (execSpillBlock t) := by
  intro s t e
  unfold execSpillBlock at e; dsimp only [done] at e
  (repeat' split at e) <;> (injection e with e; subst e; exact .of_kept (by simp))

theorem keeps_execRefillBlock (r : ReadBack) : RowKeeps (execRefillBlock r) := by
  intro s t e
  unfold execRefillBlock at e; dsimp only [done] at e
  (repeat' split at e) <;> (injection e with e; subst e; exact .of_kept (by simp))

theorem keeps_execSchedStatus (r : Request) : RowKeeps (execSchedStatus r) := by
  refine row_cmd cmdSchedStatus r fun r g s => ?_
  exact .of_kept (by simp [cmdSchedStatus])

theorem keeps_execSchedStats (r : Request) : RowKeeps (execSchedStats r) := by
  refine row_cmd cmdSchedStats r fun r g s => ?_
  exact .of_kept (by simp [cmdSchedStats])

theorem keeps_execSchedFlow (r : Request) : RowKeeps (execSchedFlow r) := by
  refine row_cmd cmdSchedFlow r fun r g s => ?_
  exact .of_kept (by simp [cmdSchedFlow])

theorem keeps_execSpareLoaded (t : Time) (b : Fin 16) : RowKeeps (execSpareLoaded t b) := by
  intro s t e
  unfold execSpareLoaded at e; dsimp only [done] at e
  (repeat' split at e) <;> (injection e with e; subst e; exact .of_kept (by simp))

theorem keeps_execSpareEntry (t : Time) (b : Fin 16) : RowKeeps (execSpareEntry t b) := by
  intro s t e
  unfold execSpareEntry at e; dsimp only [done] at e
  (repeat' split at e) <;> (injection e with e; subst e; exact .of_kept (by simp))

theorem keeps_execCoreSelftestEnd (t : Time) (b : Fin 30) (r : UnitTest) : RowKeeps (execCoreSelftestEnd t b r) := by
  intro s t e
  unfold execCoreSelftestEnd at e; dsimp only [done] at e
  (repeat' split at e) <;> (injection e with e; subst e; exact .of_kept (by simp))

theorem keeps_execCoreReturn (t : Time) (b : Fin 30) : RowKeeps (execCoreReturn t b) := by
  intro s t e
  unfold execCoreReturn at e; dsimp only [done] at e
  (repeat' split at e) <;> (injection e with e; subst e; exact .of_kept (by simp))

theorem keeps_execLoadShedStart (t : Time) (b : Fin 16) : RowKeeps (execLoadShedStart t b) := by
  intro s t e
  unfold execLoadShedStart at e; dsimp only [done] at e
  (repeat' split at e) <;> (injection e with e; subst e; exact .of_kept (by simp))

theorem keeps_execLoadShedEnd (t : Time) (b : Fin 16) : RowKeeps (execLoadShedEnd t b) := by
  intro s t e
  unfold execLoadShedEnd at e; dsimp only [done] at e
  (repeat' split at e) <;> (injection e with e; subst e; exact .of_kept (by simp))

theorem keeps_execMallowEngineFault (t : Time) (e : Fin 5) : RowKeeps (execMallowEngineFault t e) := by
  intro s t e
  unfold execMallowEngineFault at e; dsimp only [done] at e
  (repeat' split at e) <;> (injection e with e; subst e; exact .of_kept (by simp))

theorem keeps_execFaultStatus (r : Request) : RowKeeps (execFaultStatus r) := by
  refine row_cmd cmdFaultStatus r fun r g s => ?_
  exact .of_kept (by simp [cmdFaultStatus])

theorem keeps_execFaultStats (r : Request) : RowKeeps (execFaultStats r) := by
  refine row_cmd cmdFaultStats r fun r g s => ?_
  exact .of_kept (by simp [cmdFaultStats])

theorem keeps_execFaultInject (r : Request) : RowKeeps (execFaultInject r) := by
  refine row_cmd cmdFaultInject r fun r g s => ?_
  exact .of_kept (by simp [cmdFaultInject])

theorem keeps_execPcieConfigAccess (t : Time) (a : ConfigAccess) : RowKeeps (execPcieConfigAccess t a) := by
  intro s t e
  unfold execPcieConfigAccess at e; dsimp only [done] at e
  (repeat' split at e) <;> (injection e with e; subst e; exact .of_kept (by simp))

theorem keeps_execEventRingWrite (t : Time) : RowKeeps (execEventRingWrite t) := by
  intro s t e
  unfold execEventRingWrite at e; dsimp only [done] at e
  repeat' split at e
  all_goals
    injection e with e
    subst e
    refine ⟨by simp, fun h => ?_⟩
  all_goals first
    | (exact canon_ringWrite _ _ h; done)
    | (simpa using h)

theorem keeps_execEvqHoldoffExpiry (t : Time) : RowKeeps (execEvqHoldoffExpiry t) := by
  intro s t e
  unfold execEvqHoldoffExpiry at e; dsimp only [done] at e
  (repeat' split at e) <;> (injection e with e; subst e; exact .of_kept (by simp))

theorem keeps_execGraceKeyExpiry (t : Time) (slot : Nat) : RowKeeps (execGraceKeyExpiry t slot) := by
  intro s t e
  unfold execGraceKeyExpiry at e; dsimp only [done] at e
  (repeat' split at e) <;> (injection e with e; subst e; exact .of_kept (by simp))

theorem keeps_execKeySlotLost (t : Time) (e : SlotError) : RowKeeps (execKeySlotLost t e) := by
  intro s t e
  unfold execKeySlotLost at e; dsimp only [done] at e
  (repeat' split at e) <;> (injection e with e; subst e; exact .of_kept (by simp))

theorem keeps_execKeyCryptDone (r : CryptoRun) : RowKeeps (execKeyCryptDone r) := by
  intro s u e
  unfold execKeyCryptDone at e; dsimp only [done] at e
  split at e
  · split at e
    · generalize hy : runOn r.engine.val r.mismatch.val _ = y at e
      have k : keyOf y = keyOf s := by rw [← hy]; simp
      split at e
      · injection e with e; subst e; exact .of_kept (by simp [k])
      · split at e
        · injection e with e; subst e; exact .of_kept (by simp [k])
        · split at e
          · injection e with e; subst e; exact .of_kept (by simp [k])
          · generalize genericOp _ _ _ _ _ _ = g at e
            split at e
            · injection e with e; subst e; exact .of_kept (by simp [k])
            · split at e
              · injection e with e; subst e; exact .of_kept (by simp [k])
              · injection e with e; subst e
                rw [Keeps, kept_State_endPending, ← k]
                exact ⟨(rest_State_dramWrite _ _ _).1, fun h => canon_State_dramWrite _ _ _ h⟩
    · injection e with e; subst e; exact .of_kept (by simp)
  · injection e with e; subst e; exact .of_kept (by simp)

theorem keeps_execKeyStatus (r : Request) : RowKeeps (execKeyStatus r) := by
  refine row_cmd cmdKeyStatus r fun r g s => ?_
  exact .of_kept (by simp [cmdKeyStatus])

theorem keeps_execKeyInstall (r : Request) : RowKeeps (execKeyInstall r) := by
  refine row_cmd cmdKeyInstall r fun r g s => ?_
  exact .of_kept (by simp [cmdKeyInstall])

theorem keeps_execKeyErase (r : Request) : RowKeeps (execKeyErase r) := by
  refine row_cmd cmdKeyErase r fun r g s => ?_
  exact .of_kept (by simp [cmdKeyErase])

theorem keeps_execKeyQuery (r : Request) : RowKeeps (execKeyQuery r) := by
  refine row_cmd cmdKeyQuery r fun r g s => ?_
  exact .of_kept (by simp [cmdKeyQuery])

theorem keeps_execKeyBind (r : Request) : RowKeeps (execKeyBind r) := by
  refine row_cmd cmdKeyBind r fun r g s => ?_
  exact .of_kept (by simp [cmdKeyBind])

theorem keeps_execKeyDerive (r : Request) : RowKeeps (execKeyDerive r) := by
  refine row_cmd cmdKeyDerive r fun r g s => ?_
  exact .of_kept (by simp [cmdKeyDerive])

theorem keeps_execKeyCrypt (r : Request) : RowKeeps (execKeyCrypt r) := by
  refine row_cmd cmdKeyCrypt r fun r g s => ?_
  exact .of_kept (by simp [cmdKeyCrypt])

theorem keeps_execKeyQueues (r : Request) : RowKeeps (execKeyQueues r) := by
  refine row_cmd cmdKeyQueues r fun r g s => ?_
  exact .of_kept (by simp [cmdKeyQueues])

theorem keeps_execKeyStats (r : Request) : RowKeeps (execKeyStats r) := by
  refine row_cmd cmdKeyStats r fun r g s => ?_
  exact .of_kept (by simp [cmdKeyStats])

theorem keeps_execPageOperationDone (r : CryptoRun) (u : Fin 16) : RowKeeps (execPageOperationDone r u) := by
  intro s t e
  unfold execPageOperationDone at e; dsimp only [done] at e
  (repeat' split at e) <;> (injection e with e; subst e; exact .of_kept (by simp))

theorem keeps_execLegSet (r : Request) : RowKeeps (execLegSet r) := by
  refine row_cmd cmdLegSet r fun r g s => ?_
  exact .of_kept (by simp [cmdLegSet])

theorem keeps_execLegDelete (r : Request) : RowKeeps (execLegDelete r) := by
  refine row_cmd cmdLegDelete r fun r g s => ?_
  exact .of_kept (by simp [cmdLegDelete])

theorem keeps_execLegQuery (r : Request) : RowKeeps (execLegQuery r) := by
  refine row_cmd cmdLegQuery r fun r g s => ?_
  exact .of_kept (by simp [cmdLegQuery])

theorem keeps_execLegStats (r : Request) : RowKeeps (execLegStats r) := by
  refine row_cmd cmdLegStats r fun r g s => ?_
  exact .of_kept (by simp [cmdLegStats])

theorem keeps_execLegDetector (r : Request) : RowKeeps (execLegDetector r) := by
  refine row_cmd cmdLegDetector r fun r g s => ?_
  exact .of_kept (by simp [cmdLegDetector])

theorem keeps_execLegTonePlay (r : Request) : RowKeeps (execLegTonePlay r) := by
  refine row_cmd cmdLegTonePlay r fun r g s => ?_
  exact .of_kept (by simp [cmdLegTonePlay])

theorem keeps_execLegToneStop (r : Request) : RowKeeps (execLegToneStop r) := by
  refine row_cmd cmdLegToneStop r fun r g s => ?_
  exact .of_kept (by simp [cmdLegToneStop])

theorem keeps_execToneCommandTakeEffect (t : Time) (leg : Fin 8192) : RowKeeps (execToneCommandTakeEffect t leg) := by
  intro s t e
  unfold execToneCommandTakeEffect at e; dsimp only [done] at e
  (repeat' split at e) <;> (injection e with e; subst e; exact .of_kept (by simp))

theorem keeps_execLegToneDone (t : Time) (leg : Fin 8192) : RowKeeps (execLegToneDone t leg) := by
  intro s t e
  unfold execLegToneDone at e; dsimp only [done] at e
  (repeat' split at e) <;> (injection e with e; subst e; exact .of_kept (by simp))

theorem keeps_execLegRxPacket (t : Time) (leg : Fin 8192) : RowKeeps (execLegRxPacket t leg) := by
  intro s u e
  unfold execLegRxPacket at e; dsimp only [done] at e
  have k : keyOf (popInbox leg.val (s.advance t)).2 = keyOf s := by simp
  rcases hp : popInbox leg.val (s.advance t) with ⟨_ | ⟨a, f⟩, x⟩ <;> rw [hp] at e k <;> dsimp only at e k
  all_goals
    repeat' split at e
    all_goals (injection e with e; subst e; exact .of_kept (by first | exact k | (simp; done) | simp [k]))

theorem keeps_execLegMediaTimeout (t : Time) (leg : Fin 8192) : RowKeeps (execLegMediaTimeout t leg) := by
  intro s t e
  unfold execLegMediaTimeout at e; dsimp only [done] at e
  (repeat' split at e) <;> (injection e with e; subst e; exact .of_kept (by simp))

theorem keeps_execJbHeldDecay (t : Time) (leg : Fin 8192) : RowKeeps (execJbHeldDecay t leg) := by
  intro s t e
  unfold execJbHeldDecay at e; dsimp only [done] at e
  (repeat' split at e) <;> (injection e with e; subst e; exact .of_kept (by simp))

theorem keeps_execEcReenableExpiry (t : Time) (leg : Fin 8192) : RowKeeps (execEcReenableExpiry t leg) := by
  intro s t e
  unfold execEcReenableExpiry at e; dsimp only [done] at e
  (repeat' split at e) <;> (injection e with e; subst e; exact .of_kept (by simp))

theorem keeps_execJbDelayStep (t : Time) (leg : Fin 8192) : RowKeeps (execJbDelayStep t leg) := by
  intro s t e
  unfold execJbDelayStep at e; dsimp only [done] at e
  (repeat' split at e) <;> (injection e with e; subst e; exact .of_kept (by simp))

theorem keeps_execLegItem (t : Time) (x : LegTick) : RowKeeps (execLegItem t x) := by
  intro s t e
  unfold execLegItem at e; dsimp only [done] at e
  (repeat' split at e) <;> (injection e with e; subst e; exact .of_kept (by simp))

theorem keeps_execConfSet (r : Request) : RowKeeps (execConfSet r) := by
  refine row_cmd cmdConfSet r fun r g s => ?_
  exact .of_kept (by simp [cmdConfSet])

theorem keeps_execConfDelete (r : Request) : RowKeeps (execConfDelete r) := by
  refine row_cmd cmdConfDelete r fun r g s => ?_
  exact .of_kept (by simp [cmdConfDelete])

theorem keeps_execConfQuery (r : Request) : RowKeeps (execConfQuery r) := by
  refine row_cmd cmdConfQuery r fun r g s => ?_
  exact .of_kept (by simp [cmdConfQuery])

theorem keeps_execConfMember (r : Request) : RowKeeps (execConfMember r) := by
  refine row_cmd cmdConfMember r fun r g s => ?_
  exact .of_kept (by simp [cmdConfMember])

theorem keeps_execConfRemove (r : Request) : RowKeeps (execConfRemove r) := by
  refine row_cmd cmdConfRemove r fun r g s => ?_
  exact .of_kept (by simp [cmdConfRemove])

theorem keeps_execConfMembers (r : Request) : RowKeeps (execConfMembers r) := by
  refine row_cmd cmdConfMembers r fun r g s => ?_
  exact .of_kept (by simp [cmdConfMembers])

theorem keeps_execConfStatus (r : Request) : RowKeeps (execConfStatus r) := by
  refine row_cmd cmdConfStatus r fun r g s => ?_
  exact .of_kept (by simp [cmdConfStatus])

theorem keeps_execRouteSet (r : Request) : RowKeeps (execRouteSet r) := by
  refine row_cmd cmdRouteSet r fun r g s => ?_
  exact .of_kept (by simp [cmdRouteSet])

theorem keeps_execRouteDelete (r : Request) : RowKeeps (execRouteDelete r) := by
  refine row_cmd cmdRouteDelete r fun r g s => ?_
  exact .of_kept (by simp [cmdRouteDelete])

theorem keeps_execRouteList (r : Request) : RowKeeps (execRouteList r) := by
  refine row_cmd cmdRouteList r fun r g s => ?_
  exact .of_kept (by simp [cmdRouteList])

theorem keeps_execRouteSapSet (r : Request) : RowKeeps (execRouteSapSet r) := by
  refine row_cmd cmdRouteSapSet r fun r g s => ?_
  exact .of_kept (by simp [cmdRouteSapSet])

theorem keeps_execRouteSapQuery (r : Request) : RowKeeps (execRouteSapQuery r) := by
  refine row_cmd cmdRouteSapQuery r fun r g s => ?_
  exact .of_kept (by simp [cmdRouteSapQuery])

theorem keeps_execSapStop (t : Time) (p : Fin 4) : RowKeeps (execSapStop t p) := by
  intro s t e
  unfold execSapStop at e; dsimp only [done] at e
  (repeat' split at e) <;> (injection e with e; subst e; exact .of_kept (by simp))

theorem keeps_execSapRestart (t : Time) (p : Fin 4) : RowKeeps (execSapRestart t p) := by
  intro s t e
  unfold execSapRestart at e; dsimp only [done] at e
  (repeat' split at e) <;> (injection e with e; subst e; exact .of_kept (by simp))

theorem keeps_execConfItem (t : Time) (conf : Fin 2048) : RowKeeps (execConfItem t conf) := by
  intro s t e
  unfold execConfItem at e; dsimp only [done] at e
  (repeat' split at e) <;> (injection e with e; subst e; exact .of_kept (by simp))

theorem keeps_execTimeStatus (r : Request) : RowKeeps (execTimeStatus r) := by
  refine row_cmd cmdTimeStatus r fun r g s => ?_
  exact .of_kept (by simp [cmdTimeStatus])

theorem keeps_execTimeSet (r : Request) : RowKeeps (execTimeSet r) := by
  refine row_cmd cmdTimeSet r fun r g s => ?_
  unfold cmdTimeSet; dsimp only
  split
  · exact ⟨by simp, fun h => by simpa using canon_stepCounter _ _ _ h⟩
  · exact ⟨by simp, fun h => by simpa using canon_stepCounter _ _ _ h⟩
  · exact .of_kept (by simp)

theorem keeps_execTimeAdjust (r : Request) : RowKeeps (execTimeAdjust r) := by
  refine row_cmd cmdTimeAdjust r fun r g s => ?_
  exact .of_kept (by simp [cmdTimeAdjust])

theorem keeps_execTimeServoSet (r : Request) : RowKeeps (execTimeServoSet r) := by
  refine row_cmd cmdTimeServoSet r fun r g s => ?_
  exact .of_kept (by simp [cmdTimeServoSet])

theorem keeps_execTimePinsSet (r : Request) : RowKeeps (execTimePinsSet r) := by
  refine row_cmd cmdTimePinsSet r fun r g s => ?_
  exact .of_kept (by simp [cmdTimePinsSet])

theorem keeps_execTimeLaunchSet (r : Request) : RowKeeps (execTimeLaunchSet r) := by
  refine row_cmd cmdTimeLaunchSet r fun r g s => ?_
  exact .of_kept (by simp [cmdTimeLaunchSet])

theorem keeps_execTimeStats (r : Request) : RowKeeps (execTimeStats r) := by
  refine row_cmd cmdTimeStats r fun r g s => ?_
  exact .of_kept (by simp [cmdTimeStats])

theorem keeps_execTimeSetArmedApply  : RowKeeps (execTimeSetArmedApply ) := by
  intro s t e
  unfold execTimeSetArmedApply at e; dsimp only [done] at e
  repeat' split at e
  all_goals
    injection e with e
    subst e
    refine ⟨by simp, fun h => ?_⟩
  all_goals first
    | (rw [kept_setUtc]; refine canon_stepCounter _ _ _ ?_; simpa using h)
    | (simpa using h)

theorem keeps_execSlewEnd (t : Time) : RowKeeps (execSlewEnd t) := by
  intro s t e
  unfold execSlewEnd at e; dsimp only [done] at e
  (repeat' split at e) <;> (injection e with e; subst e; exact .of_kept (by simp))

theorem keeps_execPpsInEdge (t : Time) (rising : Bool) : RowKeeps (execPpsInEdge t rising) := by
  intro s t e
  unfold execPpsInEdge at e; dsimp only [done] at e
  repeat' split at e
  all_goals
    injection e with e
    subst e
    refine ⟨by simp, fun h => ?_⟩
  all_goals first
    | (with_reducible refine canon_phaseMeasure _ _ ?_; simpa using h)
    | (simpa using h)

theorem keeps_execPtpMeasurement (t : Time) (m : PtpOffset) : RowKeeps (execPtpMeasurement t m) := by
  intro s t e
  unfold execPtpMeasurement at e; dsimp only [done] at e
  repeat' split at e
  all_goals
    injection e with e
    subst e
    refine ⟨by simp, fun h => ?_⟩
  all_goals first
    | (with_reducible refine canon_phaseMeasure _ _ ?_; simpa using h)
    | (simpa using h)

theorem keeps_execFreqMeasurement (t : Time) (f : Rat) : RowKeeps (execFreqMeasurement t f) := by
  intro s t e
  unfold execFreqMeasurement at e; dsimp only [done] at e
  (repeat' split at e) <;> (injection e with e; subst e; exact .of_kept (by simp))

theorem keeps_execPpsInLost (t : Time) : RowKeeps (execPpsInLost t) := by
  intro s t e
  unfold execPpsInLost at e; dsimp only [done] at e
  (repeat' split at e) <;> (injection e with e; subst e; exact .of_kept (by simp))

theorem keeps_execPtpSourceLost (t : Time) : RowKeeps (execPtpSourceLost t) := by
  intro s t e
  unfold execPtpSourceLost at e; dsimp only [done] at e
  (repeat' split at e) <;> (injection e with e; subst e; exact .of_kept (by simp))

theorem keeps_execHoldoverLimitExpiry (t : Time) : RowKeeps (execHoldoverLimitExpiry t) := by
  intro s t e
  unfold execHoldoverLimitExpiry at e; dsimp only [done] at e
  (repeat' split at e) <;> (injection e with e; subst e; exact .of_kept (by simp))

theorem keeps_execPpsOutPulse (t : Time) : RowKeeps (execPpsOutPulse t) := by
  intro s t e
  unfold execPpsOutPulse at e; dsimp only [done] at e
  (repeat' split at e) <;> (injection e with e; subst e; exact .of_kept (by simp))

theorem keeps_execPpsOutPulseEnd (t : Time) : RowKeeps (execPpsOutPulseEnd t) := by
  intro s t e
  unfold execPpsOutPulseEnd at e; dsimp only [done] at e
  (repeat' split at e) <;> (injection e with e; subst e; exact .of_kept (by simp))

theorem keeps_execTimedQueueEnqueue (t : Time) (port : Fin 4) (f : TimedFrame) : RowKeeps (execTimedQueueEnqueue t port f) := by
  intro s t e
  unfold execTimedQueueEnqueue at e; dsimp only [done] at e
  (repeat' split at e) <;> (injection e with e; subst e; exact .of_kept (by simp))

theorem keeps_execPtpMessageReceive (t : Time) (m : PtpMessage) : RowKeeps (execPtpMessageReceive t m) := by
  intro s t e
  unfold execPtpMessageReceive at e; dsimp only [done] at e
  (repeat' split at e) <;> (injection e with e; subst e; exact .of_kept (by simp))

theorem keeps_execPtpMessageSend (t : Time) (m : PtpMessage) : RowKeeps (execPtpMessageSend t m) := by
  intro s t e
  unfold execPtpMessageSend at e; dsimp only [done] at e
  (repeat' split at e) <;> (injection e with e; subst e; exact .of_kept (by simp))

theorem keeps_execNetPortSet (r : Request) : RowKeeps (execNetPortSet r) := by
  refine row_cmd cmdNetPortSet r fun r g s => ?_
  exact .of_kept (by simp [cmdNetPortSet])

theorem keeps_execNetPairSet (r : Request) : RowKeeps (execNetPairSet r) := by
  refine row_cmd cmdNetPairSet r fun r g s => ?_
  exact .of_kept (by simp [cmdNetPairSet])

theorem keeps_execNetClassSet (r : Request) : RowKeeps (execNetClassSet r) := by
  refine row_cmd cmdNetClassSet r fun r g s => ?_
  exact .of_kept (by simp [cmdNetClassSet])

theorem keeps_execNetQuery (r : Request) : RowKeeps (execNetQuery r) := by
  refine row_cmd cmdNetQuery r fun r g s => ?_
  refine .of_kept ?_
  unfold cmdNetQuery; dsimp only
  split <;> rfl

theorem keeps_execNetTsRead (r : Request) : RowKeeps (execNetTsRead r) := by
  refine row_cmd cmdNetTsRead r fun r g s => ?_
  exact .of_kept (by simp [cmdNetTsRead])

theorem keeps_execNetSynceSet (r : Request) : RowKeeps (execNetSynceSet r) := by
  refine row_cmd cmdNetSynceSet r fun r g s => ?_
  exact .of_kept (by simp [cmdNetSynceSet])

theorem keeps_execNetStats (r : Request) : RowKeeps (execNetStats r) := by
  refine row_cmd cmdNetStats r fun r g s => ?_
  exact .of_kept (by simp [cmdNetStats])

theorem keeps_execTimePtpSet (r : Request) : RowKeeps (execTimePtpSet r) := by
  refine row_cmd cmdTimePtpSet r fun r g s => ?_
  exact .of_kept (by simp [cmdTimePtpSet])

theorem keeps_execLinkLoss (t : Time) (p cause : Fin 4) : RowKeeps (execLinkLoss t p cause) := by
  intro s t e
  unfold execLinkLoss at e; dsimp only [done] at e
  (repeat' split at e) <;> (injection e with e; subst e; exact .of_kept (by simp))

theorem keeps_execLinkUpHoldExpiry (t : Time) (p : Fin 4) : RowKeeps (execLinkUpHoldExpiry t p) := by
  intro s t e
  unfold execLinkUpHoldExpiry at e; dsimp only [done] at e
  (repeat' split at e) <;> (injection e with e; subst e; exact .of_kept (by simp))

theorem keeps_execPortSettingApply (t : Time) : RowKeeps (execPortSettingApply t) := by
  intro s t e
  unfold execPortSettingApply at e; dsimp only [done] at e
  (repeat' split at e) <;> (injection e with e; subst e; exact .of_kept (by simp))

theorem keeps_execSupervisionFrameSend (t : Time) (i : Fin 2) : RowKeeps (execSupervisionFrameSend t i) := by
  intro s t e
  unfold execSupervisionFrameSend at e; dsimp only [done] at e
  (repeat' split at e) <;> (injection e with e; subst e; exact .of_kept (by simp))

theorem keeps_execNodeEntryAgeOut (t : Time) : RowKeeps (execNodeEntryAgeOut t) := by
  intro s t e
  unfold execNodeEntryAgeOut at e; dsimp only [done] at e
  (repeat' split at e) <;> (injection e with e; subst e; exact .of_kept (by simp))

theorem keeps_execNetLanFault (t : Time) (p : Fin 4) : RowKeeps (execNetLanFault t p) := by
  intro s t e
  unfold execNetLanFault at e; dsimp only [done] at e
  (repeat' split at e) <;> (injection e with e; subst e; exact .of_kept (by simp))

theorem keeps_execNetRingOpen (t : Time) (i : Fin 2) : RowKeeps (execNetRingOpen t i) := by
  intro s t e
  unfold execNetRingOpen at e; dsimp only [done] at e
  (repeat' split at e) <;> (injection e with e; subst e; exact .of_kept (by simp))

theorem keeps_execEthFrameReceive (t : Time) (port : Fin 4) (f : Frame) (fec : Fin 3) : RowKeeps (execEthFrameReceive t port f fec) := by
  intro s t e
  unfold execEthFrameReceive at e; dsimp only [done] at e
  (repeat' split at e) <;> (injection e with e; subst e; exact .of_kept (by simp))

theorem keeps_execTimedLaunch (t : Time) (port : Fin 4) : RowKeeps (execTimedLaunch t port) := by
  intro s t e
  unfold execTimedLaunch at e; dsimp only [done] at e
  (repeat' split at e) <;> (injection e with e; subst e; exact .of_kept (by simp))

theorem keeps_execPortTransmit (t : Time) (port : Fin 4) : RowKeeps (execPortTransmit t port) := by
  intro s u e
  unfold execPortTransmit at e; dsimp only [done] at e
  have k : ∀ x, keyOf (execPortTransmit.wfqSend port.val x) = keyOf x := by
    intro x
    unfold execPortTransmit.wfqSend
    rcases hw : wfqNext port.val (wfqCount x port.val) x with ⟨y, o⟩
    have ky : keyOf y = keyOf x := by
      have := kept_wfqNext port.val (wfqCount x port.val) x
      rwa [hw] at this
    split
    · cases o <;> simp [ky]
    · split <;> simp
  repeat' split at e
  all_goals (injection e with e; subst e; exact .of_kept (by simp [k]))

theorem keeps_execPolicerInterval (t : Time) : RowKeeps (execPolicerInterval t) := by
  intro s t e
  unfold execPolicerInterval at e; dsimp only [done] at e
  (repeat' split at e) <;> (injection e with e; subst e; exact .of_kept (by simp))

theorem keeps_execFwdSourceTimeout (t : Time) (v : Fin 4096) : RowKeeps (execFwdSourceTimeout t v) := by
  intro s t e
  unfold execFwdSourceTimeout at e; dsimp only [done] at e
  (repeat' split at e) <;> (injection e with e; subst e; exact .of_kept (by simp))

theorem keeps_execRateWindow (t : Time) : RowKeeps (execRateWindow t) := by
  intro s t e
  unfold execRateWindow at e; dsimp only [done] at e
  (repeat' split at e) <;> (injection e with e; subst e; exact .of_kept (by simp))

theorem keeps_execTmmbrReceive (t : Time) (n : Fin 32768) (owner : BitVec 32) (bps : Nat) : RowKeeps (execTmmbrReceive t n owner bps) := by
  intro s t e
  unfold execTmmbrReceive at e; dsimp only [done] at e
  (repeat' split at e) <;> (injection e with e; subst e; exact .of_kept (by simp))

theorem keeps_execKeyWaitExpiry (t : Time) (n : Fin 32768) : RowKeeps (execKeyWaitExpiry t n) := by
  intro s t e
  unfold execKeyWaitExpiry at e; dsimp only [done] at e
  (repeat' split at e) <;> (injection e with e; subst e; exact .of_kept (by simp))

theorem keeps_execRelayKeyIntervalEnd (t : Time) (v : Fin 4096) : RowKeeps (execRelayKeyIntervalEnd t v) := by
  intro s t e
  unfold execRelayKeyIntervalEnd at e; dsimp only [done] at e
  (repeat' split at e) <;> (injection e with e; subst e; exact .of_kept (by simp))

theorem keeps_execShaperRelease (t : Time) (leg : Fin 8192) : RowKeeps (execShaperRelease t leg) := by
  intro s t e
  unfold execShaperRelease at e; dsimp only [done] at e
  (repeat' split at e) <;> (injection e with e; subst e; exact .of_kept (by simp))

theorem keeps_execSorrelEccError (t : Time) (e : SorrelError) : RowKeeps (execSorrelEccError t e) := by
  intro s t e
  unfold execSorrelEccError at e; dsimp only [done] at e
  (repeat' split at e) <;> (injection e with e; subst e; exact .of_kept (by simp))

theorem keeps_execFwdRelaySet (r : Request) : RowKeeps (execFwdRelaySet r) := by
  refine row_cmd cmdFwdRelaySet r fun r g s => ?_
  exact .of_kept (by simp [cmdFwdRelaySet])

theorem keeps_execFwdSubSet (r : Request) : RowKeeps (execFwdSubSet r) := by
  refine row_cmd cmdFwdSubSet r fun r g s => ?_
  exact .of_kept (by simp [cmdFwdSubSet])

theorem keeps_execFwdLineSet (r : Request) : RowKeeps (execFwdLineSet r) := by
  refine row_cmd cmdFwdLineSet r fun r g s => ?_
  exact .of_kept (by simp [cmdFwdLineSet])

theorem keeps_execFwdPolicerSet (r : Request) : RowKeeps (execFwdPolicerSet r) := by
  refine row_cmd cmdFwdPolicerSet r fun r g s => ?_
  exact .of_kept (by simp [cmdFwdPolicerSet])

theorem keeps_execFwdQueueSet (r : Request) : RowKeeps (execFwdQueueSet r) := by
  refine row_cmd cmdFwdQueueSet r fun r g s => ?_
  exact .of_kept (by simp [cmdFwdQueueSet])

theorem keeps_execFwdColourMap (r : Request) : RowKeeps (execFwdColourMap r) := by
  refine row_cmd cmdFwdColourMap r fun r g s => ?_
  exact .of_kept (by simp [cmdFwdColourMap])

theorem keeps_execFwdDelete (r : Request) : RowKeeps (execFwdDelete r) := by
  refine row_cmd cmdFwdDelete r fun r g s => ?_
  exact .of_kept (by simp [cmdFwdDelete])

theorem keeps_execFwdQuery (r : Request) : RowKeeps (execFwdQuery r) := by
  refine row_cmd cmdFwdQuery r fun r g s => ?_
  exact .of_kept (by simp [cmdFwdQuery])

theorem keeps_execFwdSubStats (r : Request) : RowKeeps (execFwdSubStats r) := by
  refine row_cmd cmdFwdSubStats r fun r g s => ?_
  exact .of_kept (by simp [cmdFwdSubStats])

theorem keeps_execFwdPortStats (r : Request) : RowKeeps (execFwdPortStats r) := by
  refine row_cmd cmdFwdPortStats r fun r g s => ?_
  exact .of_kept (by simp [cmdFwdPortStats])

theorem keeps_execKeyIntervalEnd (t : Time) (v : Fin 4096) : RowKeeps (execKeyIntervalEnd t v) := by
  intro s t e
  unfold execKeyIntervalEnd at e; dsimp only [done] at e
  (repeat' split at e) <;> (injection e with e; subst e; exact .of_kept (by simp))

theorem keeps_execVidGrabDone (t : Time) (slot : Fin 64) : RowKeeps (execVidGrabDone t slot) := by
  intro s t e
  unfold execVidGrabDone at e; dsimp only [done] at e
  repeat' split at e
  all_goals
    injection e with e
    subst e
    refine ⟨by simp, fun h => ?_⟩
  all_goals first
    | (rw [kept_State_endPending]; refine canon_modDram ?_ fun hm => memWrite_wf _ _ hm; simpa using h)
    | (simpa using h)

theorem keeps_execVidSet (r : Request) : RowKeeps (execVidSet r) := by
  refine row_cmd cmdVidSet r fun r g s => ?_
  exact .of_kept (by simp [cmdVidSet])

theorem keeps_execVidDelete (r : Request) : RowKeeps (execVidDelete r) := by
  refine row_cmd cmdVidDelete r fun r g s => ?_
  exact .of_kept (by simp [cmdVidDelete])

theorem keeps_execVidQuery (r : Request) : RowKeeps (execVidQuery r) := by
  refine row_cmd cmdVidQuery r fun r g s => ?_
  exact .of_kept (by simp [cmdVidQuery])

theorem keeps_execVidStats (r : Request) : RowKeeps (execVidStats r) := by
  refine row_cmd cmdVidStats r fun r g s => ?_
  exact .of_kept (by simp [cmdVidStats])

theorem keeps_execVidKeyframe (r : Request) : RowKeeps (execVidKeyframe r) := by
  refine row_cmd cmdVidKeyframe r fun r g s => ?_
  exact .of_kept (by simp [cmdVidKeyframe])

theorem keeps_execVidParamsets (r : Request) : RowKeeps (execVidParamsets r) := by
  refine row_cmd cmdVidParamsets r fun r g s => ?_
  exact .of_kept (by simp [cmdVidParamsets])

theorem keeps_execVidGrab (r : Request) : RowKeeps (execVidGrab r) := by
  refine row_cmd cmdVidGrab r fun r g s => ?_
  exact .of_kept (by simp [cmdVidGrab])

theorem keeps_execVideoRtpReceive (t : Time) (v : Fin 4096) : RowKeeps (execVideoRtpReceive t v) := by
  intro s u e
  unfold execVideoRtpReceive at e; dsimp only [done] at e
  have k : keyOf (popInbox (0x3000 + v.val) (s.advance t)).2 = keyOf s := by simp
  rcases hp : popInbox (0x3000 + v.val) (s.advance t) with ⟨_ | ⟨a, f⟩, x⟩ <;> rw [hp] at e k <;> dsimp only at e k
  all_goals
    repeat' split at e
    all_goals (injection e with e; subst e; exact .of_kept (by first | exact k | (simp; done) | simp [k]))

theorem keeps_execAssembleTimeout (t : Time) (v : Fin 4096) : RowKeeps (execAssembleTimeout t v) := by
  intro s t e
  unfold execAssembleTimeout at e; dsimp only [done] at e
  (repeat' split at e) <;> (injection e with e; subst e; exact .of_kept (by simp))

theorem keeps_execVidMediaTimeout (t : Time) (v : Fin 4096) : RowKeeps (execVidMediaTimeout t v) := by
  intro s t e
  unfold execVidMediaTimeout at e; dsimp only [done] at e
  (repeat' split at e) <;> (injection e with e; subst e; exact .of_kept (by simp))

theorem keeps_execVideoDecodePicture (t : Time) (v : Fin 4096) (d : DecodeResult) : RowKeeps (execVideoDecodePicture t v d) := by
  intro s t e
  unfold execVideoDecodePicture at e; dsimp only [done] at e
  (repeat' split at e) <;> (injection e with e; subst e; exact .of_kept (by simp))

theorem keeps_execEncodePictureStart (t : Time) (v : Fin 4096) : RowKeeps (execEncodePictureStart t v) := by
  intro s t e
  unfold execEncodePictureStart at e; dsimp only [done] at e
  (repeat' split at e) <;> (injection e with e; subst e; exact .of_kept (by simp))

theorem keeps_execVideoEncodeSlice (t : Time) (v : Fin 4096) (c : SliceCode) : RowKeeps (execVideoEncodeSlice t v c) := by
  intro s t e
  unfold execVideoEncodeSlice at e; dsimp only [done] at e
  (repeat' split at e) <;> (injection e with e; subst e; exact .of_kept (by simp))

theorem keeps_execLayoutImageDone (t : Time) (layout : Fin 256) (layer : Fin 8) (slot : Fin 2) : RowKeeps (execLayoutImageDone t layout layer slot) := by
  intro s t e
  unfold execLayoutImageDone at e; dsimp only [done] at e
  (repeat' split at e) <;> (injection e with e; subst e; exact .of_kept (by simp))

theorem keeps_execComposeFrameStart (t : Time) (o : Fin 64) : RowKeeps (execComposeFrameStart t o) := by
  intro s t e
  unfold execComposeFrameStart at e; dsimp only [done] at e
  (repeat' split at e) <;> (injection e with e; subst e; exact .of_kept (by simp))

theorem keeps_execComposeFrameComplete (t : Time) (f : FrameEnd) : RowKeeps (execComposeFrameComplete t f) := by
  intro s t e
  unfold execComposeFrameComplete at e; dsimp only [done] at e
  (repeat' split at e) <;> (injection e with e; subst e; exact .of_kept (by simp))

theorem keeps_execLayoutFlatten (t : Time) (layout : Fin 256) : RowKeeps (execLayoutFlatten t layout) := by
  intro s t e
  unfold execLayoutFlatten at e; dsimp only [done] at e
  (repeat' split at e) <;> (injection e with e; subst e; exact .of_kept (by simp))

theorem keeps_execLayoutSet (r : Request) : RowKeeps (execLayoutSet r) := by
  refine row_cmd cmdLayoutSet r fun r g s => ?_
  exact .of_kept (by simp [cmdLayoutSet])

theorem keeps_execLayoutLayer (r : Request) : RowKeeps (execLayoutLayer r) := by
  refine row_cmd cmdLayoutLayer r fun r g s => ?_
  exact .of_kept (by simp [cmdLayoutLayer])

theorem keeps_execLayoutImage (r : Request) : RowKeeps (execLayoutImage r) := by
  refine row_cmd cmdLayoutImage r fun r g s => ?_
  exact .of_kept (by simp [cmdLayoutImage])

theorem keeps_execLayoutScaler (r : Request) : RowKeeps (execLayoutScaler r) := by
  refine row_cmd cmdLayoutScaler r fun r g s => ?_
  exact .of_kept (by simp [cmdLayoutScaler])

theorem keeps_execLayoutGamma (r : Request) : RowKeeps (execLayoutGamma r) := by
  refine row_cmd cmdLayoutGamma r fun r g s => ?_
  exact .of_kept (by simp [cmdLayoutGamma])

theorem keeps_execLayoutDelete (r : Request) : RowKeeps (execLayoutDelete r) := by
  refine row_cmd cmdLayoutDelete r fun r g s => ?_
  exact .of_kept (by simp [cmdLayoutDelete])

theorem keeps_execLayoutQuery (r : Request) : RowKeeps (execLayoutQuery r) := by
  refine row_cmd cmdLayoutQuery r fun r g s => ?_
  exact .of_kept (by simp [cmdLayoutQuery])

theorem keeps_execOutSet (r : Request) : RowKeeps (execOutSet r) := by
  refine row_cmd cmdOutSet r fun r g s => ?_
  exact .of_kept (by simp [cmdOutSet])

theorem keeps_execOutRegion (r : Request) : RowKeeps (execOutRegion r) := by
  refine row_cmd cmdOutRegion r fun r g s => ?_
  exact .of_kept (by simp [cmdOutRegion])

theorem keeps_execOutDelete (r : Request) : RowKeeps (execOutDelete r) := by
  refine row_cmd cmdOutDelete r fun r g s => ?_
  exact .of_kept (by simp [cmdOutDelete])

theorem keeps_execOutQuery (r : Request) : RowKeeps (execOutQuery r) := by
  refine row_cmd cmdOutQuery r fun r g s => ?_
  exact .of_kept (by simp [cmdOutQuery])

theorem keeps_execOutStats (r : Request) : RowKeeps (execOutStats r) := by
  refine row_cmd cmdOutStats r fun r g s => ?_
  exact .of_kept (by simp [cmdOutStats])

theorem keeps_execOutSignatures (r : Request) : RowKeeps (execOutSignatures r) := by
  refine row_cmd cmdOutSignatures r fun r g s => ?_
  exact .of_kept (by simp [cmdOutSignatures])

theorem keeps_execRecordArrive (t : Time) : RowKeeps (execRecordArrive t) := by
  intro s t e
  unfold execRecordArrive at e; dsimp only [done] at e
  repeat' split at e
  all_goals
    injection e with e
    subst e
    refine ⟨by simp, fun h => ?_⟩
    try split
  all_goals first
    | (with_reducible refine canon_takeRecord _ _ ?_; simpa using h)
    | (simpa using h)

theorem keeps_execRecClearApply (t : Time) : RowKeeps (execRecClearApply t) := by
  intro s t e
  unfold execRecClearApply at e; dsimp only [done] at e
  (repeat' split at e) <;> (injection e with e; subst e; exact .of_kept (by simp))

theorem keeps_execSegmentOpen (t : Time) : RowKeeps (execSegmentOpen t) := by
  intro s t e
  unfold execSegmentOpen at e; dsimp only [done] at e
  repeat' split at e
  all_goals
    injection e with e
    subst e
    refine ⟨by simp, fun h => ?_⟩
  all_goals first
    | (with_reducible refine canon_openRecSegment _ _ ?_; simpa using h)
    | (simpa using h)

theorem keeps_execSegmentSeal (r : CryptoRun) : RowKeeps (execSegmentSeal r) := by
  intro s t e
  unfold execSegmentSeal at e; dsimp only [done] at e
  repeat' split at e
  all_goals
    injection e with e
    subst e
    refine ⟨by simp, fun h => ?_⟩
  all_goals first
    | (with_reducible refine canon_sealCurrent _ _ ?_; simpa using h)
    | (simpa using h)

theorem keeps_execRecReadDone (t : Time) (slot : Fin 64) (failed : Bool) : RowKeeps (execRecReadDone t slot failed) := by
  intro s u e
  unfold execRecReadDone at e; dsimp only [done] at e
  split at e
  · generalize hm : recErrors _ _ _ = m at e
    have k : keyOf m.2 = keyOf s := by rw [← hm]; simp
    split at e
    · injection e with e; subst e; exact .of_kept (by simp [k])
    · injection e with e; subst e
      rw [Keeps, kept_State_endPending, held_host, k]
      refine ⟨rfl, fun h => ?_⟩
      rw [← k] at h
      exact canon_host _ h (memWrite_wf _ _ h.2.1)
  · injection e with e; subst e; exact .of_kept (by simp)

theorem keeps_execRecVerifyDone (t : Time) (slot : Fin 64) : RowKeeps (execRecVerifyDone t slot) := by
  intro s t e
  unfold execRecVerifyDone at e; dsimp only [done] at e
  (repeat' split at e) <;> (injection e with e; subst e; exact .of_kept (by simp))

theorem keeps_execRecConfig (r : Request) : RowKeeps (execRecConfig r) := by
  refine row_cmd cmdRecConfig r fun r g s => ?_
  exact .of_kept (by simp [cmdRecConfig])

theorem keeps_execRecSelect (r : Request) : RowKeeps (execRecSelect r) := by
  refine row_cmd cmdRecSelect r fun r g s => ?_
  exact .of_kept (by simp [cmdRecSelect])

theorem keeps_execRecQuery (r : Request) : RowKeeps (execRecQuery r) := by
  refine row_cmd cmdRecQuery r fun r g s => ?_
  exact .of_kept (by simp [cmdRecQuery])

theorem keeps_execRecStatus (r : Request) : RowKeeps (execRecStatus r) := by
  refine row_cmd cmdRecStatus r fun r g s => ?_
  exact .of_kept (by simp [cmdRecStatus])

theorem keeps_execRecRead (r : Request) : RowKeeps (execRecRead r) := by
  refine row_cmd cmdRecRead r fun r g s => ?_
  exact .of_kept (by simp [cmdRecRead])

theorem keeps_execRecRelease (r : Request) : RowKeeps (execRecRelease r) := by
  refine row_cmd cmdRecRelease r fun r g s => ?_
  exact .of_kept (by simp [cmdRecRelease])

theorem keeps_execRecVerify (r : Request) : RowKeeps (execRecVerify r) := by
  refine row_cmd cmdRecVerify r fun r g s => ?_
  exact .of_kept (by simp [cmdRecVerify])

theorem keeps_execRecMark (r : Request) : RowKeeps (execRecMark r) := by
  refine row_cmd cmdRecMark r fun r g s => ?_
  exact ⟨by simp [cmdRecMark], fun h => canon_takeRecord _ _ h⟩

theorem keeps_execRecClear (r : Request) : RowKeeps (execRecClear r) := by
  refine row_cmd cmdRecClear r fun r g s => ?_
  exact .of_kept (by simp [cmdRecClear])

theorem keeps_execSdhFrameReceive (t : Time) (port : Fin 4) (f : SdhFrame) : RowKeeps (execSdhFrameReceive t port f) := by
  intro s t e
  unfold execSdhFrameReceive at e; dsimp only [done] at e
  (repeat' split at e) <;> (injection e with e; subst e; exact .of_kept (by simp))

theorem keeps_execSdhTransitionLoss (t : Time) (port : Fin 4) : RowKeeps (execSdhTransitionLoss t port) := by
  intro s t e
  unfold execSdhTransitionLoss at e; dsimp only [done] at e
  (repeat' split at e) <;> (injection e with e; subst e; exact .of_kept (by simp))

theorem keeps_execE1FrameReceive (t : Time) (e : Fin 1024) (v : BitVec 256) : RowKeeps (execE1FrameReceive t e v) := by
  intro s t e
  unfold execE1FrameReceive at e; dsimp only [done] at e
  (repeat' split at e) <;> (injection e with e; subst e; exact .of_kept (by simp))

theorem keeps_execT1FrameReceive (t : Time) (n : Fin 16) (v : BitVec 193) : RowKeeps (execT1FrameReceive t n v) := by
  intro s t e
  unfold execT1FrameReceive at e; dsimp only [done] at e
  (repeat' split at e) <;> (injection e with e; subst e; exact .of_kept (by simp))

theorem keeps_execCrc4MultiframeTimeout (t : Time) (e : Fin 1024) : RowKeeps (execCrc4MultiframeTimeout t e) := by
  intro s t e
  unfold execCrc4MultiframeTimeout at e; dsimp only [done] at e
  (repeat' split at e) <;> (injection e with e; subst e; exact .of_kept (by simp))

theorem keeps_execTdmInternalFrame (t : Time) : RowKeeps (execTdmInternalFrame t) := by
  intro s t e
  unfold execTdmInternalFrame at e; dsimp only [done] at e
  (repeat' split at e) <;> (injection e with e; subst e; exact .of_kept (by simp))

theorem keeps_execTdmMemoryError (t : Time) (e : TdmError) : RowKeeps (execTdmMemoryError t e) := by
  intro s t e
  unfold execTdmMemoryError at e; dsimp only [done] at e
  (repeat' split at e) <;> (injection e with e; subst e; exact .of_kept (by simp))

theorem keeps_execLosInput (t : Time) (line : Fin 20) (on : Bool) : RowKeeps (execLosInput t line on) := by
  intro s t e
  unfold execLosInput at e; dsimp only [done] at e
  (repeat' split at e) <;> (injection e with e; subst e; exact .of_kept (by simp))

theorem keeps_execLineSettingApply (t : Time) : RowKeeps (execLineSettingApply t) := by
  intro s t e
  unfold execLineSettingApply at e; dsimp only [done] at e
  (repeat' split at e) <;> (injection e with e; subst e; exact .of_kept (by simp))

theorem keeps_execProtAlignSearch (t : Time) (w : Fin 1008) (m : PairStreams) : RowKeeps (execProtAlignSearch t w m) := by
  intro s t e
  unfold execProtAlignSearch at e; dsimp only [done] at e
  (repeat' split at e) <;> (injection e with e; subst e; exact .of_kept (by simp))

theorem keeps_execProtAlignRecheck (t : Time) (w : Fin 1008) (m : PairStreams) : RowKeeps (execProtAlignRecheck t w m) := by
  intro s t e
  unfold execProtAlignRecheck at e; dsimp only [done] at e
  (repeat' split at e) <;> (injection e with e; subst e; exact .of_kept (by simp))

theorem keeps_execProtHoldoffExpiry (t : Time) (w : Fin 1008) : RowKeeps (execProtHoldoffExpiry t w) := by
  intro s t e
  unfold execProtHoldoffExpiry at e; dsimp only [done] at e
  (repeat' split at e) <;> (injection e with e; subst e; exact .of_kept (by simp))

theorem keeps_execWaitToRestoreExpiry (t : Time) (w : Fin 1008) : RowKeeps (execWaitToRestoreExpiry t w) := by
  intro s t e
  unfold execWaitToRestoreExpiry at e; dsimp only [done] at e
  (repeat' split at e) <;> (injection e with e; subst e; exact .of_kept (by simp))

theorem keeps_execSdSecond (t : Time) : RowKeeps (execSdSecond t) := by
  intro s t e
  unfold execSdSecond at e; dsimp only [done] at e
  (repeat' split at e) <;> (injection e with e; subst e; exact .of_kept (by simp))

theorem keeps_execTdmCounterLatch (t : Time) : RowKeeps (execTdmCounterLatch t) := by
  intro s t e
  unfold execTdmCounterLatch at e; dsimp only [done] at e
  (repeat' split at e) <;> (injection e with e; subst e; exact .of_kept (by simp))

theorem keeps_execCoreFault (t : Time) (b : Fin 16) (p : Fin 9) (cause : Fin 4) : RowKeeps (execCoreFault t b p cause) := by
  intro s t e
  unfold execCoreFault at e; dsimp only [done] at e
  (repeat' split at e) <;> (injection e with e; subst e; exact .of_kept (by simp))

theorem keeps_execCampionEngineFault (t : Time) (e : Fin 9) : RowKeeps (execCampionEngineFault t e) := by
  intro s t e
  unfold execCampionEngineFault at e; dsimp only [done] at e
  (repeat' split at e) <;> (injection e with e; subst e; exact .of_kept (by simp))

theorem keeps_execCampionSliceWatchdog (t : Time) (e : Fin 9) : RowKeeps (execCampionSliceWatchdog t e) := by
  intro s t e
  unfold execCampionSliceWatchdog at e; dsimp only [done] at e
  (repeat' split at e) <;> (injection e with e; subst e; exact .of_kept (by simp))

theorem keeps_execItemDispatch (t : Time) (b : Fin 36) (p : Fin 9) (corrected : Nat) : RowKeeps (execItemDispatch t b p corrected) := by
  intro s t e
  unfold execItemDispatch at e; dsimp only [done] at e
  (repeat' split at e) <;> (injection e with e; subst e; exact .of_kept (by simp))

theorem keeps_execItemComplete (t : Time) (b : Fin 36) (p : Fin 9) : RowKeeps (execItemComplete t b p) := by
  intro s t e
  unfold execItemComplete at e; dsimp only [done] at e
  (repeat' split at e) <;> (injection e with e; subst e; exact .of_kept (by simp))

theorem keeps_execItemCtrlDone (t : Time) (b : Fin 16) (p : Fin 9) : RowKeeps (execItemCtrlDone t b p) := by
  intro s t e
  unfold execItemCtrlDone at e; dsimp only [done] at e
  (repeat' split at e) <;> (injection e with e; subst e; exact .of_kept (by simp))

theorem keeps_execEnqGo (t : Time) (b : Fin 16) (p : Fin 9) : RowKeeps (execEnqGo t b p) := by
  intro s t e
  unfold execEnqGo at e; dsimp only [done] at e
  (repeat' split at e) <;> (injection e with e; subst e; exact .of_kept (by simp))

theorem keeps_execDoorbellWrite (t : Time) (b : Fin 16) (p : Fin 9) (pos : BitVec 9) : RowKeeps (execDoorbellWrite t b p pos) := by
  intro s t e
  unfold execDoorbellWrite at e; dsimp only [done] at e
  (repeat' split at e) <;> (injection e with e; subst e; exact .of_kept (by simp))

theorem keeps_execIntPendClear (t : Time) (b : Fin 16) (p : Fin 9) (v : BitVec 8) : RowKeeps (execIntPendClear t b p v) := by
  intro s t e
  unfold execIntPendClear at e; dsimp only [done] at e
  (repeat' split at e) <;> (injection e with e; subst e; exact .of_kept (by simp))

theorem keeps_execDmaCtrlGo (t : Time) (b : Fin 16) (p : Fin 9) (ch : Fin 4) (irq : Bool) : RowKeeps (execDmaCtrlGo t b p ch irq) := by
  intro s t e
  unfold execDmaCtrlGo at e; dsimp only [done] at e
  (repeat' split at e) <;> (injection e with e; subst e; exact .of_kept (by simp))

theorem keeps_execDmaStatClear (t : Time) (b : Fin 16) (p : Fin 9) (ch : Fin 4) (clearDone clearErr : Bool) : RowKeeps (execDmaStatClear t b p ch clearDone clearErr) := by
  intro s t e
  unfold execDmaStatClear at e; dsimp only [done] at e
  (repeat' split at e) <;> (injection e with e; subst e; exact .of_kept (by simp))

theorem keeps_execDmaDone (t : Time) (b : Fin 16) (p : Fin 9) (ch : Fin 4) (failing : List Nat) : RowKeeps (execDmaDone t b p ch failing) := by
  intro s t e
  unfold execDmaDone at e; dsimp only [done] at e
  repeat' split at e
  all_goals
    injection e with e
    subst e
    refine ⟨by simp, fun h => ?_⟩
  all_goals first
    | (with_reducible refine canon_dmaDone _ _ _ _ ?_; simpa using h)
    | (simpa using h)

theorem keeps_execInterruptEntry (t : Time) (b : Fin 16) (p : Fin 9) : RowKeeps (execInterruptEntry t b p) := by
  intro s t e
  unfold execInterruptEntry at e; dsimp only [done] at e
  (repeat' split at e) <;> (injection e with e; subst e; exact .of_kept (by simp))

theorem keeps_execDspLoadDone (t : Time) (slot : Fin 64) : RowKeeps (execDspLoadDone t slot) := by
  intro s t e
  unfold execDspLoadDone at e; dsimp only [done] at e
  (repeat' split at e) <;> (injection e with e; subst e; exact .of_kept (by simp))

theorem keeps_execImageActivate (t : Time) : RowKeeps (execImageActivate t) := by
  intro s u e
  unfold execImageActivate at e; dsimp only [done] at e
  split at e
  · injection e with e; subst e
    refine .of_kept ?_
    rw [kept_foldl, kept_State_advance]
    intro s a
    (repeat' split) <;> simp
  · injection e with e; subst e; exact .of_kept (by simp)

theorem keeps_execDspPartition (r : Request) : RowKeeps (execDspPartition r) := by
  refine row_cmd cmdDspPartition r fun r g s => ?_
  exact .of_kept (by simp [cmdDspPartition])

theorem keeps_execDspLoad (r : Request) : RowKeeps (execDspLoad r) := by
  refine row_cmd cmdDspLoad r fun r g s => ?_
  exact .of_kept (by simp [cmdDspLoad])

theorem keeps_execDspQuery (r : Request) : RowKeeps (execDspQuery r) := by
  refine row_cmd cmdDspQuery r fun r g s => ?_
  exact .of_kept (by simp [cmdDspQuery])

theorem keeps_execDspStatus (r : Request) : RowKeeps (execDspStatus r) := by
  refine row_cmd cmdDspStatus r fun r g s => ?_
  exact .of_kept (by simp [cmdDspStatus])

theorem keeps_execRtcpSend (t : Time) (o : RtcpObject) : RowKeeps (execRtcpSend t o) := by
  intro s t e
  unfold execRtcpSend at e; dsimp only [done] at e
  (repeat' split at e) <;> (injection e with e; subst e; exact .of_kept (by simp))

theorem keeps_execRtcpReceive (t : Time) (o : RtcpObject) : RowKeeps (execRtcpReceive t o) := by
  intro s u e
  unfold execRtcpReceive at e; dsimp only [done] at e
  generalize hr : (if (s.advance t).stalls 30 = true then (none, s.advance t) else popInbox _ (s.advance t)) = r at e
  have k : keyOf r.2 = keyOf s := by rw [← hr]; split <;> simp
  rcases r with ⟨_ | ⟨a, f⟩, x⟩ <;> dsimp only at e k
  · injection e with e; subst e; exact .of_kept k
  · injection e with e; subst e
    refine .of_kept ?_
    rw [← k]
    (repeat' split) <;> first | rfl | (rw [kept_foldl]; intro s a; simp)

theorem keeps_execGenStatus (r : Request) : RowKeeps (execGenStatus r) := by
  refine row_cmd cmdGenStatus r fun r g s => ?_
  exact .of_kept (by simp [cmdGenStatus])

theorem keeps_execGenCommit (r : Request) : RowKeeps (execGenCommit r) := by
  refine row_cmd cmdGenCommit r fun r g s => ?_
  refine .of_kept ?_
  unfold cmdGenCommit prepare; dsimp only
  (repeat' split) <;> simp [arm]

theorem keeps_execGenRollback (r : Request) : RowKeeps (execGenRollback r) := by
  refine row_cmd cmdGenRollback r fun r g s => ?_
  refine .of_kept ?_
  unfold cmdGenRollback prepare; dsimp only
  (repeat' split) <;> simp [arm]

theorem keeps_execGenDiscard (r : Request) : RowKeeps (execGenDiscard r) := by
  refine row_cmd cmdGenDiscard r fun r g s => ?_
  exact .of_kept (by simp [cmdGenDiscard])

theorem keeps_execGenCancel (r : Request) : RowKeeps (execGenCancel r) := by
  refine row_cmd cmdGenCancel r fun r g s => ?_
  refine .of_kept ?_
  unfold cmdGenCancel; dsimp only
  split
  · rfl
  · rw [okWith_st]; split <;> simp

theorem keeps_execGenSnapshot (r : Request) : RowKeeps (execGenSnapshot r) := by
  refine row_cmd cmdGenSnapshot r fun r g s => ?_
  exact .of_kept (by simp [cmdGenSnapshot])

theorem keeps_execSnapshotExpiry (t : Time) : RowKeeps (execSnapshotExpiry t) := by
  intro s t e
  unfold execSnapshotExpiry at e; dsimp only [done] at e
  (repeat' split at e) <;> (injection e with e; subst e; exact .of_kept (by simp))

theorem keeps_execContextJournalCopy (t : Time) : RowKeeps (execContextJournalCopy t) := by
  intro s t e
  unfold execContextJournalCopy at e; dsimp only [done] at e
  (repeat' split at e) <;> (injection e with e; subst e; exact .of_kept (by simp))

theorem keeps_execItemDeadline  : RowKeeps (execItemDeadline ) := by
  intro s t e
  unfold execItemDeadline at e; dsimp only [done] at e
  (repeat' split at e) <;> (injection e with e; subst e; exact .of_kept (by simp))

theorem keeps_execTickBoundary  : RowKeeps (execTickBoundary ) := by
  refine row_done fun s => ?_
  exact ⟨by simp, fun h => canon_takeBoundary _ (by simpa using h)⟩

theorem keeps_execGenActivate  : RowKeeps (execGenActivate ) := by
  intro s u e
  unfold execGenActivate at e; dsimp only [done] at e
  repeat' split at e
  all_goals (injection e with e; subst e)
  · exact .of_kept rfl
  · exact ⟨by simp, fun h => canon_takeBoundary _ (by simpa using h)⟩
  · exact .of_kept rfl

theorem keeps_execWarmResume (r : ReadBack) : RowKeeps (execWarmResume r) := by
  intro s u e
  unfold execWarmResume at e; dsimp only [done] at e
  injection e with e; subst e
  split
  · rw [Keeps, kept_foldl _ fun s a => by simp]
    exact ⟨by simp, fun h => canon_warmResume _ (by simpa using h)⟩
  · exact .of_kept (by simp)

theorem keeps_execClusterMemoryUe (t : Time) (b : Fin 16) (p : Fin 9) (page : Bool) : RowKeeps (execClusterMemoryUe t b p page) := by
  intro s t e
  unfold execClusterMemoryUe at e; dsimp only [done] at e
  (repeat' split at e) <;> (injection e with e; subst e; exact .of_kept (by simp))

theorem keeps_execVoltageSample (t : Time) (mv : List Nat) : RowKeeps (execVoltageSample t mv) := by
  intro s t e
  unfold execVoltageSample at e; dsimp only [done] at e
  (repeat' split at e) <;> (injection e with e; subst e; exact .of_kept (by simp))

theorem keeps_execLogMirrorWrite (t : Time) (ok : Bool) : RowKeeps (execLogMirrorWrite t ok) := by
  intro s t e
  unfold execLogMirrorWrite at e; dsimp only [done] at e
  (repeat' split at e) <;> (injection e with e; subst e; exact .of_kept (by simp))

theorem keeps_execLogMirrorRetry (t : Time) (ok : Bool) : RowKeeps (execLogMirrorRetry t ok) := by
  intro s t e
  unfold execLogMirrorRetry at e; dsimp only [done] at e
  (repeat' split at e) <;> (injection e with e; subst e; exact .of_kept (by simp))

theorem keeps_execFwWriteDone (t : Time) (slot : Fin 2) (readBack : Bool) : RowKeeps (execFwWriteDone t slot readBack) := by
  intro s t e
  unfold execFwWriteDone at e; dsimp only [done] at e
  (repeat' split at e) <;> (injection e with e; subst e; exact .of_kept (by simp))

theorem keeps_execMgmtStatus (r : Request) : RowKeeps (execMgmtStatus r) := by
  refine row_cmd cmdMgmtStatus r fun r g s => ?_
  exact .of_kept (by simp [cmdMgmtStatus])

theorem keeps_execMgmtSensors (r : Request) : RowKeeps (execMgmtSensors r) := by
  refine row_cmd cmdMgmtSensors r fun r g s => ?_
  exact .of_kept (by simp [cmdMgmtSensors])

theorem keeps_execMgmtLogRead (r : Request) : RowKeeps (execMgmtLogRead r) := by
  refine row_cmd cmdMgmtLogRead r fun r g s => ?_
  exact .of_kept (by simp [cmdMgmtLogRead])

theorem keeps_execMgmtConfig (r : Request) : RowKeeps (execMgmtConfig r) := by
  refine row_cmd cmdMgmtConfig r fun r g s => ?_
  exact .of_kept (by simp [cmdMgmtConfig])

theorem keeps_execMgmtFwWrite (r : Request) : RowKeeps (execMgmtFwWrite r) := by
  refine row_cmd cmdMgmtFwWrite r fun r g s => ?_
  exact .of_kept (by simp [cmdMgmtFwWrite])

theorem keeps_execMgmtFwActivate (r : Request) : RowKeeps (execMgmtFwActivate r) := by
  refine row_cmd cmdMgmtFwActivate r fun r g s => ?_
  exact .of_kept (by simp [cmdMgmtFwActivate])




theorem keeps_execMgmtBehaviour (r : Request) : RowKeeps (execMgmtBehaviour r) := by
  refine row_cmd cmdMgmtBehaviour r fun r g s => ?_
  exact .of_kept (by simp [cmdMgmtBehaviour])

theorem keeps_execTestRunEnd (t : Time) (b : Fin 36) (r : List UnitTest) : RowKeeps (execTestRunEnd t b r) := by
  intro s t e
  unfold execTestRunEnd at e; dsimp only [done] at e
  (repeat' split at e) <;> (injection e with e; subst e; exact .of_kept (by simp))

theorem keeps_execHealthMapWrite (t : Time) (ok : Bool) : RowKeeps (execHealthMapWrite t ok) := by
  intro s t e
  unfold execHealthMapWrite at e; dsimp only [done] at e
  (repeat' split at e) <;> (injection e with e; subst e; exact .of_kept (by simp))

theorem keeps_execTestRun (r : Request) : RowKeeps (execTestRun r) := by
  refine row_cmd cmdTestRun r fun r g s => ?_
  exact .of_kept (by simp [cmdTestRun])

theorem keeps_execTestReport (r : Request) : RowKeeps (execTestReport r) := by
  refine row_cmd cmdTestReport r fun r g s => ?_
  exact .of_kept (by simp [cmdTestReport])

theorem keeps_execTestHealth (r : Request) : RowKeeps (execTestHealth r) := by
  refine row_cmd cmdTestHealth r fun r g s => ?_
  exact .of_kept (by simp [cmdTestHealth])

theorem keeps_execTestHealthClear (r : Request) : RowKeeps (execTestHealthClear r) := by
  refine row_cmd cmdTestHealthClear r fun r g s => ?_
  exact .of_kept (by simp [cmdTestHealthClear])

theorem keeps_execPorstNAssert (t : Time) (low : Nat) : RowKeeps (execPorstNAssert t low) := by
  intro s t e
  unfold execPorstNAssert at e; dsimp only [done] at e
  repeat' split at e
  all_goals
    injection e with e
    subst e
    refine ⟨by simp, fun h => ?_⟩
  all_goals first
    | (with_reducible refine canon_coldState _ ?_; simpa using h)
    | (simpa using h)

theorem keeps_execPorstNRelease (t : Time) (b : ColdBoot) : RowKeeps (execPorstNRelease t b) := by
  intro s t e
  unfold execPorstNRelease at e; dsimp only [done] at e
  (repeat' split at e) <;> (injection e with e; subst e; exact .of_kept (by simp))

theorem keeps_execWrstNAssert (t : Time) (low : Nat) : RowKeeps (execWrstNAssert t low) := by
  intro s u e
  unfold execWrstNAssert at e; dsimp only [done] at e
  have k : keyOf (pulseTaken low (s.advance t)).2 = keyOf s := by simp
  generalize pulseTaken low (s.advance t) = p at e k
  repeat' split at e
  all_goals (injection e with e; subst e)
  · rw [Keeps, kept_modBoot]
    exact ⟨by rw [(rest_warmState _).1, k], fun h => canon_warmState _ (by rw [k]; exact h)⟩
  · rw [Keeps, kept_modBoot]
    exact ⟨by rw [held_coldState, k], fun h => canon_coldState _ (by rw [k]; exact h)⟩
  · exact .of_kept k
  · exact .of_kept (by simp)

theorem keeps_execWrstNRelease (t : Time) (imageOk : Bool) : RowKeeps (execWrstNRelease t imageOk) := by
  intro s t e
  unfold execWrstNRelease at e; dsimp only [done] at e
  repeat' split at e
  all_goals
    injection e with e
    subst e
    refine ⟨by simp, fun h => ?_⟩
  all_goals first
    | (rw [(rest_warmBoot _ _ _).2]; simpa using h)
    | (simpa using h)

theorem keeps_execSysResetDelayExpiry (t : Time) : RowKeeps (execSysResetDelayExpiry t) := by
  intro s t e
  unfold execSysResetDelayExpiry at e; dsimp only [done] at e
  repeat' split at e
  all_goals
    injection e with e
    subst e
    refine ⟨by simp, fun h => ?_⟩
  all_goals first
    | (with_reducible refine canon_selfCold _ _ ?_; simpa using h)
    | (with_reducible refine canon_warmReset _ _ ?_; simpa using h)
    | (simpa using h)

theorem keeps_execWatchdogExpiry (t : Time) : RowKeeps (execWatchdogExpiry t) := by
  intro s t e
  unfold execWatchdogExpiry at e; dsimp only [done] at e
  repeat' split at e
  all_goals
    injection e with e
    subst e
    refine ⟨by simp, fun h => ?_⟩
  all_goals first
    | (with_reducible refine canon_warmReset _ _ ?_; simpa using h)
    | (simpa using h)

theorem keeps_execRefclkLockHeld (t : Time) : RowKeeps (execRefclkLockHeld t) := by
  intro s t e
  unfold execRefclkLockHeld at e; dsimp only [done] at e
  (repeat' split at e) <;> (injection e with e; subst e; exact .of_kept (by simp))

theorem keeps_execPerstNAssert (t : Time) : RowKeeps (execPerstNAssert t) := by
  intro s t e
  unfold execPerstNAssert at e; dsimp only [done] at e
  repeat' split at e
  all_goals
    injection e with e
    subst e
    refine ⟨by simp, fun h => ?_⟩
  all_goals first
    | (rw [kept_modPcie, kept_linkLost]; refine canon_pcieEvent _ _ ?_; simpa using h)
    | (simpa using h)

theorem keeps_execPcieHotReset (t : Time) : RowKeeps (execPcieHotReset t) := by
  intro s t e
  unfold execPcieHotReset at e; dsimp only [done] at e
  repeat' split at e
  all_goals
    injection e with e
    subst e
    refine ⟨by simp, fun h => ?_⟩
  all_goals first
    | (with_reducible refine canon_pcieEvent _ _ ?_; simpa using h)
    | (simpa using h)

theorem keeps_execPcieLinkDown (t : Time) : RowKeeps (execPcieLinkDown t) := by
  intro s t e
  unfold execPcieLinkDown at e; dsimp only [done] at e
  repeat' split at e
  all_goals
    injection e with e
    subst e
    refine ⟨by simp, fun h => ?_⟩
  all_goals first
    | (with_reducible refine canon_pcieDown _ ?_; simpa using h)
    | (simpa using h)

theorem keeps_execPcieLinkUp (t : Time) (rate width : Nat) : RowKeeps (execPcieLinkUp t rate width) := by
  intro s t e
  unfold execPcieLinkUp at e; dsimp only [done] at e
  (repeat' split at e) <;> (injection e with e; subst e; exact .of_kept (by simp))

theorem keeps_execOtpLoadEnd (t : Time) (crcOk : Bool) : RowKeeps (execOtpLoadEnd t crcOk) := by
  intro s t e
  unfold execOtpLoadEnd at e; dsimp only [done] at e
  (repeat' split at e) <;> (injection e with e; subst e; exact .of_kept (by simp))

theorem keeps_execDramTraining (t : Time) (r : TrainResult) : RowKeeps (execDramTraining t r) := by
  intro s t e
  unfold execDramTraining at e; dsimp only [done] at e
  (repeat' split at e) <;> (injection e with e; subst e; exact .of_kept (by simp))

theorem keeps_execBootSelftestUnitEnd (t : Time) (b : Fin 36) (r : UnitTest) : RowKeeps (execBootSelftestUnitEnd t b r) := by
  intro s t e
  unfold execBootSelftestUnitEnd at e; dsimp only [done] at e
  (repeat' split at e) <;> (injection e with e; subst e; exact .of_kept (by simp))

theorem keeps_execDeviceReady (t : Time) : RowKeeps (execDeviceReady t) := by
  intro s t e
  unfold execDeviceReady at e; dsimp only [done] at e
  (repeat' split at e) <;> (injection e with e; subst e; exact .of_kept (by simp))

theorem keeps_execBlockRelease (t : Time) (b : Fin 36) : RowKeeps (execBlockRelease t b) := by
  intro s t e
  unfold execBlockRelease at e; dsimp only [done] at e
  (repeat' split at e) <;> (injection e with e; subst e; exact .of_kept (by simp))

theorem keeps_execBlockResetDone (t : Time) (b : Fin 36) : RowKeeps (execBlockResetDone t b) := by
  intro s t e
  unfold execBlockResetDone at e; dsimp only [done] at e
  (repeat' split at e) <;> (injection e with e; subst e; exact .of_kept (by simp))

theorem keeps_execTrialReadyTimeout (t : Time) : RowKeeps (execTrialReadyTimeout t) := by
  intro s t e
  unfold execTrialReadyTimeout at e; dsimp only [done] at e
  (repeat' split at e) <;> (injection e with e; subst e; exact .of_kept (by simp))

theorem keeps_execUartImageReceive (t : Time) (image : Bytes) : RowKeeps (execUartImageReceive t image) := by
  intro s u e
  unfold execUartImageReceive at e; dsimp only [done] at e
  generalize hx : ((startImage _ _).emit _).modBoot _ = x at e
  have k : keyOf x = keyOf s := by rw [← hx]; simp
  repeat' split at e
  all_goals (injection e with e; subst e)
  · rw [Keeps, ← k]; exact ⟨rfl, id⟩
  · exact .of_kept k
  · exact .of_kept (by simp)
  · exact .of_kept (by simp)

theorem keeps_execUartRxGapTimeout (t : Time) : RowKeeps (execUartRxGapTimeout t) := by
  intro s t e
  unfold execUartRxGapTimeout at e; dsimp only [done] at e
  (repeat' split at e) <;> (injection e with e; subst e; exact .of_kept (by simp))

theorem keeps_execBootStatus (r : Request) : RowKeeps (execBootStatus r) := by
  refine row_cmd cmdBootStatus r fun r g s => ?_
  exact .of_kept (by simp [cmdBootStatus])

theorem keeps_execBootPcieSet (r : Request) : RowKeeps (execBootPcieSet r) := by
  refine row_cmd cmdBootPcieSet r fun r g s => ?_
  exact .of_kept (by simp [cmdBootPcieSet])

theorem keeps_execBootBlockReset (r : Request) : RowKeeps (execBootBlockReset r) := by
  refine row_cmd cmdBootBlockReset r fun r g s => ?_
  unfold cmdBootBlockReset; dsimp only
  constructor
  · split <;> simp
  · intro h
    split
    · simpa using canon_resetBlock _ _ (by simpa using h)
    · simpa using canon_resetBlock _ _ (by simpa using h)

theorem keeps_execSysReset (r : Request) : RowKeeps (execSysReset r) := by
  intro s u e
  unfold execSysReset at e; dsimp only [done] at e
  injection e with e; subst e
  have k : ∀ r g s, Keeps s (cmdSysReset.run r g s).st := fun r g s => .of_kept (by simp [cmdSysReset])
  exact ⟨by rw [kept_State_postIf]; exact held_runCmd _ _ _ fun r g s => (k r g s).1,
    fun h => by rw [kept_State_postIf]; exact canon_runCmd _ _ _ (fun r g s hs => (k r g s).2 hs) h⟩

theorem keeps_execQuiesceIdle (t : Time) (b : Fin 36) : RowKeeps (execQuiesceIdle t b) := by
  intro s t e
  unfold execQuiesceIdle at e; dsimp only [done] at e
  (repeat' split at e) <;> (injection e with e; subst e; exact .of_kept (by simp))

theorem keeps_execQuiesceTimeout (t : Time) (b : Fin 36) : RowKeeps (execQuiesceTimeout t b) := by
  intro s t e
  unfold execQuiesceTimeout at e; dsimp only [done] at e
  (repeat' split at e) <;> (injection e with e; subst e; exact .of_kept (by simp))

theorem keeps_execSysNop (r : Request) : RowKeeps (execSysNop r) := by
  refine row_cmd cmdSysNop r fun r g s => ?_
  exact .of_kept (by simp [cmdSysNop])

theorem keeps_execSysInfo (r : Request) : RowKeeps (execSysInfo r) := by
  refine row_cmd cmdSysInfo r fun r g s => ?_
  exact .of_kept (by simp [cmdSysInfo])

theorem keeps_execSysQuiesce (r : Request) : RowKeeps (execSysQuiesce r) := by
  refine row_cmd cmdSysQuiesce r fun r g s => ?_
  exact .of_kept (by simp [cmdSysQuiesce])

theorem keeps_execSysEventMask (r : Request) : RowKeeps (execSysEventMask r) := by
  refine row_cmd cmdSysEventMask r fun r g s => ?_
  exact .of_kept (by simp [cmdSysEventMask])

theorem keeps_execSysStats (r : Request) : RowKeeps (execSysStats r) := by
  refine row_cmd cmdSysStats r fun r g s => ?_
  exact .of_kept (by simp [cmdSysStats])

theorem keeps_execPwrState (r : Request) : RowKeeps (execPwrState r) := by
  intro s u e
  unfold execPwrState at e; dsimp only [done] at e
  injection e with e; subst e
  have k : ∀ r g s, Keeps s (cmdPwrState.run r g s).st := fun r g s => .of_kept (by unfold cmdPwrState; dsimp only; split <;> simp)
  generalize hx : runCmd cmdPwrState r s = x
  have kx : Keeps s x := hx ▸ ⟨held_runCmd _ _ _ fun r g s => (k r g s).1, canon_runCmd _ _ _ fun r g s hs => (k r g s).2 hs⟩
  have kt : ∀ y, keyOf y = keyOf x → Keeps s y := fun y hy => by rw [Keeps, hy]; exact kx
  (repeat' split) <;> exact kt _ (by simp)

theorem keeps_execPowerDownDelayExpiry (t : Time) : RowKeeps (execPowerDownDelayExpiry t) := by
  intro s t e
  unfold execPowerDownDelayExpiry at e; dsimp only [done] at e
  repeat' split at e
  all_goals
    injection e with e
    subst e
    refine ⟨by simp, fun h => ?_⟩
  all_goals first
    | (with_reducible refine canon_enterDeepSleep _ ?_; simpa using h)
    | (with_reducible refine canon_enterOff _ ?_; simpa using h)
    | (simpa using h)

theorem keeps_execWakeNAssert (t : Time) (low : Nat) : RowKeeps (execWakeNAssert t low) := by
  intro s t e
  unfold execWakeNAssert at e; dsimp only [done] at e
  repeat' split at e
  all_goals
    injection e with e
    subst e
    refine ⟨by simp, fun h => ?_⟩
  all_goals first
    | (with_reducible refine canon_coldState _ ?_; simpa using h)
    | (simpa using h)

theorem keeps_execDeepSleepTimedWake (t : Time) : RowKeeps (execDeepSleepTimedWake t) := by
  intro s t e
  unfold execDeepSleepTimedWake at e; dsimp only [done] at e
  (repeat' split at e) <;> (injection e with e; subst e; exact .of_kept (by simp))

theorem keeps_execSleepWakeAccess (t : Time) (_a : WakeAccess) : RowKeeps (execSleepWakeAccess t _a) := by
  intro s t e
  unfold execSleepWakeAccess at e; dsimp only [done] at e
  (repeat' split at e) <;> (injection e with e; subst e; exact .of_kept (by simp))

theorem keeps_execBar2Access (a : Bar2) : RowKeeps (execBar2Access a) := by
  refine row_done fun s => ?_
  unfold State.hosted
  split
  · exact ⟨by simp, fun h => canon_bar2 _ _ (by simpa using h)⟩
  · exact .of_kept rfl

theorem keeps_execPerstNRelease (t : Time) : RowKeeps (execPerstNRelease t) := by
  intro s t e
  unfold execPerstNRelease at e; dsimp only [done] at e
  (repeat' split at e) <;> (injection e with e; subst e; exact .of_kept (by simp))

theorem keeps_execDomainIdleOff (t : Time) (b : Fin 36) : RowKeeps (execDomainIdleOff t b) := by
  intro s t e
  unfold execDomainIdleOff at e; dsimp only [done] at e
  (repeat' split at e) <;> (injection e with e; subst e; exact .of_kept (by simp))

theorem keeps_execDomainReady (t : Time) (b : Fin 36) : RowKeeps (execDomainReady t b) := by
  intro s t e
  unfold execDomainReady at e; dsimp only [done] at e
  (repeat' split at e) <;> (injection e with e; subst e; exact .of_kept (by simp))

theorem keeps_execPllLossOfLock (t : Time) (p : Fin 10) : RowKeeps (execPllLossOfLock t p) := by
  intro s t e
  unfold execPllLossOfLock at e; dsimp only [done] at e
  repeat' split at e
  all_goals
    injection e with e
    subst e
    refine ⟨by simp, fun h => ?_⟩
  all_goals first
    | (with_reducible refine canon_refclkFails _ ?_; simpa using h)
    | (with_reducible refine canon_loseLock _ _ ?_; simpa using h)
    | (simpa using h)

theorem keeps_execPllLock (t : Time) (p : Fin 10) : RowKeeps (execPllLock t p) := by
  intro s t e
  unfold execPllLock at e; dsimp only [done] at e
  (repeat' split at e) <;> (injection e with e; subst e; exact .of_kept (by simp))

theorem keeps_execThermalSample (t : Time) (temps : List Int) : RowKeeps (execThermalSample t temps) := by
  intro s t e
  unfold execThermalSample at e; dsimp only [done] at e
  repeat' split at e
  all_goals
    injection e with e
    subst e
    refine ⟨by simp, fun h => ?_⟩
  all_goals first
    | (with_reducible refine canon_thermalTrip _ _ ?_; simpa using h)
    | (simpa using h)

theorem keeps_execPowerSupplyLoss (t : Time) : RowKeeps (execPowerSupplyLoss t) := by
  intro s u e
  unfold execPowerSupplyLoss at e; dsimp only [done] at e
  injection e with e; subst e
  exact ⟨by simp [keyOf], fun h => ⟨by simpa [keyOf] using h.1, by simpa [keyOf] using h.2.1, rfl⟩⟩

theorem keeps_execFifoWrite (t : Time) (h : Fin 64) (out : Bool) (w : BitVec 64) (last : Bool) : RowKeeps (execFifoWrite t h out w last) := by
  intro s t e
  unfold execFifoWrite at e; dsimp only [done] at e
  (repeat' split at e) <;> (injection e with e; subst e; exact .of_kept (by simp))

theorem keeps_execFifoRead (t : Time) (h : Fin 64) (out : Bool) (upset : Bool) : RowKeeps (execFifoRead t h out upset) := by
  intro s t e
  unfold execFifoRead at e; dsimp only [done] at e
  (repeat' split at e) <;> (injection e with e; subst e; exact .of_kept (by simp))

theorem keeps_execHspInboundFetch (t : Time) (h : Fin 64) (poisoned : Bool) : RowKeeps (execHspInboundFetch t h poisoned) := by
  intro s t e
  unfold execHspInboundFetch at e; dsimp only [done] at e
  repeat' split at e
  all_goals
    injection e with e
    subst e
    refine ⟨by simp, fun h => ?_⟩
  all_goals first
    | (with_reducible refine canon_badDesc _ _ _ ?_; simpa using h)
    | (with_reducible refine canon_completeDesc _ _ _ _ _ ?_; simpa using h)
    | (simpa using h)

theorem keeps_execHspOutboundWrite (t : Time) (h : Fin 64) (poisoned : Bool) : RowKeeps (execHspOutboundWrite t h poisoned) := by
  intro s t e
  unfold execHspOutboundWrite at e; dsimp only [done] at e
  repeat' split at e
  all_goals
    injection e with e
    subst e
    refine ⟨by simp, fun h => ?_⟩
  all_goals first
    | (with_reducible refine canon_badDesc _ _ _ ?_; simpa using h)
    | (with_reducible refine canon_completeDesc _ _ _ _ _ ?_; rw [kept_hspPoison]; with_reducible refine canon_writePacket _ _ _ _ _ ?_; simpa using h)
    | (with_reducible refine canon_completeDesc _ _ _ _ _ ?_; with_reducible refine canon_writePacket _ _ _ _ _ ?_; simpa using h)
    | (simpa using h)

theorem keeps_execHspVectorSend (t : Time) (h : Fin 64) : RowKeeps (execHspVectorSend t h) := by
  intro s t e
  unfold execHspVectorSend at e; dsimp only [done] at e
  (repeat' split at e) <;> (injection e with e; subst e; exact .of_kept (by simp))

theorem keeps_execHspSet (r : Request) : RowKeeps (execHspSet r) := by
  refine row_cmd cmdHspSet r fun r g s => ?_
  exact .of_kept (by simp [cmdHspSet])

theorem keeps_execHspQuery (r : Request) : RowKeeps (execHspQuery r) := by
  refine row_cmd cmdHspQuery r fun r g s => ?_
  exact .of_kept (by simp [cmdHspQuery])

theorem keeps_execHspStats (r : Request) : RowKeeps (execHspStats r) := by
  refine row_cmd cmdHspStats r fun r g s => ?_
  exact .of_kept (by simp [cmdHspStats])

theorem keeps_execHeldBar0WriteApply (t : Time) : RowKeeps (execHeldBar0WriteApply t) := by
  intro s t e
  unfold execHeldBar0WriteApply at e; dsimp only [done] at e
  (repeat' split at e) <;> (injection e with e; subst e; exact .of_kept (by simp))

theorem keeps_execPgCtrlGo (t : Time) (u : Fin 16) (v : BitVec 32) : RowKeeps (execPgCtrlGo t u v) := by
  intro s t e
  unfold execPgCtrlGo at e; dsimp only [done] at e
  (repeat' split at e) <;> (injection e with e; subst e; exact .of_kept (by simp))

theorem keeps_execPgStatusDoneClear (u : Fin 16) (v : BitVec 32) : RowKeeps (execPgStatusDoneClear u v) := by
  intro s t e
  unfold execPgStatusDoneClear at e; dsimp only [done] at e
  (repeat' split at e) <;> (injection e with e; subst e; exact .of_kept (by simp))

theorem keeps_execPgErrRead (u : Fin 16) : RowKeeps (execPgErrRead u) := by
  intro s t e
  unfold execPgErrRead at e; dsimp only [done] at e
  (repeat' split at e) <;> (injection e with e; subst e; exact .of_kept (by simp))

theorem keeps_execHspInTailWrite (h : Fin 64) (v : BitVec 32) : RowKeeps (execHspInTailWrite h v) := by
  intro s t e
  unfold execHspInTailWrite at e; dsimp only [done] at e
  (repeat' split at e) <;> (injection e with e; subst e; exact .of_kept (by simp))

theorem keeps_execHspOutTailWrite (h : Fin 64) (v : BitVec 32) : RowKeeps (execHspOutTailWrite h v) := by
  intro s t e
  unfold execHspOutTailWrite at e; dsimp only [done] at e
  (repeat' split at e) <;> (injection e with e; subst e; exact .of_kept (by simp))

theorem keeps_execHspSizeWrite (h : Fin 64) (out : Bool) (v : BitVec 32) : RowKeeps (execHspSizeWrite h out v) := by
  intro s t e
  unfold execHspSizeWrite at e; dsimp only [done] at e
  (repeat' split at e) <;> (injection e with e; subst e; exact .of_kept (by simp))

theorem keeps_execHspErrClear (h : Fin 64) (v : BitVec 32) : RowKeeps (execHspErrClear h v) := by
  intro s t e
  unfold execHspErrClear at e; dsimp only [done] at e
  (repeat' split at e) <;> (injection e with e; subst e; exact .of_kept (by simp))

theorem keeps_execDwinBaseWrite (v : BitVec 32) : RowKeeps (execDwinBaseWrite v) := by
  intro s t e
  unfold execDwinBaseWrite at e; dsimp only [done] at e
  (repeat' split at e) <;> (injection e with e; subst e; exact .of_kept (by simp))

theorem keeps_execDwinErrRead  : RowKeeps (execDwinErrRead ) := by
  intro s t e
  unfold execDwinErrRead at e; dsimp only [done] at e
  (repeat' split at e) <;> (injection e with e; subst e; exact .of_kept (by simp))

theorem keeps_execDevFaultClear (v : BitVec 32) : RowKeeps (execDevFaultClear v) := by
  intro s t e
  unfold execDevFaultClear at e; dsimp only [done] at e
  (repeat' split at e) <;> (injection e with e; subst e; exact .of_kept (by simp))

theorem keeps_execMsixVectorUnmask (v : Fin 64) : RowKeeps (execMsixVectorUnmask v) := by
  intro s t e
  unfold execMsixVectorUnmask at e; dsimp only [done] at e
  (repeat' split at e) <;> (injection e with e; subst e; exact .of_kept (by simp))

theorem keeps_execMbxRing (t : Time) (v : BitVec 32) : RowKeeps (execMbxRing t v) := by
  intro s u e
  unfold execMbxRing at e; dsimp only [done] at e
  injection e with e; subst e
  unfold State.hosted
  split
  · exact ⟨by simp, fun h => by simpa using h⟩
  · exact ⟨rfl, id⟩
theorem keeps_execMbxDoneClear (hi : Bool) (v : BitVec 32) : RowKeeps (execMbxDoneClear hi v) := by
  intro s u e
  unfold execMbxDoneClear at e; dsimp only [done] at e
  injection e with e; subst e
  unfold State.hosted
  split
  · exact ⟨by simp, fun h => by simpa using h⟩
  · exact ⟨rfl, id⟩
theorem keeps_execMbxErrRead  : RowKeeps (execMbxErrRead ) := by
  intro s t e
  unfold execMbxErrRead at e; dsimp only [done] at e
  (repeat' split at e) <;> (injection e with e; subst e; exact .of_kept (by simp))

theorem keeps_execEvqSizeWrite (v : BitVec 32) : RowKeeps (execEvqSizeWrite v) := by
  intro s t e
  unfold execEvqSizeWrite at e; dsimp only [done] at e
  (repeat' split at e) <;> (injection e with e; subst e; exact .of_kept (by simp))

theorem keeps_execEvqBaseWrite (hi : Bool) (v : BitVec 32) : RowKeeps (execEvqBaseWrite hi v) := by
  intro s t e
  unfold execEvqBaseWrite at e; dsimp only [done] at e
  (repeat' split at e) <;> (injection e with e; subst e; exact .of_kept (by simp))

theorem keeps_execEvqHeadWrite (v : BitVec 32) : RowKeeps (execEvqHeadWrite v) := by
  intro s t e
  unfold execEvqHeadWrite at e; dsimp only [done] at e
  (repeat' split at e) <;> (injection e with e; subst e; exact .of_kept (by simp))

theorem keeps_execEvqLostRead  : RowKeeps (execEvqLostRead ) := by
  intro s t e
  unfold execEvqLostRead at e; dsimp only [done] at e
  (repeat' split at e) <;> (injection e with e; subst e; exact .of_kept (by simp))

theorem keeps_execBar0RegisterWrite (off : Nat) (data : Bytes) : RowKeeps (execBar0RegisterWrite off data) := by
  refine row_done fun s => ?_
  unfold State.hosted
  split
  · exact ⟨by simp, fun h => canon_bar0Write _ _ _ (by simpa using h)⟩
  · exact .of_kept rfl

theorem keeps_execBar0ReadDomainNotReady (t : Time) (r : BarRead) : RowKeeps (execBar0ReadDomainNotReady t r) := by
  intro s t e
  unfold execBar0ReadDomainNotReady at e; dsimp only [done] at e
  (repeat' split at e) <;> (injection e with e; subst e; exact .of_kept (by simp))

theorem keeps_execCryptoRequest (t : Time) (queue : Fin 2) (engine mismatch : Fin 3) : RowKeeps (execCryptoRequest t queue engine mismatch) := by
  intro s t e
  unfold execCryptoRequest at e; dsimp only [done] at e
  (repeat' split at e) <;> (injection e with e; subst e; exact .of_kept (by simp))

theorem keeps_execDramRequest (t : Time) (ctl : Fin 16) (arrivals : List LineAccess) (err : LineErr) : RowKeeps (execDramRequest t ctl arrivals err) := by
  intro s t e
  unfold execDramRequest at e; dsimp only [done] at e
  repeat' split at e
  all_goals
    injection e with e
    subst e
    refine ⟨by simp, fun h => ?_⟩
  all_goals first
    | (with_reducible refine canon_serve _ _ _ _ ?_; simpa using h)
    | (simpa using h)

theorem keeps_execRefreshInterval (t : Time) (rank : Fin 64) : RowKeeps (execRefreshInterval t rank) := by
  intro s t e
  unfold execRefreshInterval at e; dsimp only [done] at e
  (repeat' split at e) <;> (injection e with e; subst e; exact .of_kept (by simp))

theorem keeps_execDramRefresh (t : Time) (rank : Fin 64) : RowKeeps (execDramRefresh t rank) := by
  intro s t e
  unfold execDramRefresh at e; dsimp only [done] at e
  (repeat' split at e) <;> (injection e with e; subst e; exact .of_kept (by simp))

theorem keeps_execMr4Poll (t : Time) (hot : List (Fin 64 × Fin 3)) : RowKeeps (execMr4Poll t hot) := by
  intro s t e
  unfold execMr4Poll at e; dsimp only [done] at e
  (repeat' split at e) <;> (injection e with e; subst e; exact .of_kept (by simp))

theorem keeps_execZqCalibration (t : Time) (_rank : Fin 64) : RowKeeps (execZqCalibration t _rank) := by
  intro s t e
  unfold execZqCalibration at e; dsimp only [done] at e
  (repeat' split at e) <;> (injection e with e; subst e; exact .of_kept (by simp))

theorem keeps_execDqsRecentre (t : Time) : RowKeeps (execDqsRecentre t) := by
  intro s t e
  unfold execDqsRecentre at e; dsimp only [done] at e
  (repeat' split at e) <;> (injection e with e; subst e; exact .of_kept (by simp))

theorem keeps_execPatrolScrub (t : Time) (err : LineErr) : RowKeeps (execPatrolScrub t err) := by
  intro s t e
  unfold execPatrolScrub at e; dsimp only [done] at e
  (repeat' split at e) <;> (injection e with e; subst e; exact .of_kept (by simp))

theorem keeps_execRankPowerDown (t : Time) (rank : Fin 64) : RowKeeps (execRankPowerDown t rank) := by
  intro s t e
  unfold execRankPowerDown at e; dsimp only [done] at e
  (repeat' split at e) <;> (injection e with e; subst e; exact .of_kept (by simp))

theorem keeps_execMemStatus (r : Request) : RowKeeps (execMemStatus r) := by
  refine row_cmd cmdMemStatus r fun r g s => ?_
  exact .of_kept (by simp [cmdMemStatus])

theorem keeps_execMemMap (r : Request) : RowKeeps (execMemMap r) := by
  refine row_cmd cmdMemMap r fun r g s => ?_
  exact .of_kept (by simp [cmdMemMap])

theorem keeps_execMemRegions (r : Request) : RowKeeps (execMemRegions r) := by
  refine row_cmd cmdMemRegions r fun r g s => ?_
  exact .of_kept (by simp [cmdMemRegions])

theorem keeps_execMemScrub (r : Request) : RowKeeps (execMemScrub r) := by
  refine row_cmd cmdMemScrub r fun r g s => ?_
  exact .of_kept (by simp [cmdMemScrub])

theorem keeps_execMemErrors (r : Request) : RowKeeps (execMemErrors r) := by
  refine row_cmd cmdMemErrors r fun r g s => ?_
  exact .of_kept (by simp [cmdMemErrors])

theorem keeps_execMemInject (r : Request) : RowKeeps (execMemInject r) := by
  refine row_cmd cmdMemInject r fun r g s => ?_
  exact .of_kept (by simp [cmdMemInject])

theorem keeps_execTdmSdhSet (r : Request) : RowKeeps (execTdmSdhSet r) := by
  refine row_cmd cmdTdmSdhSet r fun r g s => ?_
  exact .of_kept (by simp [cmdTdmSdhSet])

theorem keeps_execTdmPdhSet (r : Request) : RowKeeps (execTdmPdhSet r) := by
  refine row_cmd cmdTdmPdhSet r fun r g s => ?_
  exact .of_kept (by simp [cmdTdmPdhSet])

theorem keeps_execTdmTribSet (r : Request) : RowKeeps (execTdmTribSet r) := by
  refine row_cmd cmdTdmTribSet r fun r g s => ?_
  exact .of_kept (by simp [cmdTdmTribSet])

theorem keeps_execTdmXcSet (r : Request) : RowKeeps (execTdmXcSet r) := by
  refine row_cmd cmdTdmXcSet r fun r g s => ?_
  exact .of_kept (by simp [cmdTdmXcSet])

theorem keeps_execTdmBypassSet (r : Request) : RowKeeps (execTdmBypassSet r) := by
  refine row_cmd cmdTdmBypassSet r fun r g s => ?_
  exact .of_kept (by simp [cmdTdmBypassSet])

theorem keeps_execTdmProtSet (r : Request) : RowKeeps (execTdmProtSet r) := by
  refine row_cmd cmdTdmProtSet r fun r g s => ?_
  exact .of_kept (by simp [cmdTdmProtSet])

theorem keeps_execTdmProtCmd (r : Request) : RowKeeps (execTdmProtCmd r) := by
  refine row_cmd cmdTdmProtCmd r fun r g s => ?_
  exact .of_kept (by simp [cmdTdmProtCmd])

theorem keeps_execTdmDelete (r : Request) : RowKeeps (execTdmDelete r) := by
  refine row_cmd cmdTdmDelete r fun r g s => ?_
  exact .of_kept (by simp [cmdTdmDelete])

theorem keeps_execTdmQuery (r : Request) : RowKeeps (execTdmQuery r) := by
  refine row_cmd cmdTdmQuery r fun r g s => ?_
  exact .of_kept (by simp [cmdTdmQuery])

theorem keeps_execTdmStatus (r : Request) : RowKeeps (execTdmStatus r) := by
  refine row_cmd cmdTdmStatus r fun r g s => ?_
  exact .of_kept (by simp [cmdTdmStatus])

theorem keeps_execTdmCounters (r : Request) : RowKeeps (execTdmCounters r) := by
  refine row_cmd cmdTdmCounters r fun r g s => ?_
  refine .of_kept ?_
  unfold cmdTdmCounters; dsimp only
  rw [okWith_st]; (repeat' split) <;> simp

theorem keeps_execTdmCas (r : Request) : RowKeeps (execTdmCas r) := by
  refine row_cmd cmdTdmCas r fun r g s => ?_
  exact .of_kept (by simp [cmdTdmCas])

theorem keeps_execZipJobEnd (t : Time) (c : Fin 64) (fault : Bool) : RowKeeps (execZipJobEnd t c fault) := by
  intro s u e
  unfold execZipJobEnd at e; dsimp only [done] at e
  split at e
  · injection e with e; subst e; exact .of_kept (by simp)
  · injection e with e; subst e
    exact ⟨by rw [(rest_endZipJob _ _ _ _ _).1, kept_State_advance], fun h => canon_endZipJob _ _ _ _ _ (by rw [kept_State_advance]; exact h)⟩

theorem keeps_execZipStart (r : Request) : RowKeeps (execZipStart r) := by
  refine row_cmd cmdZipStart r fun r g s => ?_
  exact .of_kept (by simp [cmdZipStart])

theorem keeps_execZipResume (r : Request) : RowKeeps (execZipResume r) := by
  refine row_cmd cmdZipResume r fun r g s => ?_
  exact .of_kept (by simp [cmdZipResume])

theorem keeps_execZipReset (r : Request) : RowKeeps (execZipReset r) := by
  refine row_cmd cmdZipReset r fun r g s => ?_
  exact .of_kept (by simp [cmdZipReset])

theorem keeps_execZipQuery (r : Request) : RowKeeps (execZipQuery r) := by
  refine row_cmd cmdZipQuery r fun r g s => ?_
  exact .of_kept (by simp [cmdZipQuery])


theorem keeps_execYarrowNop (t : Time) (b : Fin 16) (p : Fin 9) (w : BitVec 41) : RowKeeps (execYarrowNop t b p w) := by
  exact row_done fun s => .of_kept (kept_issue _ _ _ _ _ _ s)

theorem keeps_execYarrowMpy (t : Time) (b : Fin 16) (p : Fin 9) (w : BitVec 41) : RowKeeps (execYarrowMpy t b p w) := by
  exact row_done fun s => .of_kept (kept_issue _ _ _ _ _ _ s)

theorem keeps_execYarrowMac (t : Time) (b : Fin 16) (p : Fin 9) (w : BitVec 41) : RowKeeps (execYarrowMac t b p w) := by
  exact row_done fun s => .of_kept (kept_issue _ _ _ _ _ _ s)

theorem keeps_execYarrowMsu (t : Time) (b : Fin 16) (p : Fin 9) (w : BitVec 41) : RowKeeps (execYarrowMsu t b p w) := by
  exact row_done fun s => .of_kept (kept_issue _ _ _ _ _ _ s)

theorem keeps_execYarrowQmpy (t : Time) (b : Fin 16) (p : Fin 9) (w : BitVec 41) : RowKeeps (execYarrowQmpy t b p w) := by
  exact row_done fun s => .of_kept (kept_issue _ _ _ _ _ _ s)

theorem keeps_execYarrowQmac (t : Time) (b : Fin 16) (p : Fin 9) (w : BitVec 41) : RowKeeps (execYarrowQmac t b p w) := by
  exact row_done fun s => .of_kept (kept_issue _ _ _ _ _ _ s)

theorem keeps_execYarrowCmpy (t : Time) (b : Fin 16) (p : Fin 9) (w : BitVec 41) : RowKeeps (execYarrowCmpy t b p w) := by
  exact row_done fun s => .of_kept (kept_issue _ _ _ _ _ _ s)

theorem keeps_execYarrowFtap (t : Time) (b : Fin 16) (p : Fin 9) (w : BitVec 41) : RowKeeps (execYarrowFtap t b p w) := by
  exact row_done fun s => .of_kept (kept_issue _ _ _ _ _ _ s)

theorem keeps_execYarrowMacm (t : Time) (b : Fin 16) (p : Fin 9) (w : BitVec 41) : RowKeeps (execYarrowMacm t b p w) := by
  exact row_done fun s => .of_kept (kept_issue _ _ _ _ _ _ s)

theorem keeps_execYarrowAddAcc (t : Time) (b : Fin 16) (p : Fin 9) (w : BitVec 41) : RowKeeps (execYarrowAddAcc t b p w) := by
  exact row_done fun s => .of_kept (kept_issue _ _ _ _ _ _ s)

theorem keeps_execYarrowSubAcc (t : Time) (b : Fin 16) (p : Fin 9) (w : BitVec 41) : RowKeeps (execYarrowSubAcc t b p w) := by
  exact row_done fun s => .of_kept (kept_issue _ _ _ _ _ _ s)

theorem keeps_execYarrowAddx (t : Time) (b : Fin 16) (p : Fin 9) (w : BitVec 41) : RowKeeps (execYarrowAddx t b p w) := by
  exact row_done fun s => .of_kept (kept_issue _ _ _ _ _ _ s)

theorem keeps_execYarrowSubx (t : Time) (b : Fin 16) (p : Fin 9) (w : BitVec 41) : RowKeeps (execYarrowSubx t b p w) := by
  exact row_done fun s => .of_kept (kept_issue _ _ _ _ _ _ s)

theorem keeps_execYarrowNeg (t : Time) (b : Fin 16) (p : Fin 9) (w : BitVec 41) : RowKeeps (execYarrowNeg t b p w) := by
  exact row_done fun s => .of_kept (kept_issue _ _ _ _ _ _ s)

theorem keeps_execYarrowAbs (t : Time) (b : Fin 16) (p : Fin 9) (w : BitVec 41) : RowKeeps (execYarrowAbs t b p w) := by
  exact row_done fun s => .of_kept (kept_issue _ _ _ _ _ _ s)

theorem keeps_execYarrowClr (t : Time) (b : Fin 16) (p : Fin 9) (w : BitVec 41) : RowKeeps (execYarrowClr t b p w) := by
  exact row_done fun s => .of_kept (kept_issue _ _ _ _ _ _ s)

theorem keeps_execYarrowMova (t : Time) (b : Fin 16) (p : Fin 9) (w : BitVec 41) : RowKeeps (execYarrowMova t b p w) := by
  exact row_done fun s => .of_kept (kept_issue _ _ _ _ _ _ s)

theorem keeps_execYarrowAsh (t : Time) (b : Fin 16) (p : Fin 9) (w : BitVec 41) : RowKeeps (execYarrowAsh t b p w) := by
  exact row_done fun s => .of_kept (kept_issue _ _ _ _ _ _ s)

theorem keeps_execYarrowAshb (t : Time) (b : Fin 16) (p : Fin 9) (w : BitVec 41) : RowKeeps (execYarrowAshb t b p w) := by
  exact row_done fun s => .of_kept (kept_issue _ _ _ _ _ _ s)

theorem keeps_execYarrowTst (t : Time) (b : Fin 16) (p : Fin 9) (w : BitVec 41) : RowKeeps (execYarrowTst t b p w) := by
  exact row_done fun s => .of_kept (kept_issue _ _ _ _ _ _ s)

theorem keeps_execYarrowCfold (t : Time) (b : Fin 16) (p : Fin 9) (w : BitVec 41) : RowKeeps (execYarrowCfold t b p w) := by
  exact row_done fun s => .of_kept (kept_issue _ _ _ _ _ _ s)

theorem keeps_execYarrowBfly (t : Time) (b : Fin 16) (p : Fin 9) (w : BitVec 41) : RowKeeps (execYarrowBfly t b p w) := by
  exact row_done fun s => .of_kept (kept_issue _ _ _ _ _ _ s)

theorem keeps_execYarrowNorm (t : Time) (b : Fin 16) (p : Fin 9) (w : BitVec 41) : RowKeeps (execYarrowNorm t b p w) := by
  exact row_done fun s => .of_kept (kept_issue _ _ _ _ _ _ s)

theorem keeps_execYarrowCvt (t : Time) (b : Fin 16) (p : Fin 9) (w : BitVec 41) : RowKeeps (execYarrowCvt t b p w) := by
  exact row_done fun s => .of_kept (kept_issue _ _ _ _ _ _ s)

theorem keeps_execYarrowBexpX (t : Time) (b : Fin 16) (p : Fin 9) (w : BitVec 41) : RowKeeps (execYarrowBexpX t b p w) := by
  exact row_done fun s => .of_kept (kept_issue _ _ _ _ _ _ s)

theorem keeps_execYarrowBexpAcc (t : Time) (b : Fin 16) (p : Fin 9) (w : BitVec 41) : RowKeeps (execYarrowBexpAcc t b p w) := by
  exact row_done fun s => .of_kept (kept_issue _ _ _ _ _ _ s)

theorem keeps_execYarrowBexpq (t : Time) (b : Fin 16) (p : Fin 9) (w : BitVec 41) : RowKeeps (execYarrowBexpq t b p w) := by
  exact row_done fun s => .of_kept (kept_issue _ _ _ _ _ _ s)

theorem keeps_execYarrowAddX (t : Time) (b : Fin 16) (p : Fin 9) (w : BitVec 41) : RowKeeps (execYarrowAddX t b p w) := by
  exact row_done fun s => .of_kept (kept_issue _ _ _ _ _ _ s)

theorem keeps_execYarrowSubX (t : Time) (b : Fin 16) (p : Fin 9) (w : BitVec 41) : RowKeeps (execYarrowSubX t b p w) := by
  exact row_done fun s => .of_kept (kept_issue _ _ _ _ _ _ s)

theorem keeps_execYarrowCmp (t : Time) (b : Fin 16) (p : Fin 9) (w : BitVec 41) : RowKeeps (execYarrowCmp t b p w) := by
  exact row_done fun s => .of_kept (kept_issue _ _ _ _ _ _ s)

theorem keeps_execYarrowAnd (t : Time) (b : Fin 16) (p : Fin 9) (w : BitVec 41) : RowKeeps (execYarrowAnd t b p w) := by
  exact row_done fun s => .of_kept (kept_issue _ _ _ _ _ _ s)

theorem keeps_execYarrowOr (t : Time) (b : Fin 16) (p : Fin 9) (w : BitVec 41) : RowKeeps (execYarrowOr t b p w) := by
  exact row_done fun s => .of_kept (kept_issue _ _ _ _ _ _ s)

theorem keeps_execYarrowXor (t : Time) (b : Fin 16) (p : Fin 9) (w : BitVec 41) : RowKeeps (execYarrowXor t b p w) := by
  exact row_done fun s => .of_kept (kept_issue _ _ _ _ _ _ s)

theorem keeps_execYarrowLsl (t : Time) (b : Fin 16) (p : Fin 9) (w : BitVec 41) : RowKeeps (execYarrowLsl t b p w) := by
  exact row_done fun s => .of_kept (kept_issue _ _ _ _ _ _ s)

theorem keeps_execYarrowAsr (t : Time) (b : Fin 16) (p : Fin 9) (w : BitVec 41) : RowKeeps (execYarrowAsr t b p w) := by
  exact row_done fun s => .of_kept (kept_issue _ _ _ _ _ _ s)

theorem keeps_execYarrowLsr (t : Time) (b : Fin 16) (p : Fin 9) (w : BitVec 41) : RowKeeps (execYarrowLsr t b p w) := by
  exact row_done fun s => .of_kept (kept_issue _ _ _ _ _ _ s)

theorem keeps_execYarrowMove (t : Time) (b : Fin 16) (p : Fin 9) (w : BitVec 40) : RowKeeps (execYarrowMove t b p w) := by
  exact row_done fun s => .of_kept (kept_issue _ _ _ _ _ _ s)

theorem keeps_execYarrowMovei16 (t : Time) (b : Fin 16) (p : Fin 9) (w : BitVec 40) : RowKeeps (execYarrowMovei16 t b p w) := by
  exact row_done fun s => .of_kept (kept_issue _ _ _ _ _ _ s)

theorem keeps_execYarrowMovei24 (t : Time) (b : Fin 16) (p : Fin 9) (w : BitVec 40) (w2 : BitVec 48) : RowKeeps (execYarrowMovei24 t b p w w2) := by
  exact row_done fun s => .of_kept (kept_issue _ _ _ _ _ _ s)

theorem keeps_execYarrowLdXDirect (t : Time) (b : Fin 16) (p : Fin 9) (w : BitVec 40) : RowKeeps (execYarrowLdXDirect t b p w) := by
  exact row_done fun s => .of_kept (kept_issue _ _ _ _ _ _ s)

theorem keeps_execYarrowLdXLong (t : Time) (b : Fin 16) (p : Fin 9) (w : BitVec 40) (w2 : BitVec 48) : RowKeeps (execYarrowLdXLong t b p w w2) := by
  exact row_done fun s => .of_kept (kept_issue _ _ _ _ _ _ s)

theorem keeps_execYarrowLdYDirect (t : Time) (b : Fin 16) (p : Fin 9) (w : BitVec 40) : RowKeeps (execYarrowLdYDirect t b p w) := by
  exact row_done fun s => .of_kept (kept_issue _ _ _ _ _ _ s)

theorem keeps_execYarrowLdYLong (t : Time) (b : Fin 16) (p : Fin 9) (w : BitVec 40) (w2 : BitVec 48) : RowKeeps (execYarrowLdYLong t b p w w2) := by
  exact row_done fun s => .of_kept (kept_issue _ _ _ _ _ _ s)

theorem keeps_execYarrowStXDirect (t : Time) (b : Fin 16) (p : Fin 9) (w : BitVec 40) : RowKeeps (execYarrowStXDirect t b p w) := by
  exact row_done fun s => .of_kept (kept_issue _ _ _ _ _ _ s)

theorem keeps_execYarrowStXLong (t : Time) (b : Fin 16) (p : Fin 9) (w : BitVec 40) (w2 : BitVec 48) : RowKeeps (execYarrowStXLong t b p w w2) := by
  exact row_done fun s => .of_kept (kept_issue _ _ _ _ _ _ s)

theorem keeps_execYarrowStYDirect (t : Time) (b : Fin 16) (p : Fin 9) (w : BitVec 40) : RowKeeps (execYarrowStYDirect t b p w) := by
  exact row_done fun s => .of_kept (kept_issue _ _ _ _ _ _ s)

theorem keeps_execYarrowStYLong (t : Time) (b : Fin 16) (p : Fin 9) (w : BitVec 40) (w2 : BitVec 48) : RowKeeps (execYarrowStYLong t b p w w2) := by
  exact row_done fun s => .of_kept (kept_issue _ _ _ _ _ _ s)

theorem keeps_execYarrowLdXIndexed (t : Time) (b : Fin 16) (p : Fin 9) (w : BitVec 40) : RowKeeps (execYarrowLdXIndexed t b p w) := by
  exact row_done fun s => .of_kept (kept_issue _ _ _ _ _ _ s)

theorem keeps_execYarrowLdYIndexed (t : Time) (b : Fin 16) (p : Fin 9) (w : BitVec 40) : RowKeeps (execYarrowLdYIndexed t b p w) := by
  exact row_done fun s => .of_kept (kept_issue _ _ _ _ _ _ s)

theorem keeps_execYarrowStXIndexed (t : Time) (b : Fin 16) (p : Fin 9) (w : BitVec 40) : RowKeeps (execYarrowStXIndexed t b p w) := by
  exact row_done fun s => .of_kept (kept_issue _ _ _ _ _ _ s)

theorem keeps_execYarrowStYIndexed (t : Time) (b : Fin 16) (p : Fin 9) (w : BitVec 40) : RowKeeps (execYarrowStYIndexed t b p w) := by
  exact row_done fun s => .of_kept (kept_issue _ _ _ _ _ _ s)

theorem keeps_execYarrowModp (t : Time) (b : Fin 16) (p : Fin 9) (w : BitVec 40) : RowKeeps (execYarrowModp t b p w) := by
  exact row_done fun s => .of_kept (kept_issue _ _ _ _ _ _ s)

theorem keeps_execYarrowBra (t : Time) (b : Fin 16) (p : Fin 9) (w : BitVec 40) : RowKeeps (execYarrowBra t b p w) := by
  exact row_done fun s => .of_kept (kept_issue _ _ _ _ _ _ s)

theorem keeps_execYarrowCall (t : Time) (b : Fin 16) (p : Fin 9) (w : BitVec 40) : RowKeeps (execYarrowCall t b p w) := by
  exact row_done fun s => .of_kept (kept_issue _ _ _ _ _ _ s)

theorem keeps_execYarrowJmp (t : Time) (b : Fin 16) (p : Fin 9) (w : BitVec 40) : RowKeeps (execYarrowJmp t b p w) := by
  exact row_done fun s => .of_kept (kept_issue _ _ _ _ _ _ s)

theorem keeps_execYarrowRti (t : Time) (b : Fin 16) (p : Fin 9) (w : BitVec 40) : RowKeeps (execYarrowRti t b p w) := by
  exact row_done fun s => .of_kept (kept_issue _ _ _ _ _ _ s)

theorem keeps_execYarrowRepImm (t : Time) (b : Fin 16) (p : Fin 9) (w : BitVec 40) : RowKeeps (execYarrowRepImm t b p w) := by
  exact row_done fun s => .of_kept (kept_issue _ _ _ _ _ _ s)

theorem keeps_execYarrowRepLc (t : Time) (b : Fin 16) (p : Fin 9) (w : BitVec 40) : RowKeeps (execYarrowRepLc t b p w) := by
  exact row_done fun s => .of_kept (kept_issue _ _ _ _ _ _ s)

end Sys2Proof.Laws
end

