-- ==== Sys2Proof/Machine/Package.lean ====
section
/-! DEFINITION. The part on its board: supply limits, cooling, internal pulls and the ball map (R673 to R689). No command reads these: they
are what the spec states of the package. -/

namespace Sys2Proof.Machine

/-! Supplies (R673 to R675). -/

/-- The supply rails. -/
inductive Rail where
  | core | vid | sram | aon | ddr | serdesLo | serdesHi | io
  deriving DecidableEq, Repr

/-- The stress that a rail withstands at most, in mV; each withstands -300 mV (R673). -/
def Rail.absMax : Rail → Nat
  | .core => 1000
  | .sram => 1000
  | .aon => 1000
  | .vid => 950
  | .ddr => 1400
  | .serdesLo => 1050
  | .serdesHi => 1450
  | .io => 2160

/-- The nominal voltage in mV, at a DVFS point of some mV (R674). -/
def Rail.nominal (point : Nat) : Rail → Nat
  | .core => point
  | .vid => 750
  | .sram => 800
  | .aon => 800
  | .ddr => 1100
  | .serdesLo => 850
  | .serdesHi => 1200
  | .io => 1800

/-- Whether a voltage in mV lies in a rail's operating range (R674). -/
def Rail.inRange (point mv : Nat) (r : Rail) : Bool :=
  let n := r.nominal point
  match r with
  | .core => n ≤ mv + 30 && mv ≤ n + 30
  | .io => 95 * n ≤ 100 * mv && 100 * mv ≤ 105 * n
  | _ => 97 * n ≤ 100 * mv && 100 * mv ≤ 103 * n

/-- What a rail draws at most at 1.5 GHz and 105 °C: power in mW, current in mA (R675). -/
def Rail.draws : Rail → Nat × Nat
  | .core => (48000, 60000)
  | .vid => (54000, 72000)
  | .sram => (2000, 2500)
  | .ddr => (10000, 9100)
  | .serdesLo => (6000, 7100)
  | .serdesHi => (3000, 2500)
  | .aon => (1500, 1900)
  | .io => (500, 280)

/-- The balls of a rail (R675). -/
def Rail.balls : Rail → Nat
  | .core => 108
  | .vid => 108
  | .sram => 32
  | .ddr => 52
  | .serdesLo => 14
  | .serdesHi => 12
  | .aon => 16
  | .io => 30

/-- The highest temperature at which the board holds the lid top, in 0.01 °C: the grade's junction maximum in °C, device power in W (R683). -/
def lidMax (junction power : Int) : Int := 100 * junction - 8 * power

/-! The ball map (R684 to R688). -/

/-- A signal of a DDR5 subchannel (R686). -/
inductive DdrSignal where
  | dq (n : Nat) | dqsT (n : Nat) | dqsC (n : Nat) | dca (n : Nat) | dckT | dckC | dpar | dcsN (n : Nat)
  deriving DecidableEq, Repr

/-- A ball of a low-speed interface (R687, R688). -/
inductive LowBall where
  | perstN | pcieRefclkP | pcieRefclkN | sdhLos (n : Nat)
  | refclk | tdmRefclk | ppsIn | ppsOut | ref10mIn | bitsIn | bitsOut | synceOut (n : Nat) | tck | tms | tdi | tdo | trstN | cfgsel
  | gpio (n : Nat)
  | spiCsN | spiClk | spiIo (n : Nat) | uartTxd | uartRxd | i2cScl | i2cSda | avsClk | avsMdata | avsSdata
  | wakeN | porstN | wrstN | alertN | thermtripN
  | sapBclk (n : Nat) | sapFsync (n : Nat) | sapDout (n : Nat) | sapDin (n : Nat)
  | pdhRclk (n : Nat) | pdhRdata (n : Nat) | pdhRlos (n : Nat) | pdhTclk (n : Nat) | pdhTdata (n : Nat)
  deriving DecidableEq, Repr

/-- A serial lane: of PCI Express, an Ethernet port or an SDH port (R687). -/
inductive Lane where
  | pcie (n : Nat) | eth (n : Nat) | sdh (n : Nat)
  deriving DecidableEq, Repr

/-- What a ball is. Subchannel A is false; channel-wide balls of DDR5 are 0 RESET_N, 1 ALERT_N, 2 HSCL, 3 HSDA. -/
inductive Ball where
  | vss | supply (r : Rail)
  | ddr (channel : Nat) (b : Bool) (s : DdrSignal) | ddrWide (channel : Nat) (n : Nat)
  | lane (l : Lane) (receive positive : Bool)
  | low (l : LowBall)
  deriving DecidableEq, Repr

/-- The centre of a ball by row index and column, in half millimetres from the centre of the package: x to the right, y upward (R684). -/
def ballCentre (i j : Nat) : Int × Int := (2 * (j : Int) - 55, 55 - 2 * (i : Int))

/-- The rail of a ball that no template names (R685). -/
def railAt (i j : Nat) : Option Rail :=
  let within := fun lo hi => decide (lo ≤ i) && decide (i ≤ hi)
  if 19 ≤ j ∧ j ≤ 36 then
    if within 15 38 && (i + j) % 2 == 0 then some (if i ≤ 26 then .core else .vid) else none
  else if j = 17 ∨ j = 38 then if within 2 53 && i % 2 == 0 then some .ddr else none
  else if j = 18 ∨ j = 37 then
    if within 2 8 then some .serdesLo else if within 9 14 then some .serdesHi else if within 15 30 then some .sram
    else if within 31 38 then some .aon else if within 39 53 then some .io else none
  else none

/-- The template of a DDR5 subchannel by relative row and column (R686). -/
def ddrAt (channel : Nat) (b : Bool) (row col : Nat) : Ball :=
  let g := row - 1
  let sig := fun s => Ball.ddr channel b s
  if row ≤ 10 then
    match col with
    | 2 => sig (.dq (4 * g))
    | 3 => sig (.dq (4 * g + 1))
    | 4 => sig (.dqsT g)
    | 5 => sig (.dqsC g)
    | 6 => sig (.dq (4 * g + 2))
    | 7 => sig (.dq (4 * g + 3))
    | _ => .vss
  else if row = 11 then
    match col with
    | 2 => sig (.dca 0)
    | 3 => sig (.dca 1)
    | 4 => sig .dckT
    | 5 => sig .dckC
    | 6 => sig (.dca 2)
    | 7 => sig (.dca 3)
    | _ => .vss
  else if row = 12 then
    match col with
    | 2 => sig (.dca 4)
    | 3 => sig (.dca 5)
    | 4 => sig (.dca 6)
    | 5 => sig .dpar
    | 6 => sig (.dcsN 0)
    | 7 => sig (.dcsN 1)
    | _ => .vss
  else
    match col with
    | 1 => sig (.dcsN 2)
    | 2 => sig (.dcsN 3)
    | 4 => .ddrWide channel (if b then 2 else 0)
    | 5 => .ddrWide channel (if b then 3 else 1)
    | _ => .vss

/-- The ball of a DDR5 channel at a row index 2 to 53 and a column 1 to 16 or 39 to 54 (R686). -/
def ddrBall (i j : Nat) : Ball :=
  let right := decide (39 ≤ j)
  let j := if right then 55 - j else j
  let channel := (i - 2) / 13 + if right then 4 else 0
  ddrAt channel (decide (9 ≤ j)) ((i - 2) % 13 + 1) (if 9 ≤ j then j - 8 else j)

/-- A lane's ball: transmit in the first row of its group, VSS in the second, receive in the third (R687). -/
def laneBall (l : Nat → Lane) (row col : Nat) : Ball :=
  if row = 1 then .vss else .lane (l (col / 2)) (row == 2) (col % 2 == 0)

/-- The low-speed ball of a row index and column, columns counted from 19 (R688). -/
def lowBall (i k : Nat) : Option LowBall :=
  let pick := fun (l : List LowBall) => l[k]?
  match i with
  | 40 => if k = 14 then none else pick [.refclk, .tdmRefclk, .ppsIn, .ppsOut, .ref10mIn, .bitsIn, .bitsOut, .synceOut 0, .synceOut 1, .tck,
      .tms, .tdi, .tdo, .trstN, .cfgsel, .cfgsel]
  | 42 => if k < 16 then some (.gpio k) else none
  | 44 => pick [.spiCsN, .spiClk, .spiIo 0, .spiIo 1, .spiIo 2, .spiIo 3, .uartTxd, .uartRxd, .i2cScl, .i2cSda, .avsClk, .avsMdata, .avsSdata,
      .wakeN, .porstN, .wrstN, .alertN, .thermtripN]
  | 46 => if k < 16 then some (match k % 4 with
      | 0 => .sapBclk (k / 4)
      | 1 => .sapFsync (k / 4)
      | 2 => .sapDout (k / 4)
      | _ => .sapDin (k / 4)) else none
  | 48 => if k < 16 then some (.pdhRclk k) else none
  | 49 => if k < 16 then some (.pdhRdata k) else none
  | 50 => if k < 16 then some (.pdhRlos k) else none
  | 51 => if k < 16 then some (.pdhTclk k) else none
  | 52 => if k < 16 then some (.pdhTdata k) else none
  | _ => none

/-- The ball at a row index and column; a ball that nothing names is VSS (R685 to R688). -/
def ballAt (i j : Nat) : Ball :=
  let k := j - 19
  let rail := match railAt i j with
    | some r => Ball.supply r
    | none => .vss
  if 2 ≤ i ∧ i ≤ 53 ∧ ((1 ≤ j ∧ j ≤ 16) ∨ (39 ≤ j ∧ j ≤ 54)) then ddrBall i j
  else if 19 ≤ j ∧ j ≤ 36 then
    if i = 1 ∧ j = 35 then .low .pcieRefclkP
    else if i = 1 ∧ j = 36 then .low .pcieRefclkN
    else if i = 3 ∧ j = 35 then .low .perstN
    else if 1 ≤ i ∧ i ≤ 3 ∧ j ≤ 34 then laneBall .pcie (i - 1) k
    else if 5 ≤ i ∧ i ≤ 7 ∧ j ≤ 34 then laneBall (fun n => .pcie (n + 8)) (i - 5) k
    else if 9 ≤ i ∧ i ≤ 11 ∧ j ≤ 26 then laneBall .eth (i - 9) k
    else if 9 ≤ i ∧ i ≤ 11 ∧ 27 ≤ j ∧ j ≤ 34 then laneBall .sdh (i - 9) (j - 27)
    else if i = 12 ∧ 27 ≤ j ∧ j ≤ 34 ∧ j % 2 = 1 then .low (.sdhLos ((j - 27) / 2))
    else match lowBall i k with
      | some l => .low l
      | none => rail
  else rail

/-! Internal pulls (R678, R689). -/

/-- Where the internal pull of an input holds it unconnected: high, low, or none: PORST_N has no pull and CFGSEL is analogue (R678). -/
def LowBall.pull : LowBall → Option Bool
  | .wrstN => some true
  | .wakeN => some true
  | .tms => some true
  | .porstN => none
  | .cfgsel => none
  | .trstN => some false
  | .refclk => some false
  | .tdmRefclk => some false
  | .ppsIn => some false
  | .ref10mIn => some false
  | .bitsIn => some false
  | .tck => some false
  | .tdi => some false
  | .perstN => some false
  | .sdhLos _ => some false
  | .uartRxd => some false
  | .avsSdata => some false
  | .sapDin _ => some false
  | .pdhRclk _ => some false
  | .pdhRdata _ => some false
  | .pdhRlos _ => some false
  | _ => none

end Sys2Proof.Machine
end

