-- ==== Sys2Proof/Tests/Slice0.lean ====
section
/-! SUPPORT. Tests: well-formedness, the worked examples of the spec, and states that meet the hypotheses of every statement. -/

namespace Sys2Proof.Tests

open Sys2Proof.Machine

set_option Elab.async false

/-! States that the tests use. -/

/-- A booted device: READY, the link up, every domain powered, 64 GiB of DRAM in service, a root key and MAC addresses programmed. -/
def live : State :=
  { senak := { ready := true, pcie := { linkUp := true, rate := 16, width := 16, bme := true, held := false } }
    boot := { phase := .running, inReset := 0, otpLoaded := true, trained := true, readyOnce := true }
    rt := {
      power := { powered := -1 }
      mgmt := { lifecycle := 1, otp := 5, rootKey := zeros 32, macs := zeros 24 }
      dram := { fitted := 68719476736, trained := true } } }

/-- A request with parameters. -/
def ask (p : Bytes) : Request := { len := BitVec.ofNat 32 p.length, rsv := zeros 16, params := p }

/-- A block of n bytes with fields, as parameters. -/
def askFields (n : Nat) (l : List (Nat × Nat × Nat)) : Request := ask (block n l)

def legBlock : Bytes := block 96 [(2, 1, 0), (4, 1, 20), (8, 2, 20), (0xA, 2, 200), (0xC, 2, 100), (0x16, 1, 1), (0x17, 1, 3), (0x18, 1, 64),
  (0x21, 1, 4), (0x44, 2, 1024), (0x46, 2, 1), (0x50, 4, 0xFFFFFFFF), (0x54, 4, 0xFFFFFFFF), (0x59, 1, 64)]
def confBlock : Bytes := block 96 [(6, 1, 20), (0xC, 2, 10)]
def vidBlock : Bytes := block 112 [(4, 2, 64), (6, 2, 64), (8, 2, 1000), (0xA, 1, 8), (0xB, 1, 30), (0xC, 1, 1), (0xD, 1, 1), (0xE, 1, 1),
  (0x11, 1, 1), (0x14, 4, 4000), (0x18, 2, 100), (0x1A, 2, 50), (0x24, 2, 10), (0x2E, 1, 1), (0x31, 1, 4), (0x33, 1, 96), (0x54, 2, 1040),
  (0x66, 1, 5), (0x68, 4, 1200)]
def layoutBlock : Bytes := block 8 [(2, 2, 64), (4, 2, 64)]
def outBlock : Bytes := block 8 [(1, 1, 8), (4, 2, 1000)]
def relayBlock : Bytes := block 128 [(0, 2, 5), (3, 1, 1), (5, 1, 4), (6, 1, 96), (0x28, 2, 1050), (0x2A, 2, 1), (0x30, 4, 0xFFFFFFFF),
  (0x34, 4, 0xFFFFFFFF), (0x3E, 1, 5)]
def lineBlock : Bytes := block 24 [(4, 4, 64), (0xE, 1, 1), (0x10, 2, 1)]
def subBlock : Bytes := block 80 [(4, 2, 5), (0xC, 1, 4), (0xE, 1, 96), (0xF, 1, 1), (0x30, 2, 1060), (0x32, 2, 1), (0x38, 4, 0xFFFFFFFF),
  (0x3C, 4, 0xFFFFFFFF), (0x42, 2, 100), (0x44, 1, 5)]
def sdhBlock : Bytes := putAt (block 24 [(1, 1, 1)]) 4 (List.replicate 15 0x41)
def scalerBlock : Bytes := block 520 ((0, 1, 3) :: (List.range 32).flatMap fun i => [(20 + 16 * i, 2, 256), (22 + 16 * i, 2, 256)])
def trib : Bytes := block 8 [(2, 1, 1)]

/-- One object of each versioned kind. -/
def objects : Generation :=
  { legs := [(0, legBlock), (1, putAt (putAt legBlock 0 (le 2 1)) 0x44 (le 2 1026))], confs := [(0, confBlock), (1, confBlock)]
    members := [(0, zeros 8)], routes := [(routeKey 0 0 1, zeros 12)], vids := [(0, vidBlock)], layouts := [(0, layoutBlock), (1, layoutBlock)]
    outs := [(0, outBlock)], relays := [(5, relayBlock)], lines := [(0, lineBlock)], subs := [(0, subBlock)], partitions := [(0, zeros 32)]
    prots := [(0, block 16 [(2, 2, 252)])], xcs := [(xcKey 0 33 34, zeros 8)] }
/-- A generation active, and staged under the next number. -/
def with_ (g : Generation) (s : State) : State := { s with gens := { s.gens with active := { g with number := 1 }, staged := { g with number := 2 } } }
/-- The device with an object of each kind active. -/
def full : State := with_ objects live
def armed : State := { live with gens := { live.gens with armed := some { gen := { number := 3 }, boundary := 0, rollback := false, slot := 0, hostSeq := 0 } } }
def recording : State := live.modRec fun x => { x with seg := some { second := 0, start := 0, gen := 1 } }
def zipping : State := { live with rt := { live.rt with zip := [(0, { state := .full, job := zeros 48 })] } }
def lines : State := full.modTdm fun t => { t with ports := [(0, { block := sdhBlock }), (1, { block := sdhBlock })], lines := [(0, { block := trib }), (1, { block := trib }), (252, { block := trib })] }
def netted : State := live.modNet fun n => { n with ports := [(0, block 32 [(1, 1, 1), (2, 2, 1518)])] }
def quiesced : State := live.modSenak fun h => { h with quiesced := [0] }

def rg : Regs := { x := [1,2,3,4,0x800000,6,7,8], acc := [0x1234567890, 0xFFFFFFFFFFFFF0, 5, 7], p := [10,20,30,40,50,60,70,80], n := [1,2,3,4,5,6,7,8], m := List.replicate 8 0, lc := 5, be := 3, sw := 0x400#24 }
def c0 : Core := { running := true, regs := rg, pc := 7, xmem := wordSet (wordSet [] 10 0x123456) 11 0x800001, ymem := wordSet [] 21 0x654321, ipc := 99, isw := 0xFFFFFF }
def ys (c : Core) : State := full.modDsp fun d => { d with cores := [(1, c)] }
def yz : State := ys c0
def mv : Nat := 4160 * 2^14 + 6464
def W (w : Nat) : BitVec 41 := BitVec.ofNat 41 w
def mm (w : Nat) : List Word24 × List Word24 × Eff := (((yz.advance 5).env 0 1 1).moves w).getD ([],[],{})
def mx (w : Nat) : Move := ((moveOf w).getD none).getD { kind := 0, y := false, ptr := 0, mode := 0 }
def ysr : State := ys { c0 with regs := { rg with p := [10,21,30,40,50,60,70,80] } }
def quiet (e : Time) : State := { live with senak := { live.senak with quiesce := [(3, { deadline := e, slot := 2, hostSeq := 0 })], pending := [{ code := 0x0103, obj := 3, slot := 2, hostSeq := 0, params := [] }] } }
def ringing (q : EvQ) : State := { live with senak := { live.senak with evq := { q with en := true } } }
def ev0 : Event := { code := 0x0180, sev := 3, obj := 5, detail := 7 }
def e0 : Event := { code := 0x180, sev := 3, obj := 5, detail := 7 }
def qf (f : EvQ → EvQ) : State := live.modSenak fun h => { h with evq := f h.evq }
def late1b : State := (live.modClover fun c => { c with items := [(5, { deadline := 0, flow := 7 })] }).modTime fun b => { b with now := 2 * tMs }
def e1 : Enqueue := { port := 3, desc := block 32 [(2, 1, 2), (3, 1, 255), (4, 4, 0xFFFFF)], by_ := none }
def st1 : State := live.modClover fun c => { c with stalled := [(3, e1.desc, none)], pressureFrom := some 0 }
def run1 : State := live.modClover fun c => { c with items := [(4, { flow := 7, state := .inService 2 3 })] }
def clu (f : Cluster → Cluster) : State := modCluster 2 f live
def heavy : State := modCluster 2 (fun c => { c with pos := [], degraded := true }) (with_ { legs := [(0, legBlock)], legAt := [(0, 2)] } live)
def lg (f : Leg → Leg) : State := modLeg 0 f full
def rtp (b0 b1 : Byte) (p : Bytes) : Bytes := [b0, b1, 0, 1, 0, 0, 0, 5, 0, 0, 0, 9] ++ p
def inb (k : Nat) (d : Bytes) (s : State) : State := s.modNet fun n => { n with inbox := [(k, [(0, { data := d })])] }
def full3 : State := with_ { objects with legs := [(0, putAt legBlock 5 [8])] } live
def sr : Bytes := [0x80, 200, 0, 6] ++ zeros 4 ++ [1,2,3,4,5,6,7,8] ++ zeros 12
def vd (x : Vid) : State := full.modVideo fun v => { v with vids := [(0, x)] }
def pg : PendingCmd := { code := 0x0706, obj := 0, slot := 0, hostSeq := 0, params := block 32 [(8, 8, 0x1000)] }
def gst : State := ((vd {}).modVideo fun v => { v with grabs := [(0, ({}, none))] }).modSenak fun h => { h with pending := [pg] }
def encB : Bytes := putAt vidBlock 2 [1]
def fullE (x : Vid) : State := (with_ { objects with vids := [(0, encB)] } live).modVideo fun v => { v with vids := [(0, x)] }
def cod : Coding := { taken := { index := 0, at_ := 0, block := encB, place := 16, source := {} }, idr := true, temporal := 0, switch := false, left := 100000 }
def om (x : OutRun) : State := full.modMallow fun m => { m with outs := [(0, x)] }
def cmp0 : Composing := { index := 3, block := outBlock, id := 0, holds := [], picture := {}, direct := false, concealed := false, regions := [] }
def ib : Bytes := block 64 [(4,1,4),(8,2,4),(0xA,2,2),(0xC,4,4),(0x10,8,0x1000)]
def pi : PendingCmd := { code := 0x0802, obj := 0, slot := 0, hostSeq := 0, params := ib }
def ist (src : Bytes) : State := (full.modMallow fun m => { m with images := [(0, { loading := some (ib, src) })] }).modSenak fun h => { h with pending := [pi] }
def upn : State := (full.modNet fun n => { n with up := [(0, true)], ports := [(0, block 32 [(1, 1, 1), (2, 2, 1518)])] })
def pb : Bytes := block 32 [(8,4,1000000),(0xC,4,1000),(0x14,4,1000)]
def pol : State := (with_ { objects with policers := [(3, pb)] } live).modFwd fun f => { f with policers := [(3, { c := 100 * 16777216 })] }
def rel (r : Relay) : State := (with_ { objects with relays := [(5, putAt relayBlock 0x38 (le 2 100))], subs := [(0, putAt subBlock 2 [0,0,3,0,5,0])] } live).modFwd fun f => { f with relays := [(5, r)], subs := [(0, {state := .forwarding})] }
def tm : State := (with_ { objects with lines := [(0, putAt lineBlock 0x13 [1])] } live)
def lq : Lined := { sub := 0, length := 100, out := { flow := 3, port := 0 }, slot := none }
def wq : State := upn.modFwd fun f => { f with ports := [(0, { queues := [(0, [{ at_ := 0, cost := 100, out := { flow := 3, port := 0, packet := { data := zeros 20 } } }])] })] }
def sq (l : List SecReq) : State := full.modSec fun x => { x with enabled := true, slots := [(3, { kind := 1, key := zeros 32 })], waiting := [(0, l)] }
def gk : Grace := { key := zeros 4, salt := [], win := {}, winC := {}, until_ := 100 }
def ks (op : Nat) : PendingCmd := { code := 0x0A06, obj := 0, slot := 0, hostSeq := 0, params := block 64 [(4, 1, op), (0x1C, 4, 16), (0x20, 8, 0x1000), (0x28, 8, 0x2000)] }
def cr : Crypt := { slot := 0, key := some (zeros 32), iv := zeros 16 }
def pgd (p : Page) : State := { full with rt := { full.rt with sec := { full.rt.sec with user := [(2, p)] } } }
def rc (f : Rec → Rec) : State := full.modRec f
def rcd : Record := { type := 1, object := 2, time := 3 * tS + 5 }
def pcm (c o : Nat) (b : Bytes) : PendingCmd := { code := c, obj := o, slot := 0, hostSeq := 0, params := b }
def pnd (p : PendingCmd) (s : State) : State := s.modSenak fun h => { h with pending := [p] }
def zs : State := pnd (pcm 0x0B40 2 (zeros 48)) { full with rt := { full.rt with zip := [(2, { state := .running, job := block 48 [(8,8,0x1000),(0x20,8,0x3000)], input := zeros 4, jobs := [(0,0,zeros 4)], outLen := 100, outOff := 0x2000 })] } }
def img : Bytes := block 226 [(0,4,0x4D49594C),(4,2,1),(8,2,16),(0xE,2,1),(0x10,4,226)]
def ldp : Bytes := block 32 [(4,4,226),(8,8,0x1000)]
def lds : State := pnd (pcm 0x0C01 2 ldp) { full with rt := { full.rt with dsp := { full.rt.dsp with loading := [(2, img)] }, dram := { full.rt.dram with mem := memWrite [] 0x1000 img } } }
def ydma (d : DmaCh) : State := ys { c0 with dma := [d, {}, {}, {}] }
def yd2 : State := (ydma { busy := true, rows := 1, len := 4, src := 0x1000, dst := 0x1002, snap := [1,2,3,4] }).modDram fun d => { d with mem := memWrite [] 0x1000 [1,2,3,4] }
def hs (p : HspPort) : State := (live.modSenak fun h => { h with pcie := { h.pcie with bme := true } }) |> fun s => { s with rt := { s.rt with hsp := [(3, p)] } }
def npw : State := (hs {}) |> fun s => { s with rt := { s.rt with power := { s.rt.power with powered := 0 } } }
def ring (addr : Nat) (e : Bytes) (s : State) : State := { s with hostMem := memWrite s.hostMem addr e }
def dsc (a n : Nat) : Bytes := le 8 a ++ le 4 n ++ zeros 4
def di : HspDir := { base := 1, log2 := 6, en := true, head := 63, tail := 1 }
def tmb (f : TimeBlk → TimeBlk) : State := live.modTime f
def sv (ph fr : Nat) : Bytes := putAt (TimeBlk.servo {}) 0 [BitVec.ofNat 8 ph, BitVec.ofNat 8 fr]
def lk (f : TimeBlk → TimeBlk) : State := tmb fun b => f { b with servo := sv 1 0, phasePresent := true, state := .locked }
def nrc : State := { live with rt := { live.rt with power := { live.rt.power with refclkOk := false } }, boot := { live.boot with waitRefclk := true } }
def tf (l : Time) : Timed := { launch := l, tolerance := 10, drop := false, packet := {} }
def tq (l : List Timed) : State := (live.modTime fun b => { b with queues := [(0, l)] }).modNet fun n => { n with up := [(0, true)] }
def ft (l : Time) : TimedFrame := { launch := l, flow := 5, data := [1,2,3] }
def dr (f : Dram → Dram) : State := live.modDram f
def tr : State := { live with boot := { live.boot with phase := .booting false, trained := false }, rt := { live.rt with dram := { fitted := 0 } } }
def pw (f : Power → Power) : State := live.modPower f
def vc : VoltChange := { target := 1, writtenAt := 0, raising := true }
def ar : Armed := { gen := { number := 3 }, boundary := 0, rollback := false, slot := 0, hostSeq := 0, waitPower := true }
def bt (f : Boot → Boot) : State := { live with boot := f live.boot, rt := { live.rt with dram := { live.rt.dram with mem := [(5,7)] }, mgmt := { live.rt.mgmt with rollback := 3 } } }
def trial : State := let s := bt fun b => { b with phase := .booting false }; { s with rt := { s.rt with mgmt := { s.rt.mgmt with asTrial := true } } }
def tst : State := pnd (pcm 0x1400 770 []) (live.modTest fun t => { t with running := [(770, (5, 3))] })
def tdm (f : Tdm → Tdm) : State := lines.modTdm f
def sp (p : SdhPort) : State := lines.modTdm fun t => { t with ports := [(0, { p with block := sdhBlock }), (1, { block := sdhBlock })] }
def sf (l : List Nat) : SdhFrame := { patterns := l, b1 := 0, b2 := 0, m1 := 0, k2 := 0, s1 := 0, aus := [], tus := [] }
def xl : State := { lines with gens := { lines.gens with active := { lines.gens.active with xcs := [(5, block 8 [(0,1,2),(4,2,0),(6,2,3)])] } } }
def kx : State := xl.modTdm fun t => { t with lines := [(0, { block := block 8 [(2, 1, 2)] })] }
def e1s : State := lines.modTdm fun t => { t with lines := [(0, { block := block 8 [(2, 1, 1),(3,1,9)], phase := 3 })] }
def t1s : State := lines.modTdm fun t => { t with lines := [(1009, { block := block 8 [(2, 1, 2),(3,1,9)] })] }
def pr (p : Pair) : State := lines.modTdm fun t => { t with pairs := [(0, p)] }
def nt (f : Net → Net) : State := netted.modNet f
def rd (m : Nat) : State := nt fun n => { n with up := [(0, true), (1, true)], pairs := [(0, block 16 [(1,1,m),(4,2,2000),(6,2,400),(8,2,60)])], nodes := [{ pair := 0, mac := 5 }, { pair := 1, mac := 6, last := 50 * tS }] }
def mg (f : Mgmt → Mgmt) : State := { live with rt := { live.rt with mgmt := f live.rt.mgmt } }
def ev (i : Nat) : Nat × LogEntry := (i, { event := { code := 0x180, sev := 1, obj := i, detail := 0 } })
def lg130 : Map LogEntry := (List.range 130).map ev
def tb : Bytes := block 48 [(3,1,0),(0xA,1,2),(0xB,1,1),(0xC,2,100),(0xE,2,100)]
def wOff : State := { live with rt := { live.rt with power := { live.rt.power with powered := 0 } } }
def wRegs : State := live.modSenak fun h => { h with devFault := 63, done := -1, dwinErr := 7, mbxErr := 8, busy := 0x500000003#64, dwinBase := 9, scratch := 0x12345678 }
def wBad : State := live.modDram fun d => { d with corrupt := [(0, (1, 5))] }
def wPrep : State := live.modSenak fun h => { h with preparing := some { code := 0x0201, request := askFields 24 [], arrived := 3 } }
def wCopied : State := full.modFault fun f => { f with journalTick := some 16 }
def wDue : State := live.modClover fun c => { c with items := [(5, { flow := 7 })], cptr := 21 }
def wPast : State := live.modClover fun c => { c with items := [(4, { flow := 7, deadline := 0, state := .inService 2 3 })] }
def wRun (i : Item) (s : State) : State := s.modClover fun c => { c with items := [(4, i)] }
def wStall (s : State) : State := s.modClover fun c => { c with stalled := [(30, e1.desc, none), (35, e1.desc, none)] }
def wLegI : Item := { flow := 0, state := .inService 2 3 }
def wConfI : Item := { flow := 0x2000, state := .inService 2 3 }
def wDecI : Item := { flow := 0x3000, target := 16, began := vidBlock, state := .inService 16 0 }
def wOutI : Item := { flow := 0x4000, target := 25, began := outBlock, state := .inService 25 0 }
def wFlatI : Item := { object := 0, target := 25, state := .inService 25 0 }
def wSps : DecodeResult := { rap := true, sps := some { w := 16, h := 16 }, slices := [{ areas := [(0, 100)] }] }
def wUnit : Assembly := { ts := 0, first := 0, firstUp := 0, units := [[0x65, 1]] }
def wSecReq (n : Nat) : SecReq := .send n false false { flow := 3, port := 0 }
def wPtp (d : Byte) : State := lk fun b => { b with ptpSync := [(1, tS)], ptpOrigin := [(1, tS - 700 * tNs)], stateSince := 0, outliers := d.toNat, servo := putAt b.servo 0x14 (le 4 500) }
def wPtpOn : State := tmb fun b => { b with ptp := [(1, [1, 1])] }
def wAr : Armed := { ar with gen := { number := 3, power := block 48 [(0, 1, 1)] } }
def wPp : State := (lines.modTdm fun t => { t with lines := [(1011, { block := block 8 [(2, 1, 3)] })] })
def wPort : State := { wPp with gens := { lines.gens with active := { lines.gens.active with xcs := [(5, block 8 [(0,1,2),(4,2,0),(6,2,3)])] } } }
def yflow : Core := { c0 with pc := 0, prog := [] }
def full2 : State := with_ { objects with legs := [(0, putAt legBlock 0x1E (le 2 100))] } live
def full4 (x : Vid) : State := (with_ { objects with vids := [(0, putAt vidBlock 0x26 (le 2 100))] } live).modVideo fun v => { v with vids := [(0, x)] }
def wSame : List Bytes := (List.range 40).map fun i => le 2 i
def wSnap : State := { live with snap := some { rt := {}, stats := [], gen := {}, left := {}, leftStats := [], boundary := 0, expires := 7 } }

/-! Well-formedness: each check refuses a term that breaks it, and the terms that the other tests use pass. -/

theorem test_wf_accepts : (Instr.sysNop (ask [1, 2, 3])).wf = true ∧ (Instr.bar0RegisterWrite 0xFFFFFF [7]).wf = true ∧
    (Instr.bar2Access (.read (2 ^ 30 - 1) 1)).wf = true ∧ (Instr.thermalSample 0 (List.replicate 16 25)).wf = true := by decide +kernel

theorem test_wf_refuses_reserved_length : (Instr.sysNop { ask [] with rsv := zeros 15 }).wf = false := by decide +kernel
theorem test_wf_refuses_long_parameters : (Instr.sysNop (ask (zeros 993))).wf = false := by decide +kernel
theorem test_wf_refuses_bar0_beyond : (Instr.bar0RegisterWrite 0xFFFFFF [7, 8]).wf = false := by decide +kernel
theorem test_wf_refuses_bar0_empty : (Instr.bar0RegisterWrite 0 []).wf = false := by decide +kernel
theorem test_wf_refuses_bar0_read_empty : (Instr.bar0ReadDomainNotReady 0 ⟨0x200000, 0⟩).wf = false := by decide +kernel
theorem test_wf_refuses_bar0_read_beyond : (Instr.bar0ReadDomainNotReady 0 ⟨0xFFFFFC, 5⟩).wf = false := by decide +kernel
theorem test_wf_refuses_bar2_read_empty : (Instr.bar2Access (.read 0 0)).wf = false := by decide +kernel
theorem test_wf_refuses_bar2_read_beyond : (Instr.bar2Access (.read (2 ^ 30 - 1) 2)).wf = false := by decide +kernel
theorem test_wf_refuses_bar2_write_empty : (Instr.bar2Access (.write 0 [])).wf = false := by decide +kernel
theorem test_wf_refuses_bar2_write_beyond : (Instr.bar2Access (.write (2 ^ 30 - 1) [1, 2])).wf = false := by decide +kernel
theorem test_wf_refuses_short_descriptor : (Instr.workItemEnqueue 0 { port := 0, desc := zeros 31 }).wf = false := by decide +kernel
theorem test_wf_refuses_short_line : (Instr.dramRequest 0 0 [{ line := 0, write := some (zeros 63) }] .good).wf = false := by decide +kernel
theorem test_wf_refuses_few_sensors : (Instr.thermalSample 0 (List.replicate 15 25)).wf = false := by decide +kernel

/-! Steps and values that the spec writes out, family by family. -/

/-- What one step from a state leaves, as a function of the state, with a command put in front of the queue. -/
def after (i : Instr) (s : State) : State :=
  match step { s with pending := [i] } with
  | .next t => t
  | _ => s

/-- SYS.NOP in slot 3 (R53, R76): OK, the host's sequence number, three bytes of data, the first sequence number, and DONE. -/
theorem test_nop_answers : let t := after (.sysNop { ask [1, 2, 3] with slot := 3, hostSeq := 9 }) live
    memRead t.senak.slots 0xC00 35 = le 2 0 ++ le 2 0 ++ le 4 9 ++ le 4 0 ++ le 4 3 ++ le 4 1 ++ zeros 12 ++ [1, 2, 3] ∧
    t.senak.done = 8 := by decide +kernel

/-- GEN.DISCARD takes no parameters (R101): with one it answers BAD_LENGTH (R62). -/
theorem test_discard_refuses_parameters : memRead (after (.genDiscard (ask [1])) live).senak.slots 2 2 = le 2 Status.badLength.code := by
  decide +kernel

/-- The worked example of the event ring (R68 to R70): entry 4,094 takes TAIL to 4,095, entry 4,095 takes it to 0 and turns PHASE. -/
theorem test_ring_example :
    let t := after (.eventRingWrite 0) (ringing { head := 4094, tail := 4094, backlog := [ev0, ev0] })
    let u := after (.eventRingWrite 0) t
    t.senak.evq.tail = 4095 ∧ t.senak.evq.phase = true ∧ u.senak.evq.tail = 0 ∧ u.senak.evq.phase = false := by decide +kernel

/-- The worked example of "Commit": prepared at 241.900 ms the earliest boundary is 243 ms, so the time given, 250 ms, stands. -/
theorem test_commit_boundary_example : earliest (241900 * tUs) = 243 * tMs ∧
    commitBoundary (block 24 [(0, 1, 1), (0x10, 4, 250000000)]) (241900 * tUs) = 250 * tMs := by decide +kernel

/-- The worked example of "Commit" (R28, R30): an Opus fullband leg with tone detection costs 14.8 core-µs, a membership 0.3. -/
theorem test_leg_cost_example : legCost (block 96 [(3, 1, 7), (0x1C, 1, 1)]) = 148 ∧ confCharge objects 0 = 3 := by decide +kernel

/-- The worked example of "Commit": at 0.9 GHz a cluster of eight cores admits 4,080 core-µs, in units of 0.1 core-µs. -/
theorem test_cluster_limit_example : clusterLimit live.rt.fault 2 0 = 40800 := by decide +kernel

/-- The worked example of "Picture buffers" (R234): nine buffers of 3,227,648 bytes. -/
theorem test_vref_example :
    vidBytes (block 112 [(4, 2, 1920), (6, 2, 1080), (8, 2, 30000), (0xA, 1, 8), (0xC, 1, 4), (0x22, 2, 100)]) = 29048832 := by
  decide +kernel

/-- The worked example of "Rate control": the I floor row of a 1,920-wide H.264 picture costs 1,464 bits. -/
theorem test_floor_row_example : floorRowBits 0 120 true = 1464 := by decide +kernel

/-- The worked example of "Address mapping" (R569): channel 1, subchannel 1, rank 0, bank group 4, bank 0, row 0x48D1. -/
theorem test_dram_map_example : let d : Dram := { fitted := 2 ^ 38 }
    (d.ctlOf 0x001234567A40, d.rankOf 0x001234567A40, d.bankOf 0x001234567A40, d.rowOf 0x001234567A40) = (3, 0, 16, 0x48D1) := by
  decide +kernel

/-- REC with 2 TiB fitted and 24 GiB reserved (the worked example of "The ring"): 2,173,253,451,776 bytes. -/
theorem test_rec_size_example : regionSize { fitted := 2 ^ 41 } 6 = 2173253451776 := by decide +kernel

/-- The worked example of R462: bits 54 to 45 equal bit 55, so the headroom is 2. -/
theorem test_headroom_example : headroom 0x00180000000000#56 = 2 := by decide +kernel

/-- NORM of ACC2 into X3 (R463): 2 and 0x00_6000_0000_0000. -/
theorem test_norm_example :
    let t := after (.yarrowNorm 5 0 1 (W (2 * 2 ^ 39 + 3 * 2 ^ 36))) (ys { c0 with regs := { rg with acc := [0, 0, 0x00180000000000#56, 0] } })
    (((t.core 1).landed.acc.getD 2 0, (t.core 1).landed.x.getD 3 0)) = (0x00600000000000#56, 2#24) := by decide +kernel

/-- The worked example of circular addressing (R426). -/
theorem test_circular_example : stepPointer 0x5200A0 0x00129C 6 = 0x001202 ∧ stepPointer 0x5200A0 0x001202 6 = 0x001208 ∧
    stepPointer 0x5200A0 0x001200 (-1) = 0x00129F := by decide +kernel

/-- The worked example of bit-reversed addressing (R426): offsets 0, 8, 4, 12, 2, 10, 6, 14, 1, 9, 5, 13, 3, 11, 7 and 15. -/
theorem test_bit_reversed_example : (List.range 16).map (fun i => formAddress 0x800004 (BitVec.ofNat 24 (0x2000 + i)) - 0x2000) =
    [0, 8, 4, 12, 2, 10, 6, 14, 1, 9, 5, 13, 3, 11, 7, 15] := by decide +kernel

/-- The worked example of "The servo": y after measurements 1 to 8, in units of 0.001 ppb. -/
theorem test_servo_example :
    let th := [2000, 2000, 1400, 800, 380, 140, 26, -16]
    let b := th.foldl (fun s (x : Int) => phaseMeasure (x * tNs) s) (live.modTime fun b => { b with state := .acquiring })
    (b.rt.time.y + 50) / 100 = -20078 ∧ b.rt.time.lockCount = 2 := by decide +kernel

/-- A second doorbell for a busy slot is refused and counted (R55). -/
theorem test_doorbell_busy : let t := after (.mbxRing 0 5) (after (.mbxRing 0 5) live)
    t.senak.busy = 32 ∧ t.senak.doorbells.length = 1 ∧ t.senak.mbxErr = 1 := by decide +kernel

/-- A write of 1 clears DONE, a write of 0 leaves it (R54). -/
theorem test_done_write_one_clears : (after (.mbxDoneClear false 5) (live.modSenak fun h => { h with done := 7 })).senak.done = 2 := by
  decide +kernel

/-- After reset the device is not ready and no slot holds a byte other than 0 (R48, R53). -/
theorem test_reset : State.reset.senak.ready = false ∧ memRead State.reset.senak.slots 0 64 = zeros 64 := by decide +kernel

/-- An empty queue leaves the device as it is (log 1). -/
theorem test_idle : step State.reset = .next State.reset := rfl

/-- A word and the sign in byte 3 of its container (R416). -/
theorem test_word_of_container : wordAt (wordSet [] 3 0x800001#24) 3 = 0x800001#24 ∧ memGet (wordSet [] 3 0x800001#24) 15 = 0xFF#8 := by
  decide +kernel

/-- The worked examples of "Ball positions" (R684, R686, R687) and of R683: W42 at (+14.5 mm, +9.5 mm), G26, and 90 °C at 125 W. -/
theorem test_ball_examples : ballAt 18 42 = .ddr 5 true (.dqsC 3) ∧ ballCentre 18 42 = (29, 19) ∧
    ballAt 7 26 = .lane (.pcie 11) true false ∧ lidMax 100 125 = 9000 := by decide +kernel

/-- R675 counts the balls that the map of R685 gives each rail. -/
theorem test_rail_balls : ([Rail.core, .vid, .sram, .aon, .ddr, .serdesLo, .serdesHi, .io].map fun r =>
    ((List.range 54).flatMap fun i => (List.range 54).filter fun j => ballAt (i + 1) (j + 1) == .supply r).length) =
    [Rail.core, .vid, .sram, .aon, .ddr, .serdesLo, .serdesHi, .io].map Rail.balls := by decide +kernel

/-! Witnesses: for every statement with hypotheses, values that meet them, clause by clause, at an end of a range where the clause has one. -/

/-- A command's checks pass, every memory is canonical, and fewer than 16 commands are pending. -/
def meets (c : Cmd) (r : Request) (s : State) : Bool := c.passes r s && s.memWf && decide (s.senak.pending.length < 16)

def isOk {α β : Type} : Except α β → Bool
  | .ok _ => true
  | .error _ => false

/-- A device with no engine in its place. -/
def bare : State := full.modFault fun f => { f with places := [] }

/-- A line with timeslot signalling. -/
def framedLine : State := full.modTdm fun t => { t with ports := [(0, { block := sdhBlock })], lines := [(1, { block := block 8 [(2, 1, 1), (3, 1, 2)] })] }

def toField : Request := ask ([2, 0, 0, 0, 0, 0, 0, 0] ++ le 8 Config.deviceId.toNat)

theorem safe_of {s : State} (h : s.memWf = true) : Safe s := h

theorem field_after (d : Nat) (h : d < 2 ^ 64) : u64 ([2, 0, 0, 0, 0, 0, 0, 0] ++ le 8 d) 8 = d := by
  simp only [u64, uN, u8, le, List.cons_append, List.nil_append, List.getD_cons_succ, List.getD_cons_zero, BitVec.toNat_ofNat]
  omega

/-- A move of the life cycle that names the device's identifier passes its checks. -/
theorem lifecycle_passes : cmdMgmtLifecycle.passes toField live = true := by
  have h : u64 toField.params 8 = Config.deviceId.toNat := field_after _ Config.deviceId.isLt
  simp only [Cmd.passes, Cmd.verdict, Cmd.allFails, cmdMgmtLifecycle, h, bne_self_eq_false]
  decide +kernel

theorem thermal_set_passes : cmdPwrThermalSet.passes (askFields 4 [(0, 1, 90)]) live = true := by
  simp only [Cmd.passes, Cmd.verdict, Cmd.allFails, cmdPwrThermalSet, gradeMax]
  cases Config.gradeI <;> decide +kernel

theorem shared_use (n : Nat) : ({ items := List.replicate n (0, { flow := 7 }) } : Clover).sharedUse = n := by
  simp [Clover.sharedUse]

theorem shared_beside_spilled (n : Nat) :
    ({ items := (1, { flow := 7, state := .spilled }) :: List.replicate n (0, { flow := 7 }) } : Clover).sharedUse = n := by
  simp [Clover.sharedUse]

theorem spilled_beside (n : Nat) :
    ({ items := (1, { flow := 7, state := .spilled }) :: List.replicate n (0, { flow := 7 }) } : Clover).spilled ≠ 0 := by
  simp [Clover.spilled]

/-- A parallel operation of a Yarrow core issues with every bit of its mask set and no moves. -/
def runs (op mask : Nat) : Bool :=
  issuing yz 0 1 == some 1 && fetches (yz.core 1) [op * 2 ^ 41 + (W (mask * 2 ^ 28)).toNat] &&
  (yz.core 1).delay.isNone && (yz.core 1).repeat_.isNone && (yz.core 1).ctrlLate.isEmpty &&
  bits (W (mask * 2 ^ 28)).toNat 40 28 &&& mask == bits (W (mask * 2 ^ 28)).toNat 40 28 &&
  (((yz.advance 5).env 0 1 1).moves (W (mask * 2 ^ 28)).toNat).isSome

theorem witness_StepRunsTheFront :
    ∃ (s : State), s.pending = [] :=
  ⟨State.reset, by decide +kernel⟩

theorem witness_MemoryStaysCanonical :
    ∃ (s t : State), Safe s ∧ step s = .next t :=
  ⟨{ live with pending := [.sysNop (ask [1])] }, _, safe_of (by decide +kernel), rfl⟩

theorem witness_FailingCommands :
    (∃ s : State, Safe s ∧ s.senak.ready = false) ∧
    (∃ s : State, Safe s ∧ s.senak.preparing ≠ none) ∧
    (∃ (r : Request) (s : State) (f : Fail), SenakRow cmdGenDiscard .genDiscard ∧ Safe s ∧ s.senak.ready = true ∧ s.senak.preparing = none ∧
      cmdGenDiscard.verdict r s = some f) ∧
    (∃ (r : Request) (s : State), SenakRow cmdTestRun .testRun ∧ Safe s ∧ s.senak.ready = true ∧ s.senak.preparing = none ∧
      cmdTestRun.verdict r s = none ∧ (cmdTestRun.effect r (startCmd r s)).status = .pending ∧ 16 ≤ s.senak.pending.length) :=
  ⟨⟨State.reset, safe_of (by decide +kernel), by decide +kernel⟩,
    ⟨live.modSenak fun h => { h with preparing := some { code := 3, request := ask [], arrived := 0 } }, safe_of (by decide +kernel), by decide +kernel⟩,
    ⟨ask [1], live, (.badLength, 0), .genDiscard, safe_of (by decide +kernel), by decide +kernel⟩,
    ⟨askFields 4 [(2, 1, 1)], quiesced.modSenak fun h => { h with pending := List.replicate 16 { code := 0, obj := 0, slot := 0, hostSeq := 0, params := [] } }, .testRun, safe_of (by decide +kernel), by decide +kernel⟩⟩

theorem witness_RaisedEvents :
    (∃ (e : Event) (s : State), ¬ (s.rt.mgmt.level = 1 ∧ absentAtLevel1 e.code = true) ∧ maskAllows s.senak.mask e = true ∧ s.senak.evq.marker = 0 ∧
      s.senak.evq.backlog.length < 255) ∧
    (∃ (e : Event) (s : State), ¬ (s.rt.mgmt.level = 1 ∧ absentAtLevel1 e.code = true) ∧ maskAllows s.senak.mask e = true ∧
      (s.senak.evq.marker ≠ 0 ∨ 255 ≤ s.senak.evq.backlog.length)) ∧
    (∃ (e : Event) (s : State), maskAllows s.senak.mask e = false) ∧
    (∃ (e : Event) (s : State), ¬ (s.rt.mgmt.level = 1 ∧ absentAtLevel1 e.code = true) ∧ s.rt.mgmt.threshold ≤ e.sev) ∧
    (∃ (e : Event) (s : State), e.sev < s.rt.mgmt.threshold) ∧
    (∃ (e : Event) (s : State), s.rt.mgmt.level = 1 ∧ absentAtLevel1 e.code = true) :=
  ⟨⟨e0, qf fun q => { q with backlog := List.replicate 254 e0 }, by decide +kernel⟩,
    ⟨e0, qf fun q => { q with backlog := List.replicate 255 e0 }, by decide +kernel⟩,
    ⟨{ e0 with code := 0x0481, sev := 0 }, { live with senak := { live.senak with mask := List.replicate 32 255 } }, by decide +kernel⟩,
    ⟨e0, live, by decide +kernel⟩,
    ⟨{ e0 with sev := 0 }, live.modMgmt fun m => { m with threshold := 1 }, by decide +kernel⟩,
    ⟨{ e0 with code := 0x0781 }, live.modMgmt fun m => { m with level := 1 }, by decide +kernel⟩⟩

theorem witness_BlockFields :
    ∃ (n : Nat) (l : List (Nat × Nat × Nat)), (∀ (f : Nat × Nat × Nat), f ∈ l → f.fst + f.snd.fst ≤ n) ∧
      (List.Pairwise (fun (f g : Nat × Nat × Nat) ↦ f.fst + f.snd.fst ≤ g.fst ∨ g.fst + g.snd.fst ≤ f.fst) l) :=
  ⟨8, [(0,2,77777),(4,4,5)], by decide +kernel⟩

theorem witness_DiscardReturnsTheStaged :
    ∃ (r : Request) (s : State), Safe s ∧ cmdGenDiscard.passes r s = true :=
  ⟨ask [], armed, safe_of (by decide +kernel), by decide +kernel⟩

theorem witness_ReleaseMovesDrain :
    (∃ (r : Request) (s : State), Safe s ∧ cmdRecRelease.passes r s = true) ∧
    (∃ (r : Request) (s : State), Safe s ∧ s.senak.ready = true ∧ s.senak.preparing = none ∧ s.rt.recorder.sealedEnd < u64 r.params 0 ∧
      (∀ (f : Fail), f ∈ cmdRecRelease.allFails r (startCmd r s) → 4 ≤ f.fst.rank)) :=
  ⟨⟨ask (le 8 128), live.modRec fun r => { r with sealedEnd := 256 }, safe_of (by decide +kernel), by decide +kernel⟩,
    ⟨ask (le 8 512), live.modRec fun r => { r with sealedEnd := 256 }, safe_of (by decide +kernel), by decide +kernel⟩⟩

theorem witness_SysGenCommands :
    (([meets cmdSysNop (ask [1, 2, 3]) live,
      meets cmdSysInfo (ask []) live,
      meets cmdSysReset (askFields 8 [(4, 4, 1000)]) live,
      meets cmdSysEventMask (askFields 32 [(1, 1, 3)]) live,
      meets cmdSysQuiesce (askFields 8 [(4, 4, 1000)]) live,
      meets cmdSysStats (askFields 4 [(0, 1, 1)]) live,
      meets cmdGenStatus (ask []) live,
      meets cmdGenCancel (ask []) armed,
      meets cmdGenSnapshot (askFields 4 []) live].all id) = true) ∧
    ((meets cmdSysQuiesce (askFields 8 [(1, 1, 1)]) (quiesced) && (fun r s => u8 r.params 1 != 0 && (quiescing s (u8 r.params 0)).isEmpty) (askFields 8 [(1, 1, 1)]) (cmdSysQuiesce.acting (askFields 8 [(1, 1, 1)]) (quiesced))) = true) ∧
    ((meets cmdGenSnapshot (askFields 4 [(0, 1, 1)]) ({ live with snap := some { rt := {}, stats := [], gen := {}, left := {}, leftStats := [], boundary := 0, expires := 7 } }) && (fun r _ => u8 r.params 0 != 0) (askFields 4 [(0, 1, 1)]) (cmdGenSnapshot.acting (askFields 4 [(0, 1, 1)]) ({ live with snap := some { rt := {}, stats := [], gen := {}, left := {}, leftStats := [], boundary := 0, expires := 7 } }))) = true) ∧
    (armed.gens.armed.isSome = true) :=
  ⟨by decide +kernel,
    by decide +kernel,
    by decide +kernel,
    by decide +kernel⟩

theorem witness_GenArms :
    (([meets cmdGenCommit (askFields 24 []) live,
      meets cmdGenRollback (askFields 4 []) ({ live with gens := { live.gens with previous := some {} } })].all id) = true) ∧
    (isOk (admitGen (startCmd (askFields 24 []) live) live.gens.staged) = true) ∧
    (isOk (admitGen (startCmd (askFields 4 []) live) { ({} : Generation) with changes := 0 }) = true) ∧
    (meets cmdGenCommit (askFields 24 []) bare = true ∧ isOk (admitGen (startCmd (askFields 24 []) bare) bare.gens.staged) = false) :=
  ⟨by decide +kernel,
    by decide +kernel,
    by decide +kernel,
    by decide +kernel⟩

theorem witness_SchedFaultDspCommands :
    ([meets cmdSchedStatus (ask []) live,
      meets cmdSchedStats (askFields 4 [(0, 1, 1)]) live,
      meets cmdSchedFlow (askFields 4 []) live,
      meets cmdFaultStatus (askFields 4 []) live,
      meets cmdFaultStats (askFields 4 [(0, 1, 1)]) live,
      meets cmdFaultInject (askFields 8 [(2, 1, 1)]) live,
      meets cmdDspPartition (askFields 32 [(2, 2, 1)]) live,
      meets cmdDspLoad (askFields 16 []) live,
      meets cmdDspQuery (askFields 4 []) full,
      meets cmdDspStatus (askFields 4 []) live].all id) = true :=
  by decide +kernel

theorem witness_LegConfRouteCommands :
    (([meets cmdLegSet (ask legBlock) full,
      meets cmdLegDelete (askFields 4 []) (with_ { legs := [(0, legBlock)] } live),
      meets cmdLegDetector (askFields 16 [(6, 1, 5), (8, 2, 300), (10, 2, 10)]) live,
      meets cmdLegQuery (askFields 4 []) full,
      meets cmdLegStats (askFields 4 [(2, 1, 1)]) full,
      meets cmdLegTonePlay (askFields 48 [(11, 1, 1), (12, 2, 100)]) full,
      meets cmdLegToneStop (askFields 4 []) full,
      meets cmdConfSet (ask confBlock) live,
      meets cmdConfDelete (askFields 4 [(0, 2, 1)]) full,
      meets cmdConfMember (askFields 8 []) full,
      meets cmdConfRemove (askFields 4 []) full,
      meets cmdConfQuery (askFields 4 []) full,
      meets cmdConfMembers (askFields 4 []) full,
      meets cmdConfStatus (askFields 4 [(2, 1, 1)]) full,
      meets cmdRouteSet (askFields 12 [(2, 2, 1)]) full,
      meets cmdRouteDelete (askFields 8 [(4, 2, 1)]) full,
      meets cmdRouteList (askFields 4 []) full,
      meets cmdRouteSapSet (askFields 8 [(4, 1, 2), (5, 1, 16), (6, 1, 16)]) live,
      meets cmdRouteSapQuery (askFields 4 []) live].all id) = true) ∧
    ((meets cmdLegToneStop (askFields 4 []) (modLeg 0 (fun l => { l with toneNext := some (some (zeros 48)) }) full) && (fun r s => (mgetD s.rt.audio.legs (u16 r.params 0) {}).toneNext.isSome) (askFields 4 []) (cmdLegToneStop.acting (askFields 4 []) (modLeg 0 (fun l => { l with toneNext := some (some (zeros 48)) }) full))) = true) :=
  ⟨by decide +kernel,
    by decide +kernel⟩

theorem witness_VidLayoutOutCommands :
    (([meets cmdVidSet (ask vidBlock) full,
      meets cmdVidDelete (askFields 4 []) full,
      meets cmdVidParamsets (askFields 4 []) full,
      meets cmdVidQuery (askFields 4 []) full,
      meets cmdVidStats (askFields 4 [(2, 1, 1)]) full,
      meets cmdVidKeyframe (askFields 4 []) full,
      meets cmdVidGrab (askFields 16 [(4, 4, 65536)]) full,
      meets cmdLayoutSet (ask layoutBlock) live,
      meets cmdLayoutLayer (askFields 36 []) full,
      meets cmdLayoutImage (askFields 24 [(8, 2, 64), (10, 2, 64), (12, 4, 64)]) full,
      meets cmdLayoutScaler (ask scalerBlock) full,
      meets cmdLayoutGamma (askFields 516 []) full,
      meets cmdLayoutDelete (askFields 4 [(0, 2, 1)]) full,
      meets cmdLayoutQuery (askFields 4 []) full,
      meets cmdOutSet (ask outBlock) full,
      meets cmdOutRegion (askFields 16 [(8, 2, 8), (10, 2, 8)]) full,
      meets cmdOutDelete (askFields 4 []) full,
      meets cmdOutQuery (askFields 4 []) full,
      meets cmdOutStats (askFields 4 [(1, 1, 1)]) full,
      meets cmdOutSignatures (askFields 4 []) full].all id) = true) ∧
    ((meets cmdVidKeyframe (askFields 4 []) (with_ { vids := [(0, putAt vidBlock 2 [1])] } live) && (fun r s => u8 (mgetD s.gens.active.vids (u16 r.params 0) []) 2 == 1) (askFields 4 []) (cmdVidKeyframe.acting (askFields 4 []) (with_ { vids := [(0, putAt vidBlock 2 [1])] } live))) = true) :=
  ⟨by decide +kernel,
    by decide +kernel⟩

theorem witness_FwdCommands :
    ([meets cmdFwdRelaySet (ask relayBlock) full,
      meets cmdFwdSubSet (ask subBlock) full,
      meets cmdFwdLineSet (ask lineBlock) full,
      meets cmdFwdPolicerSet (askFields 32 [(8, 4, 1), (12, 4, 1536)]) live,
      meets cmdFwdQueueSet (askFields 16 [(2, 2, 1), (4, 4, 16384)]) live,
      meets cmdFwdColourMap (askFields 64 []) live,
      meets cmdFwdDelete (askFields 8 [(0, 1, 1)]) full,
      meets cmdFwdQuery (askFields 8 [(0, 1, 1)]) full,
      meets cmdFwdSubStats (askFields 4 [(2, 1, 1)]) full,
      meets cmdFwdPortStats (askFields 4 [(1, 1, 1)]) live].all id) = true :=
  by decide +kernel

theorem witness_KeyCommands :
    (([meets cmdKeyStatus (ask []) live,
      meets cmdKeyErase (askFields 8 [(4, 4, 1)]) live,
      meets cmdKeyQuery (askFields 4 []) live,
      meets cmdKeyBind (askFields 8 []) live,
      meets cmdKeyDerive (askFields 24 [(4, 1, 4), (5, 1, 32)]) live,
      meets cmdKeyQueues (askFields 4 []) live,
      meets cmdKeyStats (askFields 4 [(0, 1, 1)]) live,
      meets cmdKeyInstall (askFields 88 [(4, 1, 1), (5, 1, 1), (20, 1, 16), (21, 1, 14)]) live,
      meets cmdKeyCrypt (askFields 64 []) live].all id) = true) ∧
    (isOk (installMaterial (block 88 [(4, 1, 1), (5, 1, 1), (0x14, 1, 16), (0x15, 1, 14)]) live.rt.sec) = true) :=
  ⟨by decide +kernel,
    by decide +kernel⟩

theorem witness_RecZipCommands :
    (([meets cmdRecConfig (askFields 4 []) live,
      meets cmdRecSelect (askFields 8 [(1, 1, 1), (4, 1, 1)]) full,
      meets cmdRecQuery (askFields 4 []) live,
      meets cmdRecStatus (ask []) live,
      meets cmdRecRead (askFields 24 [(16, 4, 4096)]) live,
      meets cmdRecVerify (askFields 48 []) live,
      meets cmdRecMark (askFields 4 []) recording,
      meets cmdRecClear (ask []) live,
      meets cmdZipStart (askFields 48 [(2, 1, 1), (20, 4, 4096), (32, 8, 8192)]) live,
      meets cmdZipResume (askFields 16 [(4, 4, 4096), (8, 8, 8192)]) zipping,
      meets cmdZipReset (askFields 4 []) live,
      meets cmdZipQuery (askFields 4 []) live].all id) = true) ∧
    ((meets cmdRecRead (askFields 24 [(16, 4, 4096)]) (live.modRec fun x => { x with sealedEnd := 256 }) && (fun r s => readBytes r.params s != 0) (askFields 24 [(16, 4, 4096)]) (cmdRecRead.acting (askFields 24 [(16, 4, 4096)]) (live.modRec fun x => { x with sealedEnd := 256 }))) = true) :=
  ⟨by decide +kernel,
    by decide +kernel⟩

theorem witness_TdmCommands :
    (([meets cmdTdmSdhSet (ask sdhBlock) live,
      meets cmdTdmPdhSet (askFields 8 []) live,
      meets cmdTdmTribSet (askFields 8 []) lines,
      meets cmdTdmXcSet (askFields 8 [(4, 2, 1), (6, 2, 2)]) lines,
      meets cmdTdmBypassSet (askFields 132 [(2, 1, 2), (4, 2, 1), (8, 2, 2)]) lines,
      meets cmdTdmProtSet (askFields 16 [(2, 2, 252)]) (with_ {} lines),
      meets cmdTdmProtCmd (askFields 4 []) lines,
      meets cmdTdmDelete (askFields 8 [(0, 1, 2)]) lines,
      meets cmdTdmQuery (askFields 8 [(0, 1, 2)]) lines,
      meets cmdTdmStatus (askFields 4 []) live,
      meets cmdTdmCounters (askFields 4 [(1, 1, 1)]) live,
      meets cmdTdmCas (askFields 4 []) live].all id) = true) ∧
    ((meets cmdTdmCas (askFields 4 [(0, 2, 32), (2, 1, 1)]) (framedLine) && (fun r _ => u8 r.params 2 == 1) (askFields 4 [(0, 2, 32), (2, 1, 1)]) (cmdTdmCas.acting (askFields 4 [(0, 2, 32), (2, 1, 1)]) (framedLine))) = true) :=
  ⟨by decide +kernel,
    by decide +kernel⟩

theorem witness_NetCommands :
    ([meets cmdNetPortSet (askFields 32 [(2, 2, 1518)]) live,
      meets cmdNetPairSet (askFields 16 [(4, 2, 400), (6, 2, 2000), (8, 2, 60)]) live,
      meets cmdNetClassSet (askFields 32 [(1, 1, 2), (24, 2, 64)]) live,
      meets cmdNetQuery (askFields 4 []) live,
      meets cmdNetTsRead (askFields 4 [(1, 1, 1)]) live,
      meets cmdNetSynceSet (askFields 4 [(2, 1, 1)]) live,
      meets cmdNetStats (askFields 4 [(1, 1, 1)]) live].all id) = true :=
  by decide +kernel

theorem witness_TimeCommands :
    (([meets cmdTimeStatus (ask []) live,
      meets cmdTimeSet (askFields 24 []) live,
      meets cmdTimeAdjust (askFields 16 [(0, 4, 1000), (4, 4, 1000)]) live,
      meets cmdTimeServoSet (askFields 32 [(8, 4, 1), (16, 4, 10), (20, 4, 100), (24, 2, 10), (28, 2, 1)]) live,
      meets cmdTimePtpSet (askFields 48 [(11, 1, 2)]) netted,
      meets cmdTimePinsSet (askFields 16 [(8, 2, 1)]) live,
      meets cmdTimeLaunchSet (askFields 8 [(4, 4, 1000)]) live,
      meets cmdTimeStats (askFields 4 [(0, 1, 1)]) live].all id) = true) ∧
    ((meets cmdTimeSet (askFields 24 [(0, 1, 1)]) (live) && (fun r _ => u8 r.params 0 == 1) (askFields 24 [(0, 1, 1)]) (cmdTimeSet.acting (askFields 24 [(0, 1, 1)]) (live))) = true) ∧
    ((meets cmdTimeSet (askFields 24 [(0, 1, 2)]) (live) && (fun r _ => decide (2 ≤ u8 r.params 0)) (askFields 24 [(0, 1, 2)]) (cmdTimeSet.acting (askFields 24 [(0, 1, 2)]) (live))) = true) :=
  ⟨by decide +kernel,
    by decide +kernel,
    by decide +kernel⟩

theorem witness_HspMemCommands :
    (([meets cmdHspSet (askFields 16 []) live,
      meets cmdHspQuery (askFields 4 []) live,
      meets cmdHspStats (askFields 4 [(1, 1, 1)]) live,
      meets cmdMemStatus (ask []) live,
      meets cmdMemMap (askFields 80 []) live,
      meets cmdMemRegions (askFields 16 []) live,
      meets cmdMemScrub (askFields 8 [(0, 2, 24)]) live,
      meets cmdMemErrors (askFields 4 [(0, 1, 1)]) live,
      meets cmdMemInject (askFields 16 []) live].all id) = true) ∧
    ((meets cmdMemMap (askFields 80 [(0, 1, 2)]) (live) && (fun r _ => u8 r.params 0 != 0) (askFields 80 [(0, 1, 2)]) (cmdMemMap.acting (askFields 80 [(0, 1, 2)]) (live))) = true) ∧
    ((meets cmdMemRegions (askFields 16 [(0, 1, 1), (8, 2, 4), (10, 2, 4), (12, 2, 12), (14, 2, 2)]) (live) && (fun r _ => u8 r.params 0 != 0) (askFields 16 [(0, 1, 1), (8, 2, 4), (10, 2, 4), (12, 2, 12), (14, 2, 2)]) (cmdMemRegions.acting (askFields 16 [(0, 1, 1), (8, 2, 4), (10, 2, 4), (12, 2, 12), (14, 2, 2)]) (live))) = true) :=
  ⟨by decide +kernel,
    by decide +kernel,
    by decide +kernel⟩

theorem witness_PwrBootTestCommands :
    (([meets cmdPwrStatus (ask []) live,
      meets cmdPwrSet (askFields 16 [(2, 2, 10)]) live,
      meets cmdPwrQuery (ask []) live,
      meets cmdPwrState (askFields 24 [(0, 1, 3)]) live,
      meets cmdBootStatus (ask []) live,
      meets cmdBootPcieSet (askFields 4 []) live,
      meets cmdBootBlockReset (askFields 4 []) live,
      meets cmdTestRun (askFields 4 [(2, 1, 1)]) quiesced,
      meets cmdTestReport (askFields 4 []) live,
      meets cmdTestHealth (ask []) live,
      meets cmdTestHealthClear (askFields 4 []) live].all id) = true) ∧
    ((meets cmdPwrState (askFields 24 [(0, 1, 2)]) (live) && (fun r s => u8 r.params 0 == 2 && s.rt.power.state == 0) (askFields 24 [(0, 1, 2)]) (cmdPwrState.acting (askFields 24 [(0, 1, 2)]) (live))) = true) ∧
    ((meets cmdPwrState (askFields 24 []) (live.modPower fun p => { p with state := 2 }) && (fun r s => u8 r.params 0 == 0 && s.rt.power.state == 2) (askFields 24 []) (cmdPwrState.acting (askFields 24 []) (live.modPower fun p => { p with state := 2 }))) = true) ∧
    (cmdPwrThermalSet.passes (askFields 4 [(0, 1, 90)]) live = true) :=
  ⟨by decide +kernel,
    by decide +kernel,
    by decide +kernel,
    thermal_set_passes⟩

theorem witness_MgmtCommands :
    ([meets cmdMgmtStatus (ask []) live,
      meets cmdMgmtSensors (ask []) live,
      meets cmdMgmtLogRead (askFields 8 [(4, 1, 1)]) live,
      meets cmdMgmtConfig (askFields 4 []) live,
      meets cmdMgmtFwWrite (askFields 24 [(0, 1, 1), (4, 4, 4096)]) live,
      meets cmdMgmtFwActivate (askFields 4 []) live,
      meets cmdMgmtFwConfirm (ask []) ({ live with rt := { live.rt with mgmt := { live.rt.mgmt with asTrial := true } } }),
      meets cmdMgmtBehaviour (askFields 4 [(0, 1, 2)]) live].all id) = true :=
  by decide +kernel

theorem witness_LifecycleAndFuses :
    (([meets cmdMgmtOtpWrite (askFields 52 [(0, 1, 2)]) ({ live with rt := { live.rt with mgmt := { live.rt.mgmt with lifecycle := 0 } } })].all id) = true) ∧
    (cmdMgmtLifecycle.passes toField live = true) :=
  ⟨by decide +kernel,
    lifecycle_passes⟩

theorem witness_HostRegisters :
    (∃ s : State, s.reachable = true) ∧
    (∃ (off : Nat) (data : Bytes) (s : State), Safe s ∧ s.reachable = true ∧ data ≠ [] ∧ 65536 ≤ off ∧ off + List.length data ≤ 131072) ∧
    (∃ (off : Nat) (data : Bytes) (s : State), s.reachable = true ∧ off < 65536 ∧ isRegister (off / 4 * 4) = true ∧ off + List.length data ≤ 65536 ∧
      (off % 4 ≠ 0 ∨ List.length data % 4 ≠ 0)) ∧
    (∃ (off : Nat) (n : Nat) (s : State), s.reachable = true ∧ 0 < n ∧ 65536 ≤ off ∧ off + n ≤ 131072) ∧
    (∃ (off : Nat) (s : State), s.reachable = true ∧ off < 65536 ∧ off % 4 = 0 ∧ isRegister off = false) ∧
    (∃ (s : State), s.reachable = true) ∧
    (∃ (t : Time) (off : Nat) (n : Nat) (s : State), s.reachable = true ∧ inBlock (off / 4 * 4) = true ∧ 0 < n ∧ off % 4 + n ≤ 4 ∧
      blockReady (off / 4 * 4) (wakeIfAsleep (State.advance t s)) = false) :=
  ⟨⟨live, by decide +kernel⟩,
    ⟨0x1FFFF, [7], live, safe_of (by decide +kernel), by decide +kernel⟩,
    ⟨0x000C, [1, 2], live, by decide +kernel⟩,
    ⟨0x1FFFF, 1, live, by decide +kernel⟩,
    ⟨0x0FFC, live, by decide +kernel⟩,
    ⟨wRegs, by decide +kernel⟩,
    ⟨5, 0x200001, 3, wOff, by decide +kernel⟩⟩

theorem witness_Bar2Window :
    (∃ (off n : Nat) (s : State), s.reachable = true ∧ ∀ l, lineIn (s.senak.dwinBase.toNat * 2 ^ 30 + off) n l = true → mget s.rt.dram.corrupt l = none) ∧
    (∃ (off : Nat) (data : Bytes) (s : State), Safe s ∧ s.reachable = true ∧ s.rt.power.state = 0 ∧
      s.senak.dwinBase.toNat * 2 ^ 30 + off + List.length data ≤ s.rt.dram.fitted ∧
      (2 ≤ s.rt.mgmt.lifecycle → s.senak.dwinBase.toNat * 2 ^ 30 + off + List.length data ≤ hwinSize s.rt.dram)) ∧
    (∃ (off : Nat) (n : Nat) (l : Nat) (dev : Nat) (s : State), s.reachable = true ∧ s.rt.power.state = 0 ∧
      s.senak.dwinBase.toNat * 2 ^ 30 + off + n ≤ s.rt.dram.fitted ∧ lineIn (s.senak.dwinBase.toNat * 2 ^ 30 + off) n l = true ∧
      mget s.rt.dram.corrupt l = some (1, dev)) ∧
    (∃ (off : Nat) (n : Nat) (s : State), s.reachable = true ∧ s.rt.power.state = 0 ∧ s.rt.dram.fitted < s.senak.dwinBase.toNat * 2 ^ 30 + off + n) ∧
    (∃ (off : Nat) (data : Bytes) (s : State), s.reachable = true ∧ s.rt.power.state = 0 ∧
      (s.rt.dram.fitted < s.senak.dwinBase.toNat * 2 ^ 30 + off + List.length data ∨ 2 ≤ s.rt.mgmt.lifecycle ∧
      hwinSize s.rt.dram < s.senak.dwinBase.toNat * 2 ^ 30 + off + List.length data)) :=
  ⟨⟨0, 1, live, by decide +kernel, fun _ _ => rfl⟩,
    ⟨2 ^ 30 - 1, [7], { live with senak := { live.senak with dwinBase := 63 } }, safe_of (by decide +kernel), by decide +kernel⟩,
    ⟨0, 1, 0, 5, wBad, by decide +kernel⟩,
    ⟨0, 1, { live with senak := { live.senak with dwinBase := 64 } }, by decide +kernel⟩,
    ⟨2 ^ 30 - 1, [7, 8], { live with senak := { live.senak with dwinBase := 63 } }, by decide +kernel⟩⟩

theorem witness_MsixAndConfiguration :
    (∃ (s : State), s.reachable = true) ∧
    (∃ (t : Nat) (s : State), (State.advance t s).reachable = true) ∧
    (∃ (t : Nat) (s : State), (¬(State.advance t s).reachable = true)) :=
  ⟨⟨live, by decide +kernel⟩,
    ⟨2, live, by decide +kernel⟩,
    ⟨1, State.reset, by decide +kernel⟩⟩

theorem witness_Doorbells :
    (∃ (v : BitVec 32) (s : State), s.reachable = true ∧ s.senak.busy &&& 1#64 <<< (v.toNat % 64) = 0) ∧
    (∃ (v : BitVec 32) (s : State), s.reachable = true ∧ s.senak.busy &&& 1#64 <<< (v.toNat % 64) ≠ 0) ∧
    (∃ (s : State) (d : Doorbell) (l : List Doorbell), s.senak.doorbells = d :: l ∧ s.senak.ready = true ∧ s.senak.preparing = none ∧
      s.rt.power.request = none ∧ s.rt.power.state < 3) ∧
    (∃ (s : State) (p : Preparing), s.senak.preparing = some p ∧ s.senak.ready = true) ∧
    (∃ (c : Cmd), c ∈ allCommands ∧ c.code ≠ 258 ∧ c.code ≠ 4611) ∧
    (∃ (s : State), (s.senak.ready = false ∨ s.senak.preparing = none ∧ (s.senak.doorbells = [] ∨ s.rt.power.request ≠ none ∨ 3 ≤ s.rt.power.state))) :=
  ⟨⟨63, live, by decide +kernel⟩,
    ⟨63, { live with senak := { live.senak with busy := 1#64 <<< 63 } }, by decide +kernel⟩,
    ⟨{ live with senak := { live.senak with doorbells := [⟨63, 0⟩, ⟨1, 0⟩] } }, ⟨63, 0⟩, [⟨1, 0⟩], by decide +kernel⟩,
    ⟨wPrep, { code := 0x0201, request := askFields 24 [], arrived := 3 }, by decide +kernel⟩,
    ⟨cmdSysNop, List.mem_append_left _ (by simp [sysCommands]), by decide +kernel⟩,
    ⟨live, by decide +kernel⟩⟩

theorem witness_EventRing :
    (∃ (t : Time) (s : State), (State.advance t s).senak.evq.tail ≠ (State.advance t s).senak.evq.head ∧
      ∀ l, (State.advance t s).senak.evq.lastMsg = some l → l + (State.advance t s).senak.evq.holdoff * tUs ≤ (State.advance t s).rt.time.up) ∧
    (∃ (s : State) (e : Event) (l : List Event), Safe s ∧ s.senak.evq.en = true ∧ s.senak.evq.backlog = e :: l ∧
      (s.senak.evq.tail + 1) % 2 ^ s.senak.evq.log2 ≠ s.senak.evq.head ∧ s.senak.pcie.canSend = true) ∧
    (∃ (s : State), Safe s ∧ s.senak.evq.en = true ∧ s.senak.evq.backlog = [] ∧ s.senak.evq.marker ≠ 0 ∧
      (s.senak.evq.tail + 1) % 2 ^ s.senak.evq.log2 ≠ s.senak.evq.head ∧ s.senak.pcie.canSend = true) ∧
    (∃ (s : State), s.senak.evq.en = true ∧ (s.senak.evq.backlog ≠ [] ∨ s.senak.evq.marker ≠ 0) ∧
      (s.senak.evq.tail + 1) % 2 ^ s.senak.evq.log2 ≠ s.senak.evq.head ∧ s.senak.pcie.canSend = false) ∧
    (∃ (t : Nat) (s : State), (State.advance t s).senak.evq.tail ≠ (State.advance t s).senak.evq.head ∧
      (∀ (l : Time), (State.advance t s).senak.evq.lastMsg = some l → l + (State.advance t s).senak.evq.holdoff * tUs ≤ (State.advance t s).rt.time.up)) ∧
    (∃ (t : Nat) (s : State), (¬((State.advance t s).senak.evq.tail ≠ (State.advance t s).senak.evq.head ∧
      ∀ (l : Time), (State.advance t s).senak.evq.lastMsg = some l → l + (State.advance t s).senak.evq.holdoff * tUs ≤ (State.advance t s).rt.time.up))) :=
  ⟨⟨5, ringing { tail := 3 }, by decide +kernel, nofun⟩,
    ⟨ringing { tail := 4095, head := 1, backlog := [ev0] }, ev0, [], safe_of (by decide +kernel), by decide +kernel⟩,
    ⟨ringing { tail := 4095, head := 1, marker := 3 }, safe_of (by decide +kernel), by decide +kernel⟩,
    ⟨{ ringing { marker := 3 } with senak := { (ringing { marker := 3 }).senak with pcie := {} } }, by decide +kernel⟩,
    ⟨7, ringing { tail := 4095, head := 1, marker := 3 }, by decide +kernel⟩,
    ⟨7, { ringing { marker := 3 } with senak := { (ringing { marker := 3 }).senak with pcie := {} } }, by decide +kernel⟩⟩

theorem witness_GenerationEvents :
    (∃ (t : Time) (b : Fin 36) (s : State) (q : Quiesce) (p : PendingCmd), quiescing s b.val = [q] ∧ blockIdle (State.advance t s) b.val = true ∧
      List.find? (fun (p : PendingCmd) ↦ p.code == 259 && p.obj == b.val && p.slot == q.slot && p.hostSeq == q.hostSeq) s.senak.pending = some p) ∧
    (∃ (t : Time) (b : Fin 36) (s : State) (q : Quiesce) (p : PendingCmd), quiescing s b.val = [q] ∧ q.deadline ≤ (State.advance t s).rt.time.up ∧
      List.find? (fun (p : PendingCmd) ↦ p.code == 259 && p.obj == b.val && p.slot == q.slot && p.hostSeq == q.hostSeq) s.senak.pending = some p) ∧
    (∃ (t : Nat) (s : State), (∃ (n : Snapshot), (State.advance t s).snap = some n ∧ n.expires ≤ (State.advance t s).rt.time.up)) ∧
    (∃ (t : Nat) (s : State), (¬∃ (n : Snapshot), (State.advance t s).snap = some n ∧ n.expires ≤ (State.advance t s).rt.time.up)) ∧
    (∃ (s : State) (a : Armed), s.gens.armed = some a ∧ a.waitPower = false ∧ s.booted = true ∧ s.rt.clover.items = [] ∧ s.gens.reactivate = false) ∧
    (∃ (s : State), (s.gens.armed = none ∨ ∃ (a : Armed), s.gens.armed = some a ∧ a.waitPower = true)) ∧
    (∃ (s : State) (a : Armed), mediaRuns s = true ∧ s.rt.clover.items = [] ∧ s.gens.reactivate = false ∧ s.gens.armed = some a) ∧
    (∃ (s : State) (o : Nat) (i : Item), mediaRuns s = true ∧ s.rt.clover.items = [(o, i)] ∧ i.waits = true ∧ i.tickItem = false ∧ i.ofStream = false ∧
      flowKind i.flow ≠ 2 ∧ Item.past (((State.advance (nextBoundary s) s).now / tMs + 4294967295) % 4294967296) i = true) ∧
    (∃ (t : Time) (s : State), mediaRuns s = true ∧ (∀ (k : Nat), s.rt.fault.journalTick = some k → k / 16 ≠ (State.advance t s).now / tMs / 16)) ∧
    (∃ (t : Time) (k : Nat) (s : State), s.rt.fault.journalTick = some k ∧ k / 16 = (State.advance t s).now / tMs / 16) ∧
    (∃ (t : Time) (s : State), (State.advance t s).atBoundary = true ∧ mediaRuns s = true ∧ s.gens.reactivate = true) ∧
    (∃ (s : State), s.gens.reactivate = false) :=
  ⟨⟨7, 3, quiet 7, { deadline := 7, slot := 2, hostSeq := 0 }, { code := 0x0103, obj := 3, slot := 2, hostSeq := 0, params := [] }, by decide +kernel⟩,
    ⟨7, 3, quiet 7, { deadline := 7, slot := 2, hostSeq := 0 }, { code := 0x0103, obj := 3, slot := 2, hostSeq := 0, params := [] }, by decide +kernel⟩,
    ⟨7, wSnap, by decide +kernel⟩,
    ⟨7, full, by decide +kernel⟩,
    ⟨armed, { gen := { number := 3 }, boundary := 0, rollback := false, slot := 0, hostSeq := 0 }, by decide +kernel⟩,
    ⟨full, by decide +kernel⟩,
    ⟨armed, { gen := { number := 3 }, boundary := 0, rollback := false, slot := 0, hostSeq := 0 }, by decide +kernel⟩,
    ⟨late1b, 5, { deadline := 0, flow := 7 }, by decide +kernel⟩,
    ⟨7, full, by decide +kernel⟩,
    ⟨31 * tMs, 16, wCopied, by decide +kernel⟩,
    ⟨2 * tMs, { full with gens := { full.gens with reactivate := true } }, by decide +kernel⟩,
    ⟨live, by decide +kernel⟩⟩

theorem witness_CloverRows :
    (∃ s : State, s.coreClock = true ∧ 106496 ≤ s.rt.clover.sharedUse) ∧
    (∃ s : State, s.coreClock = true ∧ 90112 ≤ s.rt.clover.sharedUse ∧ s.rt.clover.spilled ≠ 0) ∧
    (∃ (e : Enqueue) (s : State) (i : Item), s.coreClock = true ∧ parseItem e.port e.desc = some i ∧
      (s.rt.clover.stalled.any fun (p : Nat × Bytes × Option (Nat × Nat)) ↦ p.fst == e.port && p.snd.snd == Option.map (fun (b : Fin 36 × Fin 9) ↦ (↑b.fst, ↑b.snd)) e.by_) = false ∧
      s.rt.clover.sharedUse < 114112) ∧
    (∃ (e : Enqueue) (s : State), s.coreClock = true ∧ parseItem e.port e.desc = none) ∧
    (∃ (e : Enqueue) (s : State) (i : Item), s.coreClock = true ∧ parseItem e.port e.desc = some i ∧
      (s.rt.clover.stalled.any fun (p : Nat × Bytes × Option (Nat × Nat)) ↦ p.fst == e.port && p.snd.snd == Option.map (fun (b : Fin 36 × Fin 9) ↦ (↑b.fst, ↑b.snd)) e.by_) = true) ∧
    (∃ (s : State) (p : Nat × Bytes × Option (Nat × Nat)) (i : Item), s.coreClock = true ∧ nextStalled s.rt.clover = some p ∧
      parseItem p.fst p.snd.fst = some i ∧ s.rt.clover.sharedUse < 114112) ∧
    (∃ (s : State), s.coreClock = true ∧ s.rt.clover.sharedUse < 90112) ∧
    (∃ (b : Fin 36) (p : Fin 9) (o : Nat) (i : Item) (s : State), s.coreClock = true ∧ consumerIn s.rt.fault b.val p.val = true ∧
      s.rt.clover.running b.val p.val = none ∧ dispatchable s (serverOf s b.val) = true ∧ nextItem s b.val = some (o, i) ∧
      s.domainReady (serverOf s b.val) = true ∧ takerOf s o i = some (b.val, p.val) ∧ badEntry s b.val i = none ∧
      mget s.rt.fault.injections (serverOf s b.val * 16 + p.val) = none) ∧
    (∃ (t : Time) (b : Fin 36) (p : Fin 9) (o : Nat) (i : Item) (s : State), s.rt.clover.running b.val p.val = some (o, i) ∧ s.coreClock = true ∧
      coreDone s b.val p.val = true ∧ engineWork s b.val i = false ∧ (b.val < 16 → Item.past (endedTick (State.advance t s)) i = false) ∧
      flowKind i.flow = 1 ∧ i.flow ≠ noFlow) ∧
    (∃ (t : Time) (b : Fin 36) (p : Fin 9) (o : Nat) (i : Item) (s : State), s.rt.clover.running b.val p.val = some (o, i) ∧ s.coreClock = true ∧
      coreDone s b.val p.val = true ∧ Item.past (endedTick (State.advance t s)) i = true) ∧
    (∃ (b : Fin 36) (p : Fin 9) (s : State), coreDone s b.val p.val = false) :=
  ⟨⟨live.modClover fun _ => { items := List.replicate 106496 (0, { flow := 7 }) }, by decide +kernel, Nat.le_of_eq (shared_use 106496).symm⟩,
    ⟨live.modClover fun _ => { items := (1, { flow := 7, state := .spilled }) :: List.replicate 90112 (0, { flow := 7 }) }, by decide +kernel, Nat.le_of_eq (shared_beside_spilled 90112).symm, spilled_beside 90112⟩,
    ⟨e1, live, (parseItem 3 e1.desc).getD {}, by decide +kernel⟩,
    ⟨{ port := 3, desc := List.replicate 32 0xFF, by_ := none }, live, by decide +kernel⟩,
    ⟨e1, st1, (parseItem 3 e1.desc).getD {}, by decide +kernel⟩,
    ⟨st1, (3, e1.desc, none), (parseItem 3 e1.desc).getD {}, by decide +kernel⟩,
    ⟨live, by decide +kernel⟩,
    ⟨2, 3, 5, { flow := 7 }, wDue, by decide +kernel⟩,
    ⟨7, 2, 3, 4, { flow := 7, state := .inService 2 3 }, run1, by decide +kernel⟩,
    ⟨2 * tMs, 2, 3, 4, { flow := 7, deadline := 0, state := .inService 2 3 }, wPast, by decide +kernel⟩,
    ⟨2, 3, ((with_ { partitions := [(0, block 32 [(2, 2, 4)])] } live).modDsp fun d => { d with cores := [(35, {})] }), by decide +kernel⟩⟩

theorem witness_CoreAndEngineFaultRows :
    (∃ (b : Fin 16) (p : Fin 9) (site : Nat) (s : State), mget (s.rt.fault.cluster b.val).pos p.val = some site ∧ s.rt.clover.running b.val p.val = none) ∧
    (∃ (b : Fin 16) (p : Fin 9) (site : Nat) (o : Nat) (i : Item) (s : State), mget (s.rt.fault.cluster b.val).pos p.val = some site ∧
      s.rt.clover.running b.val p.val = some (o, i) ∧ i.replayed = false ∧ (∀ (e : Nat × Item), e ∈ s.rt.clover.items → e.snd.ofStream = false)) ∧
    (∃ (b : Fin 16) (s : State), (s.rt.fault.cluster b.val).claim ≠ none) ∧
    (∃ (t : Time) (b : Fin 16) (p : Nat) (c : Time) (site : Nat) (s : State), (State.advance t s).atBoundary = true ∧
      (s.rt.fault.cluster b.val).claim = some (p, c) ∧ mget (s.rt.fault.cluster b.val).pos 8 = some site ∧ (s.rt.fault.cluster b.val).loaded = true ∧
      c + 20 * tUs ≤ (State.advance t s).rt.time.up) ∧
    (∃ (b : Fin 30) (r : UnitTest) (s : State), b.val < 16 ∧ ↑r.site ∈ (s.rt.fault.cluster b.val).fenced ∧
      mhas (s.rt.fault.cluster b.val).toTest ↑r.site = false ∧ mhas (s.rt.fault.cluster b.val).ended ↑r.site = false ∧ s.rt.mgmt.lifecycle ≠ 4) ∧
    (∃ (b : Fin 30) (r : UnitTest) (s : State), 16 ≤ b.val ∧ ↑r.site = 0 ∧ b.val ∈ s.rt.fault.enginesFenced ∧
      mhas s.rt.fault.enginesEnded b.val = false ∧ s.rt.mgmt.lifecycle ≠ 4) ∧
    (∃ (t : Time) (b : Fin 30) (site : Nat) (p : Nat) (s : State), (State.advance t s).atBoundary = true ∧ b.val < 16 ∧
      (s.rt.fault.cluster b.val).ended = [(site, some p)]) ∧
    (∃ (t : Time) (b : Fin 30) (site : Nat) (s : State), (State.advance t s).atBoundary = true ∧ b.val < 16 ∧
      (s.rt.fault.cluster b.val).ended = [(site, none)]) ∧
    (∃ (t : Time) (b : Fin 30) (ok : Bool) (s : State), (State.advance t s).atBoundary = true ∧ 16 ≤ b.val ∧ mget s.rt.fault.enginesEnded b.val = some ok) ∧
    (∃ (t : Time) (b : Fin 16) (s : State), (State.advance t s).atBoundary = true ∧ (s.rt.fault.cluster b.val).degraded = true ∧
      shedding s b.val ≠ ([], [])) ∧
    (∃ (t : Time) (b : Fin 16) (s : State), (State.advance t s).atBoundary = true ∧
      ((s.rt.fault.cluster b.val).shedLegs ≠ [] ∨ (s.rt.fault.cluster b.val).shedRoutes ≠ []) ∧
      clusterCharge s.gens.active b.val ≤ clusterLimit s.rt.fault s.rt.power.point b.val) ∧
    (∃ (row : Time → Instr) (e : Nat) (p : Nat) (x : Nat) (s : State), ((∃ (n : Fin 9), e = 16 + ↑n ∧
      ((row = fun (x : Time) ↦ Instr.campionEngineFault x n) ∨ row = fun (x : Time) ↦ Instr.campionSliceWatchdog x n)) ∨ ∃ (n : Fin 5), e = 25 + ↑n ∧
      row = fun (x : Time) ↦ Instr.mallowEngineFault x n) ∧ s.rt.fault.placeOf e = some p ∧
      List.find? (fun (x : Nat) ↦ decide (x < 25) == decide (e < 25)) s.rt.fault.spares = some x) ∧
    (∃ (row : Time → Instr) (e : Nat) (p : Nat) (s : State), ((∃ (n : Fin 9), e = 16 + ↑n ∧
      ((row = fun (x : Time) ↦ Instr.campionEngineFault x n) ∨ row = fun (x : Time) ↦ Instr.campionSliceWatchdog x n)) ∨ ∃ (n : Fin 5), e = 25 + ↑n ∧
      row = fun (x : Time) ↦ Instr.mallowEngineFault x n) ∧ s.rt.fault.placeOf e = some p ∧
      List.find? (fun (x : Nat) ↦ decide (x < 25) == decide (e < 25)) s.rt.fault.spares = none) ∧
    (∃ (b : Fin 16) (p : Fin 9) (s : State), s.rt.clover.running b.val p.val = none) ∧
    (∃ (b : Fin 16) (p : Fin 9) (o : Nat) (i : Item) (s : State), s.rt.clover.running b.val p.val = some (o, i) ∧ flowKind i.flow ≠ 2 ∧ i.ofStream = false) :=
  ⟨⟨2, 3, 3, live, by decide +kernel⟩,
    ⟨2, 3, 3, 4, { flow := 7, state := .inService 2 3 }, run1, by decide +kernel⟩,
    ⟨2, clu fun c => { c with claim := some (3, 5) }, by decide +kernel⟩,
    ⟨2 * tMs, 2, 3, 5, 8, clu fun c => { c with claim := some (3, 5), loaded := true }, by decide +kernel⟩,
    ⟨2, { site := 3, result := 0 }, clu fun c => { c with fenced := [3] }, by decide +kernel⟩,
    ⟨17, { site := 0, result := 0 }, live.modFault fun c => { c with enginesFenced := [17] }, by decide +kernel⟩,
    ⟨2 * tMs, 2, 3, 4, clu fun c => { c with pos := c.pos.filter (fun x => x.1 != 8), fenced := [3], ended := [(3, some 4)] }, by decide +kernel⟩,
    ⟨2 * tMs, 2, 3, clu fun c => { c with fenced := [3], ended := [(3, none)] }, by decide +kernel⟩,
    ⟨2 * tMs, 17, true, live.modFault fun c => { c with enginesFenced := [17], enginesEnded := [(17, true)] }, by decide +kernel⟩,
    ⟨2 * tMs, 2, heavy, by decide +kernel⟩,
    ⟨2 * tMs, 2, clu fun c => { c with shedLegs := [3] }, by decide +kernel⟩,
    ⟨(.mallowEngineFault · 1), 26, 26, 29, live, .inr ⟨1, rfl, rfl⟩, by decide +kernel⟩,
    ⟨(.campionEngineFault · 1), 17, 17, live.modFault fun f => { f with spares := [] }, .inl ⟨1, rfl, .inl rfl⟩, by decide +kernel⟩,
    ⟨2, 3, live, by decide +kernel⟩,
    ⟨2, 3, 4, { flow := 7, state := .inService 2 3 }, run1, by decide +kernel⟩⟩

theorem witness_AudioRows :
    (∃ (t : Time) (n : Fin 8192) (s : State), ∃ b k, ((State.advance t s).leg n.val).tone = some (b, k) ∧ u8 b 10 ≠ 0 ∧ repeatMs b * u8 b 10 ≤ k) ∧
    (∃ (t : Time) (n : Fin 8192) (s : State), ¬ ∃ b k, ((State.advance t s).leg n.val).tone = some (b, k) ∧ u8 b 10 ≠ 0 ∧ repeatMs b * u8 b 10 ≤ k) ∧
    (∃ (n : Fin 8192) (t : Nat) (s : State), ((State.advance t s).leg n.val).toneNext ≠ none ∧ (State.advance t s).rt.time.now % tMs = 0) ∧
    (∃ (n : Fin 8192) (t : Nat) (s : State), (¬(((State.advance t s).leg n.val).toneNext ≠ none ∧ (State.advance t s).rt.time.now % tMs = 0))) ∧
    (∃ (n : Fin 8192) (t : Nat) (s : State), ((State.advance t s).leg n.val).ecDisabled = true ∧ 250 ≤ ((State.advance t s).leg n.val).quietMs) ∧
    (∃ (n : Fin 8192) (t : Nat) (s : State), (¬(((State.advance t s).leg n.val).ecDisabled = true ∧ 250 ≤ ((State.advance t s).leg n.val).quietMs))) ∧
    (∃ (n : Fin 8192) (t : Nat) (s : State), ((State.advance t s).leg n.val).rxState = RxState.playing ∧
      u16 (mgetD (State.advance t s).gens.active.legs n.val []) 30 ≠ 0 ∧
      ((State.advance t s).leg n.val).rtp.lastValid + u16 (mgetD (State.advance t s).gens.active.legs n.val []) 30 * tMs ≤ (State.advance t s).rt.time.up) ∧
    (∃ (n : Fin 8192) (t : Nat) (s : State), (¬(((State.advance t s).leg n.val).rxState = RxState.playing ∧
      u16 (mgetD (State.advance t s).gens.active.legs n.val []) 30 ≠ 0 ∧
      ((State.advance t s).leg n.val).rtp.lastValid + u16 (mgetD (State.advance t s).gens.active.legs n.val []) 30 * tMs ≤ (State.advance t s).rt.time.up))) ∧
    (∃ (n : Fin 8192) (t : Nat) (s : State), mhas (State.advance t s).gens.active.legs n.val = true ∧
      ((State.advance t s).leg n.val).lateAt + 10 * tS ≤ (State.advance t s).rt.time.up) ∧
    (∃ (n : Fin 8192) (t : Nat) (s : State), (¬(mhas (State.advance t s).gens.active.legs n.val = true ∧
      ((State.advance t s).leg n.val).lateAt + 10 * tS ≤ (State.advance t s).rt.time.up))) ∧
    (∃ (t : Time) (n : Fin 8192) (b : Bytes) (s : State), mget s.gens.active.legs n.val = some b ∧ (State.advance t s).now % tMs = 0 ∧
      (((State.advance t s).now / tMs % if s.rt.mgmt.level = 2 then 500 else 200) = 0) ∧ u8 b 14 = 0 ∧ (s.leg n.val).rxState = RxState.playing ∧
      (s.leg n.val).anchor ≠ none) ∧
    (∃ (p : Fin 4) (t : Nat) (s : State), (State.advance t s).rt.time.now % tMs = 0 ∧ (mgetD (State.advance t s).rt.audio.saps p.val { }).next ≠ none) ∧
    (∃ (p : Fin 4) (t : Nat) (s : State), (¬((State.advance t s).rt.time.now % tMs = 0 ∧ (mgetD (State.advance t s).rt.audio.saps p.val { }).next ≠ none))) ∧
    (∃ (p : Fin 4) (t : Nat) (s : State), (State.advance t s).rt.time.now % tMs = 0 ∧
      (mgetD (State.advance t s).rt.audio.saps p.val { }).stopped = true ∧ (State.advance t s).boot.phase = BootPhase.running ∧
      (mgetD (State.advance t s).rt.audio.saps p.val { }).since < (State.advance t s).rt.time.up) ∧
    (∃ (p : Fin 4) (t : Nat) (s : State), (¬((State.advance t s).rt.time.now % tMs = 0 ∧
      (mgetD (State.advance t s).rt.audio.saps p.val { }).stopped = true ∧ (State.advance t s).boot.phase = BootPhase.running ∧
      (mgetD (State.advance t s).rt.audio.saps p.val { }).since < (State.advance t s).rt.time.up))) ∧
    (∃ (t : Time) (x : LegTick) (b : Bytes) (s : State), mget s.gens.active.legs ↑x.leg = some b ∧ serviceOf (State.advance t s) ↑x.leg = none) ∧
    (∃ (t : Time) (x : LegTick) (o : Nat) (i : Item) (s : State), serviceOf (State.advance t s) ↑x.leg = some (o, i)) ∧
    (∃ (t : Time) (n : Fin 2048) (b : Bytes) (s : State), mget s.gens.active.confs n.val = some b ∧ serviceOf (State.advance t s) (8192 + n.val) = none) ∧
    (∃ (t : Time) (n : Fin 2048) (o : Nat) (i : Item) (s : State), serviceOf (State.advance t s) (8192 + n.val) = some (o, i)) ∧
    (∃ (t : Time) (n : Fin 8192) (b : Bytes) (a : Time) (f : Frame) (s : State) (v : State), mget s.gens.active.legs n.val = some b ∧ u8 b 2 ≠ 3 ∧
      (State.advance t s).stalls 30 = false ∧ popInbox n.val (State.advance t s) = (some (a, f), v) ∧ bit (u8 b 5) 7 = false) ∧
    (∃ (n : Fin 8192) (s : State), mgetD s.rt.net.inbox n.val [] = []) ∧
    (∃ (t : Time) (s : State), (State.advance t s).stalls 30 = true) :=
  ⟨⟨1, 0, lg fun l => { l with tone := some (tb, 900000) }, tb, 900000, by decide +kernel⟩,
    ⟨1, 0, live, by rintro ⟨b, k, h, -⟩; cases h⟩,
    ⟨0, tMs, lg fun l => { l with toneNext := some (some tb) }, by decide +kernel⟩,
    ⟨5, 0, full, by decide +kernel⟩,
    ⟨0, tMs, lg fun l => { l with ecDisabled := true, quietMs := 250 }, by decide +kernel⟩,
    ⟨5, 0, full, by decide +kernel⟩,
    ⟨0, 100 * tMs, modLeg 0 (fun l => { l with rxState := .playing }) full2, by decide +kernel⟩,
    ⟨5, 0, full, by decide +kernel⟩,
    ⟨0, 10 * tS, lg fun l => { l with held := 5 }, by decide +kernel⟩,
    ⟨5, 0, full, by decide +kernel⟩,
    ⟨200 * tMs, 0, legBlock, lg fun l => { l with rxState := .playing, anchor := some (0, 0), d := 10 }, by decide +kernel⟩,
    ⟨0, tMs, full.modAudio fun a => { a with saps := [(0, { next := some [1] })] }, by decide +kernel⟩,
    ⟨5, 0, full, by decide +kernel⟩,
    ⟨0, tMs, full.modAudio fun a => { a with saps := [(0, { next := some [1], stopped := true })] }, by decide +kernel⟩,
    ⟨5, 0, full, by decide +kernel⟩,
    ⟨tMs, { leg := 0 }, legBlock, full, by decide +kernel⟩,
    ⟨tMs, { leg := 0 }, 4, wLegI, wRun wLegI full, by decide +kernel⟩,
    ⟨tMs, 0, confBlock, full, by decide +kernel⟩,
    ⟨tMs, 0, 4, wConfI, wRun wConfI full, by decide +kernel⟩,
    ⟨5, 0, legBlock, 0, { data := rtp 0 0 [] }, inb 0 (rtp 0 0 []) full, (inb 0 [] full).advance 5 |>.modNet fun n => { n with inbox := [] }, by decide +kernel⟩,
    ⟨0, full, by decide +kernel⟩,
    ⟨5, wStall full, by decide +kernel⟩⟩

theorem witness_Rtcp :
    (∃ (t : Time) (n : Fin 8192) (b : Bytes) (s : State), mget s.gens.active.legs n.val = some b ∧ u8 b 2 = 0 ∧ bit (u8 b 5) 3 = true ∧
      (s.leg n.val).stopped = false ∧ (s.leg n.val).rtcpAt ≤ (State.advance t s).rt.time.up) ∧
    (∃ (t : Time) (v : Fin 4096) (b : Bytes) (s : State), mget s.gens.active.vids v.val = some b ∧
      (isEncode s.gens.active v.val = false ∨ allZero (slice b 68 16) = false) ∧ (s.vid v.val).rtcpAt ≤ (State.advance t s).rt.time.up) ∧
    (∃ (t : Time) (n : Fin 4096) (b : Bytes) (s : State), mget s.gens.active.relays n.val = some b ∧
      (s.rt.fwd.relay n.val).rtcpAt ≤ (State.advance t s).rt.time.up) ∧
    (∃ (t : Time) (n : Fin 32768) (b : Bytes) (s : State), mget s.gens.active.subs n.val = some b ∧
      (s.rt.fwd.sub n.val).rtcpAt ≤ (State.advance t s).rt.time.up) ∧
    (∃ (t : Time) (n : Fin 8192) (a : Time) (f : Frame) (c : Nat) (body : Bytes) (s : State) (v : State), mhas s.gens.active.legs n.val = true ∧
      (State.advance t s).stalls 30 = false ∧ popInbox (1048576 + n.val) (State.advance t s) = (some (a, f), v) ∧
      rtcpParts (List.length f.data / 4 + 1) f.data = [(c, 200, body)]) ∧
    (∃ (t : Time) (n : Fin 4096) (a : Time) (f : Frame) (c : Nat) (body : Bytes) (s : State) (v : State), mhas s.gens.active.relays n.val = true ∧
      (State.advance t s).stalls 30 = false ∧ popInbox (1572864 + n.val) (State.advance t s) = (some (a, f), v) ∧
      rtcpParts (List.length f.data / 4 + 1) f.data = [(c, 200, body)]) ∧
    (∃ (t : Time) (o : RtcpObject) (key : Nat) (s : State), (key = 1048576 + match o with | RtcpObject.leg n => ↑n | RtcpObject.vid v => 12288 + ↑v | RtcpObject.relay v => 524288 + ↑v | RtcpObject.sub n => 589824 + ↑n) ∧
      (mgetD s.rt.net.inbox key [] = [] ∨ (State.advance t s).stalls 30 = true)) :=
  ⟨⟨5, 0, putAt legBlock 5 [8], full3, by decide +kernel⟩,
    ⟨5, 0, vidBlock, full, by decide +kernel⟩,
    ⟨5, 5, relayBlock, full, by decide +kernel⟩,
    ⟨5, 0, subBlock, full, by decide +kernel⟩,
    ⟨5, 0, 0, { data := sr }, 0, sr.drop 4, inb 0x100000 sr full, (inb 0 [] full).advance 5 |>.modNet fun n => { n with inbox := [] }, by decide +kernel⟩,
    ⟨5, 5, 0, { data := sr }, 0, sr.drop 4, inb 0x180005 sr full, (inb 0 [] full).advance 5 |>.modNet fun n => { n with inbox := [] }, by decide +kernel⟩,
    ⟨5, .leg 0, 0x100000, full, by decide +kernel⟩⟩

theorem witness_VideoRows :
    (∃ (t : Time) (v : Fin 4096) (b : Bytes) (x : Vid) (a : Time) (f : Frame) (s : State) (w : State), mget s.gens.active.vids v.val = some b ∧
      u8 b 2 = 0 ∧ mget s.rt.video.vids v.val = some x ∧ (State.advance t s).stalls 30 = false ∧
      popInbox (12288 + v.val) (State.advance t s) = (some (a, f), w) ∧ bit (u8 b 103) 1 = false) ∧
    (∃ (t : Time) (s : State), (State.advance t s).stalls 30 = true) ∧
    (∃ (v : Fin 4096) (q : Assembly) (s : State), q ∈ (s.vid v.val).assembling) ∧
    (∃ (v : Fin 4096) (t : Nat) (s : State), (((State.advance t s).vid v.val).state = VidState.clean ∨ ((State.advance t s).vid v.val).state = VidState.tainted) ∧
      u16 (mgetD (State.advance t s).gens.active.vids v.val []) 38 ≠ 0 ∧
      ((State.advance t s).vid v.val).rtp.lastValid + u16 (mgetD (State.advance t s).gens.active.vids v.val []) 38 * tMs ≤ (State.advance t s).rt.time.up) ∧
    (∃ (v : Fin 4096) (t : Nat) (s : State), (¬((((State.advance t s).vid v.val).state = VidState.clean ∨ ((State.advance t s).vid v.val).state = VidState.tainted) ∧
      u16 (mgetD (State.advance t s).gens.active.vids v.val []) 38 ≠ 0 ∧
      ((State.advance t s).vid v.val).rtp.lastValid + u16 (mgetD (State.advance t s).gens.active.vids v.val []) 38 * tMs ≤ (State.advance t s).rt.time.up))) ∧
    (∃ (t : Time) (v : Fin 4096) (d : DecodeResult) (q : SeqFacts) (i : Item) (e : Nat) (p : Nat) (a : Assembly) (l : List Assembly) (s : State), onEngine (State.advance t s) (12288 + v.val) = some (i, e, p) ∧
      (∀ (y : Nat × Vid), y ∈ s.rt.video.leaving → y.fst ≠ v.val) ∧ (s.vid v.val).complete = a :: l ∧ (s.vid v.val).state ≠ VidState.timedOut ∧
      d.sps = some q) ∧
    (∃ (t : Time) (v : Fin 4096) (s : State), onEngine (State.advance t s) (12288 + v.val) = none) ∧
    (∃ (t : Time) (v : Fin 4096) (b : Bytes) (k : Time) (s : State), mget s.gens.active.vids v.val = some b ∧ (s.vid v.val).keyAt = some k ∧
      (s.vid v.val).merged = true ∧ k + u16 b 30 * tMs ≤ (State.advance t s).rt.time.up) ∧
    (∃ (n : Fin 64) (p : PendingCmd) (g : Nat × Picture × Option (Nat × Nat)) (s : State), State.findPending 1798 n.val s = some p ∧
      List.find? (fun (g : Nat × Picture × Option (Nat × Nat)) ↦ g.fst == n.val) s.rt.video.grabs = some g) ∧
    (∃ (t : Time) (v : Fin 4096) (b : Bytes) (x : Vid) (s : State), mget s.gens.active.vids v.val = some b ∧ u8 b 2 = 1 ∧
      mget s.rt.video.vids v.val = some x ∧ x.coding = none ∧ x.queue = [] ∧ pictureTime x.start x.next (u16 b 8) ≤ (State.advance t s).now ∧
      (¬65536 + v.val ∈ s.rt.fault.orphans)) ∧
    (∃ (t : Time) (v : Fin 4096) (k : Coding) (i : Item) (e : Nat) (p : Nat) (s : State), onEngine (State.advance t s) (12288 + v.val) = some (i, e, p) ∧
      (∀ (y : Nat × Vid), y ∈ s.rt.video.leaving → y.fst ≠ v.val) ∧ (s.vid v.val).coding = some k ∧ (s.vid v.val).queue = []) :=
  ⟨⟨5, 0, vidBlock, {}, 0, { data := rtp 0 96 [1,2] }, inb 0x3000 (rtp 0 96 [1,2]) (vd {}), (inb 0 [] (vd {})).advance 5 |>.modNet fun n => { n with inbox := [] }, by decide +kernel⟩,
    ⟨5, wStall full, by decide +kernel⟩,
    ⟨0, { ts := 0, first := 0, firstUp := 0}, vd { assembling := [{ ts := 0, first := 0, firstUp := 0}] }, by decide +kernel⟩,
    ⟨0, 100 * tMs, full4 { state := .clean }, by decide +kernel⟩,
    ⟨5, 0, wStall full, by decide +kernel⟩,
    ⟨5, 0, wSps, { w := 16, h := 16 }, wDecI, 16, 0, wUnit, [], wRun wDecI (vd { complete := [wUnit] }), by decide +kernel⟩,
    ⟨5, 0, full, by decide +kernel⟩,
    ⟨1000 * tMs, 0, vidBlock, 0, vd { keyAt := some 0, merged := true }, by decide +kernel⟩,
    ⟨0, pg, (0, {}, none), gst, by decide +kernel⟩,
    ⟨5, 0, encB, {}, fullE {}, by decide +kernel⟩,
    ⟨5, 0, cod, wDecI, 16, 0, wRun wDecI (fullE { coding := some cod }), by decide +kernel⟩⟩

theorem witness_CompositionRows :
    (∃ (t : Time) (o : Fin 64) (b : Bytes) (x : OutRun) (s : State), mget s.gens.active.outs o.val = some b ∧ mget s.rt.mallow.outs o.val = some x ∧
      pictureTime x.start x.next (u16 b 4) ≤ (State.advance t s).now ∧ (¬131072 + o.val ∈ s.rt.fault.orphans)) ∧
    (∃ (t : Time) (o : Fin 64) (b : Bytes) (x : OutRun) (s : State), mget s.gens.active.outs o.val = some b ∧ mget s.rt.mallow.outs o.val = some x ∧
      (State.advance t s).now < pictureTime x.start x.next (u16 b 4)) ∧
    (∃ (t : Time) (o : Fin 64) (c : Composing) (i : Item) (e : Nat) (p : Nat) (s : State), onEngine (State.advance t s) (16384 + o.val) = some (i, e, p) ∧
      (∀ (y : Nat × OutRun), y ∈ s.rt.mallow.leaving → y.fst ≠ o.val) ∧ (s.out o.val).composing = some c) ∧
    (∃ (t : Time) (n : Fin 256) (i : Item) (e : Nat) (p : Nat) (c : Surface) (s : State), flattening (State.advance t s) n.val = some (i, e, p) ∧
      mget s.rt.mallow.surfaces n.val = some c ∧ c.ready = false ∧ c.mark = i.input) ∧
    (∃ (t : Time) (n : Fin 256) (s : State), flattening (State.advance t s) n.val = none) ∧
    (∃ (l : Fin 256) (y : Fin 8) (k : Fin 2) (p : PendingCmd) (i : ImgSlot) (b : Bytes) (src : Bytes) (s : State), State.findPending 2050 (slotKey l.val y.val k.val) s = some p ∧
      mget s.rt.mallow.images (slotKey l.val y.val k.val) = some i ∧ i.loading = some (b, src) ∧ layoutHeld s (slotKey l.val y.val k.val / 16) = true) :=
  ⟨⟨5, 0, outBlock, {}, om {}, by decide +kernel⟩,
    ⟨5, 0, outBlock, { next := 5 }, om { next := 5 }, by decide +kernel⟩,
    ⟨5, 0, cmp0, wOutI, 25, 0, wRun wOutI (om { composing := some cmp0 }), by decide +kernel⟩,
    ⟨5, 0, wFlatI, 25, 0, {}, wRun wFlatI (full.modMallow fun m => { m with surfaces := [(0, {})] }), by decide +kernel⟩,
    ⟨5, 0, full, by decide +kernel⟩,
    ⟨0, 0, 0, pi, { loading := some (ib, zeros 8) }, ib, zeros 8, ist (zeros 8), by decide +kernel⟩⟩

theorem witness_ForwardingRows :
    (∃ (p : Fin 4) (f : Frame) (s : State), s.rt.net.isUp p.val = true ∧ (u16 (s.rt.net.port p.val) 2 < f.len ∨ f.len < 64 ∧
      ∀ v, mediaConsumer s.gens.active (s.rt.net.named p.val) f ≠ some (Consumer.relay v false))) ∧
    (∃ (p : Fin 4) (f : Frame) (c : Fin 3) (s : State), s.rt.net.isUp p.val = true ∧ 64 ≤ f.len ∧ f.len ≤ u16 (s.rt.net.port p.val) 2 ∧
      (f.fcsOk = false ∨ c = 2)) ∧
    (∃ (p : Fin 4) (f : Frame) (s : State), s.rt.net.isUp p.val = true ∧ 64 ≤ f.len ∧ f.len ≤ u16 (s.rt.net.port p.val) 2 ∧ f.fcsOk = true) ∧
    (∃ (p : Fin 4) (s : State), s.rt.net.isUp p.val = false) ∧
    (∃ (k : Nat) (x : Buckets) (s : State), mget s.rt.fwd.policers k = some x) ∧
    (∃ (t : Time) (v : Fin 4096) (b : Bytes) (s : State), mget s.gens.active.relays v.val = some b ∧ u16 b 56 ≠ 0 ∧
      (s.rt.fwd.relay v.val).lost = false ∧ (s.rt.fwd.relay v.val).rtp.lastValid + u16 b 56 * tMs ≤ (State.advance t s).rt.time.up) ∧
    (∃ (t : Nat) (s : State), (State.advance t s).rt.time.now % (100 * tMs) = 0) ∧
    (∃ (t : Nat) (s : State), (¬(State.advance t s).rt.time.now % (100 * tMs) = 0)) ∧
    (∃ (n : Fin 32768) (b : Bytes) (s : State), mget s.gens.active.subs n.val = some b ∧ bit (u8 (mgetD s.gens.active.lines (u16 b 2) []) 19) 0 = true) ∧
    (∃ (t : Time) (n : Fin 32768) (b : Bytes) (w : Time) (s : State), mget s.gens.active.subs n.val = some b ∧ (s.rt.fwd.sub n.val).waiting = some w ∧
      w + u16 b 66 * tMs ≤ (State.advance t s).rt.time.up) ∧
    (∃ (t : Time) (v : Fin 4096) (b : Bytes) (c : Nat) (k : Time) (s : State), mget s.gens.active.relays v.val = some b ∧
      (s.rt.fwd.relay v.val).merged = some c ∧ (s.rt.fwd.relay v.val).keyAt = some k ∧ k + u16 b 58 * tMs ≤ (State.advance t s).rt.time.up) ∧
    (∃ (leg : Fin 8192) (q : Lined) (s : State), (s.rt.fwd.line leg.val).queue = [q]) ∧
    (∃ (t : Time) (p : Fin 4) (o : Outbound) (s : State) (v : State), portFree (State.advance t s) p.val = true ∧ s.rt.net.isUp p.val = true ∧
      mgetD s.rt.time.queues p.val [] = [] ∧ wfqNext p.val (wfqCount (State.advance t s) p.val) (State.advance t s) = (v, some o)) ∧
    (∃ (t : Time) (p : Fin 4) (f : Timed) (l : List Timed) (s : State), portFree (State.advance t s) p.val = true ∧
      mgetD s.rt.time.queues p.val [] = f :: l ∧ f.launch ≤ (State.advance t s).now) ∧
    (∃ (t : Time) (p : Fin 4) (s : State), portFree (State.advance t s) p.val = false) ∧
    (∃ (k : Nat) (b : Bytes) (s : State), mget s.gens.active.policers k = some b) :=
  ⟨⟨0, { len := 1519 }, upn, by decide +kernel, .inl (by decide +kernel)⟩,
    ⟨0, { len := 100 }, 2, upn, by decide +kernel⟩,
    ⟨0, { len := 100 }, upn, by decide +kernel⟩,
    ⟨0, full, by decide +kernel⟩,
    ⟨3, { c := 100 * 16777216 }, pol, by decide +kernel⟩,
    ⟨100 * tMs, 5, putAt relayBlock 0x38 (le 2 100), rel {}, by decide +kernel⟩,
    ⟨100 * tMs, full.modFwd fun f => { f with rates := [(7, { windows := List.replicate 11 (5,6) })] }, by decide +kernel⟩,
    ⟨99 * tMs, full.modFwd fun f => { f with rates := [(7, { windows := List.replicate 11 (5,6) })] }, by decide +kernel⟩,
    ⟨0, subBlock, tm, by decide +kernel⟩,
    ⟨200 * tMs, 0, subBlock, 0, full.modFwd fun f => { f with subs := [(0, { waiting := some 0 })] }, by decide +kernel⟩,
    ⟨2 * tS, 5, relayBlock, 1, 0, full.modFwd fun f => { f with relays := [(5, { merged := some 1, keyAt := some 0 })] }, by decide +kernel⟩,
    ⟨0, lq, full.modFwd fun f => { f with lines := [(0, { queue := [lq] })] }, by decide +kernel⟩,
    ⟨5, 0, { flow := 3, port := 0, packet := { data := zeros 20 } }, wq, (wfqNext 0 (wfqCount (wq.advance 5) 0) (wq.advance 5)).1, by decide +kernel⟩,
    ⟨5, 0, { launch := 3, tolerance := 10, drop := false, packet := {} }, [], upn.modTime fun b => { b with queues := [(0, [{ launch := 3, tolerance := 10, drop := false, packet := {} }])] }, by decide +kernel⟩,
    ⟨5, 0, upn.modFwd fun f => { f with ports := [(0, { busy := 100 })] }, by decide +kernel⟩,
    ⟨3, pb, pol, by decide +kernel⟩⟩

theorem witness_SecurityRows :
    (∃ (q : Fin 2) (r : SecReq) (l : List SecReq) (s : State), s.rt.sec.enabled = true ∧ s.rt.sec.nextQueue = some q.val ∧
      mgetD s.rt.sec.waiting q.val [] = r :: l) ∧
    (∃ (q : Fin 2) (s : State), (s.rt.sec.nextQueue ≠ some q.val ∨ s.rt.sec.enabled = false)) ∧
    (∃ (s : State) (a : SecReq) (b : SecReq), s.rt.sec.waiting = [(0, [a]), (1, [b])]) ∧
    (∃ (n : Nat) (k : KeySlot) (g : Grace) (s : State), mget s.rt.sec.slots n = some k ∧ k.grace = some g) ∧
    (∃ (n : Nat), n < 65536) ∧
    (∃ (c : Crypt) (l : List Crypt) (p : PendingCmd) (key : Bytes) (s : State), s.rt.sec.crypts = c :: l ∧ State.findPending 2566 0 s = some p ∧
      s.rt.sec.enabled = true ∧ enginesUp s ≠ [] ∧ c.key = some key ∧ c.refused = false ∧
      ((genericOp (u8 p.params 4) key c.iv (memRead s.rt.dram.mem (u64 p.params 32) (if isGcm (u8 p.params 4) = true then u32 p.params 24 else 0)) (memRead s.rt.dram.mem (u64 p.params 32 + if isGcm (u8 p.params 4) = true then u32 p.params 24 else 0) (u32 p.params 28)) (slice p.params 48 16)).result = 0)) ∧
    (∃ (n : Fin 16) (s : State), s.reachable = true ∧ s.senak.heldWrites = [] ∧ blockReady (1048576 + n.val * 4096) s = true ∧
      (mgetD s.rt.sec.user n.val { }).busy = false) ∧
    (∃ (n : Fin 16) (s : State), s.reachable = true ∧ s.senak.heldWrites = [] ∧ blockReady (1048576 + n.val * 4096) s = true ∧
      (mgetD s.rt.sec.user n.val { }).busy = true) ∧
    (∃ (n : Fin 16) (r : Nat) (k : Option Bytes) (s : State), (mgetD s.rt.sec.user n.val { }).snap = some (k, r)) ∧
    (∃ (n : Fin 16) (s : State), s.reachable = true ∧ blockReady (1048576 + n.val * 4096) s = true) :=
  ⟨⟨0, .send 3 false false { flow := 3, port := 0 }, [], sq [.send 3 false false { flow := 3, port := 0 }], by decide +kernel⟩,
    ⟨0, full, by decide +kernel⟩,
    ⟨full.modSec fun x => { x with waiting := [(0, [wSecReq 3]), (1, [wSecReq 4])] }, wSecReq 3, wSecReq 4, by decide +kernel⟩,
    ⟨3, { kind := 1, key := [], grace := some gk }, gk, full.modSec fun x => { x with slots := [(3, { kind := 1, key := [], grace := some gk })] }, by decide +kernel⟩,
    ⟨2, by decide +kernel⟩,
    ⟨cr, [], ks 1, zeros 32, ((sq []).modSec fun x => { x with crypts := [cr] }).modSenak fun h => { h with pending := [ks 1] }, by decide +kernel⟩,
    ⟨2, pgd {}, by decide +kernel⟩,
    ⟨2, pgd { busy := true }, by decide +kernel⟩,
    ⟨2, 3, none, pgd { busy := true, snap := some (none, 3) }, by decide +kernel⟩,
    ⟨2, pgd { err := 7 }, by decide +kernel⟩⟩

theorem witness_RecorderRows :
    (∃ (x : Record) (l : List Record) (s : State), s.rt.recorder.arriving = x :: l ∧ s.rt.recorder.running = false) ∧
    (∃ (x : Record) (l : List Record) (g : Seg) (s : State), s.rt.recorder.arriving = x :: l ∧ s.rt.recorder.running = true ∧
      s.rt.recorder.seg = some g ∧ g.second < x.time / tS ∧ s.rt.recorder.staged + List.length (x.bytes 0) ≤ 8388608) ∧
    (∃ (x : Record) (l : List Record) (g : Seg) (s : State), s.rt.recorder.arriving = x :: l ∧ s.rt.recorder.running = true ∧
      s.rt.recorder.seg = some g ∧ x.time / tS = g.second) ∧
    (∃ (t : Time) (s : State), (State.advance t s).now % tS = 0 ∧ s.rt.recorder.running = true ∧ s.rt.recorder.clearing = false ∧
      (∀ (k : Nat), s.rt.recorder.lastOpen = some k → k < (State.advance t s).now / tS) ∧ s.rt.recorder.reserved = none ∧ s.rt.recorder.seg = none ∧
      s.rt.recorder.missing = none ∧
      hasRoom (State.modRec (fun (r : Rec) ↦ { running := r.running, mode := r.modeNext, modeNext := r.modeNext, segEvent := r.segEvent, chain := r.chain, seq := r.seq, link := r.link, oldest := r.oldest, drain := r.drain, sealedEnd := r.sealedEnd, write := r.write, lastSeq := r.lastSeq, lastSecond := r.lastSecond, seg := r.seg, reserved := r.reserved, lastOpen := r.lastOpen, held := r.held, missing := r.missing, staging := r.staging, arriving := r.arriving, lost := r.lost, lostSince := r.lostSince, lostAt := r.lostAt, overSince := r.overSince, overAt := r.overAt, reads := r.reads, clearing := r.clearing, acc := r.acc, runs := r.runs }) s) (s.rt.recorder.used + segReserve) = true) ∧
    (∃ (g : Seg) (s : State), s.rt.recorder.seg = some g ∧ s.rt.recorder.running = true ∧ s.rt.sec.enabled = true) ∧
    (∃ (t : Time) (s : State), (State.advance t s).now % tS = 0 ∧ s.rt.recorder.running = true) ∧
    (∃ (n : Fin 64) (p : PendingCmd) (x : Nat × Nat × Nat) (s : State), State.findPending 2820 n.val s = some p ∧
      List.find? (fun (x : Nat × Nat × Nat) ↦ x.fst == n.val) s.rt.recorder.reads = some x ∧ s.rt.dram.corrupt = []) ∧
    (∃ (n : Fin 64) (p : PendingCmd) (s : State), State.findPending 2822 n.val s = some p ∧ s.rt.dram.corrupt = []) ∧
    (∃ (c : Fin 64) (p : PendingCmd) (s : State), (mgetD s.rt.zip c.val { }).state = ZipState.running ∧ (mgetD s.rt.zip c.val { }).waiting = false ∧
      List.find? (fun (p : PendingCmd) ↦ (p.code == 2880 || p.code == 2881) && p.obj == c.val) s.senak.pending = some p) ∧
    (∃ (n : Fin 64) (c : PendingCmd) (b : Bytes) (s : State), State.findPending 3073 n.val s = some c ∧
      List.find? (fun (x : Nat × Bytes) ↦ x.fst == n.val) s.rt.dsp.loading = some (n.val, b) ∧
      memRead s.rt.dram.mem (u64 c.params 8) (u32 c.params 4) = b ∧ badHeader b = none ∧ imageTrusted s b = true) ∧
    (∃ (t : Time) (q : Nat) (m : Images) (b : Bytes) (w : Time) (s : State), (State.advance t s).now % tMs = 0 ∧ s.rt.dsp.images = [(q, m)] ∧
      m.waiting = some (b, w) ∧ w + tMs ≤ (State.advance t s).rt.time.up) :=
  ⟨⟨rcd, [], rc fun r => { r with arriving := [rcd] }, by decide +kernel⟩,
    ⟨rcd, [], { second := 2 }, rc fun r => { r with arriving := [rcd], running := true, seg := some { second := 2 } }, by decide +kernel⟩,
    ⟨rcd, [], { second := 3 }, rc fun r => { r with arriving := [rcd], running := true, seg := some { second := 3 } }, by decide +kernel⟩,
    ⟨tS, rc fun r => { r with running := true }, by decide +kernel⟩,
    ⟨{ second := 2 }, (rc fun r => { r with running := true, seg := some { second := 2 } }).modSec fun x => { x with enabled := true }, by decide +kernel⟩,
    ⟨tS, rc fun r => { r with running := true }, by decide +kernel⟩,
    ⟨2, pcm 0x0B04 2 (zeros 32), (2, 0, 64), pnd (pcm 0x0B04 2 (zeros 32)) (rc fun r => { r with reads := [(2, 0, 64)] }), by decide +kernel⟩,
    ⟨2, pcm 0x0B06 2 (block 64 [(8, 8, 160)]), pnd (pcm 0x0B06 2 (block 64 [(8, 8, 160)])) full, by decide +kernel⟩,
    ⟨2, pcm 0x0B40 2 (zeros 48), zs, by decide +kernel⟩,
    ⟨2, pcm 0x0C01 2 ldp, img, lds, by decide +kernel⟩,
    ⟨tMs, 3, { waiting := some (img, 0) }, img, 0, { full with rt := { full.rt with dsp := { full.rt.dsp with images := [(3, { waiting := some (img, 0) })] } } }, by decide +kernel⟩⟩

theorem witness_YarrowMultiplies :
    (([(0x00, 0), (0x01, 0x1FE1), (0x02, 0x1FE1), (0x03, 0x1FE1), (0x04, 1), (0x05, 1), (0x06, 1)].all fun x => runs x.1 x.2) = true) ∧
    (∃ (t : Time) (b : Fin 16) (p : Fin 9) (w : BitVec 41) (k : Nat) (m : List Word24 × List Word24 × Eff) (s : State), issuing s b.val p.val = some k ∧
      fetches (s.core k) [1 * 2 ^ 41 + w.toNat] = true ∧ (s.core k).delay = none ∧ (s.core k).repeat_ = none ∧ (s.core k).ctrlLate = [] ∧
      bits w.toNat 40 28 &&& 8161 = bits w.toNat 40 28 ∧ ((State.advance t s).env b.val p.val k).moves w.toNat = some m) ∧
    (∃ (t : Time) (b : Fin 16) (p : Fin 9) (w : BitVec 41) (k : Nat) (m : List Word24 × List Word24 × Eff) (s : State), issuing s b.val p.val = some k ∧
      fetches (s.core k) [2 * 2 ^ 41 + w.toNat] = true ∧ (s.core k).delay = none ∧ (s.core k).repeat_ = none ∧ (s.core k).ctrlLate = [] ∧
      bits w.toNat 40 28 &&& 8161 = bits w.toNat 40 28 ∧ ((State.advance t s).env b.val p.val k).moves w.toNat = some m) ∧
    (∃ (t : Time) (b : Fin 16) (p : Fin 9) (w : BitVec 41) (k : Nat) (m : List Word24 × List Word24 × Eff) (s : State), issuing s b.val p.val = some k ∧
      fetches (s.core k) [3 * 2 ^ 41 + w.toNat] = true ∧ (s.core k).delay = none ∧ (s.core k).repeat_ = none ∧ (s.core k).ctrlLate = [] ∧
      bits w.toNat 40 28 &&& 8161 = bits w.toNat 40 28 ∧ ((State.advance t s).env b.val p.val k).moves w.toNat = some m) ∧
    (∃ (t : Time) (b : Fin 16) (p : Fin 9) (w : BitVec 41) (k : Nat) (c : Word24) (d : Word24) (x : Move) (y : Move) (e : Eff) (s : State), issuing s b.val p.val = some k ∧
      fetches (s.core k) [7 * 2 ^ 41 + w.toNat] = true ∧ (s.core k).delay = none ∧ (s.core k).repeat_ = none ∧ (s.core k).ctrlLate = [] ∧
      bits w.toNat 40 28 &&& 3 = bits w.toNat 40 28 ∧ moveOf (bits w.toNat 27 14) = some (some x) ∧ moveOf (bits w.toNat 13 0) = some (some y) ∧
      x.kind = 1 ∧ x.store = false ∧ x.reg = 0 ∧ y.kind = 1 ∧ y.store = false ∧ y.reg = 0 ∧
      ((State.advance t s).env b.val p.val k).moves w.toNat = some ([c, 0], [d, 0], e)) ∧
    (∃ (t : Time) (b : Fin 16) (p : Fin 9) (w : BitVec 41) (k : Nat) (c : Word24) (d : Word24) (x : Move) (y : Move) (e : Eff) (s : State), issuing s b.val p.val = some k ∧
      fetches (s.core k) [8 * 2 ^ 41 + w.toNat] = true ∧ (s.core k).delay = none ∧ (s.core k).repeat_ = none ∧ (s.core k).ctrlLate = [] ∧
      bits w.toNat 40 28 &&& 6145 = bits w.toNat 40 28 ∧ moveOf (bits w.toNat 27 14) = some (some x) ∧ moveOf (bits w.toNat 13 0) = some (some y) ∧
      x.kind = 1 ∧ x.store = false ∧ x.reg = 0 ∧ y.kind = 1 ∧ y.store = false ∧ y.reg = 0 ∧
      ((State.advance t s).env b.val p.val k).moves w.toNat = some ([c, 0], [d, 0], e)) :=
  ⟨by decide +kernel,
    ⟨5, 0, 1, W (0x1FE1 * 2 ^ 28), 1, mm 0, yz, by decide +kernel⟩,
    ⟨5, 0, 1, W (0x1FE1 * 2 ^ 28), 1, mm 0, yz, by decide +kernel⟩,
    ⟨5, 0, 1, W (0x1FE1 * 2 ^ 28), 1, mm 0, yz, by decide +kernel⟩,
    ⟨5, 0, 1, W (3 * 2 ^ 28 + mv), 1, (mm mv).1.getD 0 0, (mm mv).2.1.getD 0 0, mx (mv / 2 ^ 14), mx (mv % 2 ^ 14), (mm mv).2.2, yz, by decide +kernel⟩,
    ⟨5, 0, 1, W (0x1801 * 2 ^ 28 + mv), 1, (mm mv).1.getD 0 0, (mm mv).2.1.getD 0 0, mx (mv / 2 ^ 14), mx (mv % 2 ^ 14), (mm mv).2.2, yz, by decide +kernel⟩⟩

theorem witness_YarrowAccumulators :
    (([(0x10, 0x1E00), (0x11, 0x1E00), (0x12, 0x1F00), (0x13, 0x1F00), (0x14, 0x1800), (0x15, 0x1800), (0x16, 0x1800), (0x17, 0x1E00), (0x1A, 0x1800), (0x1B, 0), (0x1C, 1), (0x1D, 0x1F00)].all fun x => runs x.1 x.2) = true) ∧
    (∃ (t : Time) (b : Fin 16) (p : Fin 9) (w : BitVec 41) (k : Nat) (m : List Word24 × List Word24 × Eff) (s : State), issuing s b.val p.val = some k ∧
      fetches (s.core k) [18 * 2 ^ 41 + w.toNat] = true ∧ (s.core k).delay = none ∧ (s.core k).repeat_ = none ∧ (s.core k).ctrlLate = [] ∧
      bits w.toNat 40 28 &&& 7936 = bits w.toNat 40 28 ∧ ((State.advance t s).env b.val p.val k).moves w.toNat = some m) ∧
    (∃ (t : Time) (b : Fin 16) (p : Fin 9) (w : BitVec 41) (k : Nat) (m : List Word24 × List Word24 × Eff) (s : State), issuing s b.val p.val = some k ∧
      fetches (s.core k) [19 * 2 ^ 41 + w.toNat] = true ∧ (s.core k).delay = none ∧ (s.core k).repeat_ = none ∧ (s.core k).ctrlLate = [] ∧
      bits w.toNat 40 28 &&& 7936 = bits w.toNat 40 28 ∧ ((State.advance t s).env b.val p.val k).moves w.toNat = some m) ∧
    (∃ (t : Time) (b : Fin 16) (p : Fin 9) (w : BitVec 41) (k : Nat) (m : List Word24 × List Word24 × Eff) (s : State), issuing s b.val p.val = some k ∧
      fetches (s.core k) [29 * 2 ^ 41 + w.toNat] = true ∧ (s.core k).delay = none ∧ (s.core k).repeat_ = none ∧ (s.core k).ctrlLate = [] ∧
      bits w.toNat 40 28 &&& 7936 = bits w.toNat 40 28 ∧ ((State.advance t s).env b.val p.val k).moves w.toNat = some m) ∧
    (∃ (t : Time) (b : Fin 16) (p : Fin 9) (w : BitVec 41) (k : Nat) (m : List Word24 × List Word24 × Eff) (s : State), issuing s b.val p.val = some k ∧
      fetches (s.core k) [30 * 2 ^ 41 + w.toNat] = true ∧ (s.core k).delay = none ∧ (s.core k).repeat_ = none ∧ (s.core k).ctrlLate = [] ∧
      bits w.toNat 40 28 &&& 8188 = bits w.toNat 40 28 ∧ bits w.toNat 35 30 ≤ 32 ∧ ((State.advance t s).env b.val p.val k).moves w.toNat = some m) :=
  ⟨by decide +kernel,
    ⟨5, 0, 1, W (0x1F00 * 2 ^ 28), 1, mm 0, yz, by decide +kernel⟩,
    ⟨5, 0, 1, W (0x1F00 * 2 ^ 28), 1, mm 0, yz, by decide +kernel⟩,
    ⟨5, 0, 1, W (0x1F00 * 2 ^ 28), 1, mm 0, yz, by decide +kernel⟩,
    ⟨5, 0, 1, W (0x1F00 * 2 ^ 28), 1, mm 0, yz, by decide +kernel⟩⟩

theorem witness_YarrowWords :
    (([(0x20, 0x700), (0x21, 0x1800), (0x22, 0), (0x28, 0x7E0), (0x29, 0x7E0), (0x2A, 0x7E0), (0x2B, 0x7E0), (0x2C, 0x7E0), (0x2D, 0x7E0)].all fun x => runs x.1 x.2) = true) ∧
    (∃ (t : Time) (b : Fin 16) (p : Fin 9) (w : BitVec 41) (k : Nat) (m : List Word24 × List Word24 × Eff) (s : State), issuing s b.val p.val = some k ∧
      fetches (s.core k) [40 * 2 ^ 41 + w.toNat] = true ∧ (s.core k).delay = none ∧ (s.core k).repeat_ = none ∧ (s.core k).ctrlLate = [] ∧
      bits w.toNat 40 28 &&& 2016 = bits w.toNat 40 28 ∧ ((State.advance t s).env b.val p.val k).moves w.toNat = some m) ∧
    (∃ (t : Time) (b : Fin 16) (p : Fin 9) (w : BitVec 41) (k : Nat) (m : List Word24 × List Word24 × Eff) (s : State), issuing s b.val p.val = some k ∧
      fetches (s.core k) [41 * 2 ^ 41 + w.toNat] = true ∧ (s.core k).delay = none ∧ (s.core k).repeat_ = none ∧ (s.core k).ctrlLate = [] ∧
      bits w.toNat 40 28 &&& 2016 = bits w.toNat 40 28 ∧ ((State.advance t s).env b.val p.val k).moves w.toNat = some m) ∧
    (∃ (t : Time) (b : Fin 16) (p : Fin 9) (w : BitVec 41) (k : Nat) (m : List Word24 × List Word24 × Eff) (s : State), issuing s b.val p.val = some k ∧
      fetches (s.core k) [42 * 2 ^ 41 + w.toNat] = true ∧ (s.core k).delay = none ∧ (s.core k).repeat_ = none ∧ (s.core k).ctrlLate = [] ∧
      bits w.toNat 40 28 &&& 2016 = bits w.toNat 40 28 ∧ ((State.advance t s).env b.val p.val k).moves w.toNat = some m) ∧
    (∃ (t : Time) (b : Fin 16) (p : Fin 9) (w : BitVec 41) (k : Nat) (m : List Word24 × List Word24 × Eff) (s : State), issuing s b.val p.val = some k ∧
      fetches (s.core k) [43 * 2 ^ 41 + w.toNat] = true ∧ (s.core k).delay = none ∧ (s.core k).repeat_ = none ∧ (s.core k).ctrlLate = [] ∧
      bits w.toNat 40 28 &&& 2016 = bits w.toNat 40 28 ∧ ((State.advance t s).env b.val p.val k).moves w.toNat = some m) ∧
    (∃ (t : Time) (b : Fin 16) (p : Fin 9) (w : BitVec 41) (k : Nat) (m : List Word24 × List Word24 × Eff) (s : State), issuing s b.val p.val = some k ∧
      fetches (s.core k) [44 * 2 ^ 41 + w.toNat] = true ∧ (s.core k).delay = none ∧ (s.core k).repeat_ = none ∧ (s.core k).ctrlLate = [] ∧
      bits w.toNat 40 28 &&& 2016 = bits w.toNat 40 28 ∧ ((State.advance t s).env b.val p.val k).moves w.toNat = some m) ∧
    (∃ (t : Time) (b : Fin 16) (p : Fin 9) (w : BitVec 41) (k : Nat) (m : List Word24 × List Word24 × Eff) (s : State), issuing s b.val p.val = some k ∧
      fetches (s.core k) [45 * 2 ^ 41 + w.toNat] = true ∧ (s.core k).delay = none ∧ (s.core k).repeat_ = none ∧ (s.core k).ctrlLate = [] ∧
      bits w.toNat 40 28 &&& 2016 = bits w.toNat 40 28 ∧ ((State.advance t s).env b.val p.val k).moves w.toNat = some m) :=
  ⟨by decide +kernel,
    ⟨5, 0, 1, W (0x7E0 * 2 ^ 28), 1, mm 0, yz, by decide +kernel⟩,
    ⟨5, 0, 1, W (0x7E0 * 2 ^ 28), 1, mm 0, yz, by decide +kernel⟩,
    ⟨5, 0, 1, W (0x7E0 * 2 ^ 28), 1, mm 0, yz, by decide +kernel⟩,
    ⟨5, 0, 1, W (0x7E0 * 2 ^ 28), 1, mm 0, yz, by decide +kernel⟩,
    ⟨5, 0, 1, W (0x7E0 * 2 ^ 28), 1, mm 0, yz, by decide +kernel⟩,
    ⟨5, 0, 1, W (0x7E0 * 2 ^ 28), 1, mm 0, yz, by decide +kernel⟩⟩

theorem witness_YarrowShifts :
    (([(0x19, 0x1800)].all fun x => runs x.1 x.2) = true) ∧
    (∃ (t : Time) (b : Fin 16) (p : Fin 9) (w : BitVec 41) (k : Nat) (m : List Word24 × List Word24 × Eff) (s : State), issuing s b.val p.val = some k ∧
      fetches (s.core k) [24 * 2 ^ 41 + w.toNat] = true ∧ (s.core k).delay = none ∧ (s.core k).repeat_ = none ∧ (s.core k).ctrlLate = [] ∧
      bits w.toNat 40 28 &&& 8176 = bits w.toNat 40 28 ∧ -56 ≤ signed 7 (bits w.toNat 38 32) ∧ signed 7 (bits w.toNat 38 32) ≤ 55 ∧
      ((State.advance t s).env b.val p.val k).moves w.toNat = some m) ∧
    (∃ (t : Time) (b : Fin 16) (p : Fin 9) (w : BitVec 41) (k : Nat) (m : List Word24 × List Word24 × Eff) (s : State), issuing s b.val p.val = some k ∧
      fetches (s.core k) [25 * 2 ^ 41 + w.toNat] = true ∧ (s.core k).delay = none ∧ (s.core k).repeat_ = none ∧ (s.core k).ctrlLate = [] ∧
      bits w.toNat 40 28 &&& 6144 = bits w.toNat 40 28 ∧ ((State.advance t s).env b.val p.val k).moves w.toNat = some m) ∧
    (∃ (t : Time) (b : Fin 16) (p : Fin 9) (w : BitVec 41) (k : Nat) (m : List Word24 × List Word24 × Eff) (s : State), issuing s b.val p.val = some k ∧
      fetches (s.core k) [46 * 2 ^ 41 + w.toNat] = true ∧ (s.core k).delay = none ∧ (s.core k).repeat_ = none ∧ (s.core k).ctrlLate = [] ∧
      bits w.toNat 40 28 &&& 2040 = bits w.toNat 40 28 ∧ bits w.toNat 35 31 ≤ 23 ∧ ((State.advance t s).env b.val p.val k).moves w.toNat = some m) ∧
    (∃ (t : Time) (b : Fin 16) (p : Fin 9) (w : BitVec 41) (k : Nat) (m : List Word24 × List Word24 × Eff) (s : State), issuing s b.val p.val = some k ∧
      fetches (s.core k) [47 * 2 ^ 41 + w.toNat] = true ∧ (s.core k).delay = none ∧ (s.core k).repeat_ = none ∧ (s.core k).ctrlLate = [] ∧
      bits w.toNat 40 28 &&& 2040 = bits w.toNat 40 28 ∧ bits w.toNat 35 31 ≤ 23 ∧ ((State.advance t s).env b.val p.val k).moves w.toNat = some m) ∧
    (∃ (t : Time) (b : Fin 16) (p : Fin 9) (w : BitVec 41) (k : Nat) (m : List Word24 × List Word24 × Eff) (s : State), issuing s b.val p.val = some k ∧
      fetches (s.core k) [48 * 2 ^ 41 + w.toNat] = true ∧ (s.core k).delay = none ∧ (s.core k).repeat_ = none ∧ (s.core k).ctrlLate = [] ∧
      bits w.toNat 40 28 &&& 2040 = bits w.toNat 40 28 ∧ bits w.toNat 35 31 ≤ 23 ∧ ((State.advance t s).env b.val p.val k).moves w.toNat = some m) :=
  ⟨by decide +kernel,
    ⟨5, 0, 1, W (7 * 2 ^ 36), 1, mm 0, yz, by decide +kernel⟩,
    ⟨5, 0, 1, W (0x1800 * 2 ^ 28), 1, mm 0, yz, by decide +kernel⟩,
    ⟨5, 0, 1, W (7 * 2 ^ 36), 1, mm 0, yz, by decide +kernel⟩,
    ⟨5, 0, 1, W (7 * 2 ^ 36), 1, mm 0, yz, by decide +kernel⟩,
    ⟨5, 0, 1, W (7 * 2 ^ 36), 1, mm 0, yz, by decide +kernel⟩⟩

theorem witness_YarrowMoves :
    (∃ (b : Fin 16) (p : Fin 9) (w : BitVec 40) (k : Nat) (s : State), issuing s b.val p.val = some k ∧
      fetches (s.core k) [2 ^ 47 + 0 * 2 ^ 40 + w.toNat] = true ∧ (s.core k).delay = none ∧ (s.core k).repeat_ = none ∧ (s.core k).ctrlLate = [] ∧
      w.toNat &&& 1099243192320 = w.toNat ∧ bits w.toNat 39 34 ≤ 50 ∧ bits w.toNat 33 28 ≤ 50) ∧
    (∃ (b : Fin 16) (p : Fin 9) (w : BitVec 40) (k : Nat) (s : State), issuing s b.val p.val = some k ∧
      fetches (s.core k) [2 ^ 47 + 1 * 2 ^ 40 + w.toNat] = true ∧ (s.core k).delay = none ∧ (s.core k).repeat_ = none ∧ (s.core k).ctrlLate = [] ∧
      w.toNat &&& 1082331824127 = w.toNat ∧ bits w.toNat 39 34 ≤ 50) ∧
    (∃ (b : Fin 16) (p : Fin 9) (w : BitVec 40) (v : BitVec 48) (k : Nat) (s : State), issuing s b.val p.val = some k ∧
      fetches (s.core k) [2 ^ 47 + 65 * 2 ^ 40 + w.toNat, v.toNat] = true ∧ (s.core k).delay = none ∧ (s.core k).repeat_ = none ∧
      (s.core k).ctrlLate = [] ∧ w.toNat % 2 ^ 34 = 0 ∧ v.toNat < 2 ^ 24 ∧ bits w.toNat 39 34 ≤ 50) ∧
    (∃ (t : Time) (b : Fin 16) (p : Fin 9) (w : BitVec 40) (k : Nat) (s : State), issuing s b.val p.val = some k ∧
      fetches (s.core k) [2 ^ 47 + 2 * 2 ^ 40 + w.toNat] = true ∧ (s.core k).delay = none ∧ (s.core k).repeat_ = none ∧ (s.core k).ctrlLate = [] ∧
      w.toNat &&& 1082331774975 = w.toNat ∧ bits w.toNat 39 34 ≤ 50 ∧
      (((State.advance t s).env b.val p.val k).load 0 false (w.toNat % 16384)).isSome = true) ∧
    (∃ (t : Time) (b : Fin 16) (p : Fin 9) (w : BitVec 40) (k : Nat) (s : State), issuing s b.val p.val = some k ∧
      fetches (s.core k) [2 ^ 47 + 3 * 2 ^ 40 + w.toNat] = true ∧ (s.core k).delay = none ∧ (s.core k).repeat_ = none ∧ (s.core k).ctrlLate = [] ∧
      w.toNat &&& 1082331774975 = w.toNat ∧ bits w.toNat 39 34 ≤ 50 ∧
      (((State.advance t s).env b.val p.val k).load 0 true (w.toNat % 16384)).isSome = true) ∧
    (∃ (t : Time) (b : Fin 16) (p : Fin 9) (w : BitVec 40) (k : Nat) (s : State), issuing s b.val p.val = some k ∧
      fetches (s.core k) [2 ^ 47 + 4 * 2 ^ 40 + w.toNat] = true ∧ (s.core k).delay = none ∧ (s.core k).repeat_ = none ∧ (s.core k).ctrlLate = [] ∧
      w.toNat &&& 1082331774975 = w.toNat ∧ bits w.toNat 39 34 ≤ 50 ∧ ((State.advance t s).env b.val p.val k).storable false (w.toNat % 16384) = true) ∧
    (∃ (t : Time) (b : Fin 16) (p : Fin 9) (w : BitVec 40) (k : Nat) (s : State), issuing s b.val p.val = some k ∧
      fetches (s.core k) [2 ^ 47 + 5 * 2 ^ 40 + w.toNat] = true ∧ (s.core k).delay = none ∧ (s.core k).repeat_ = none ∧ (s.core k).ctrlLate = [] ∧
      w.toNat &&& 1082331774975 = w.toNat ∧ bits w.toNat 39 34 ≤ 50 ∧ ((State.advance t s).env b.val p.val k).storable true (w.toNat % 16384) = true) ∧
    (∃ (t : Time) (b : Fin 16) (p : Fin 9) (w : BitVec 40) (k : Nat) (s : State), issuing s b.val p.val = some k ∧
      fetches (s.core k) [2 ^ 47 + 6 * 2 ^ 40 + w.toNat] = true ∧ (s.core k).delay = none ∧ (s.core k).repeat_ = none ∧ (s.core k).ctrlLate = [] ∧
      w.toNat &&& 1097364144128 = w.toNat ∧ bits w.toNat 39 34 ≤ 50 ∧
      (((State.advance t s).env b.val p.val k).load 0 false (BitVec.toNat (((State.advance t s).env b.val p.val k).c.regs.p.getD (bits w.toNat 33 31) 0 + ((State.advance t s).env b.val p.val k).c.regs.n.getD (bits w.toNat 33 31) 0))).isSome = true) ∧
    (∃ (t : Time) (b : Fin 16) (p : Fin 9) (w : BitVec 40) (k : Nat) (s : State), issuing s b.val p.val = some k ∧
      fetches (s.core k) [2 ^ 47 + 7 * 2 ^ 40 + w.toNat] = true ∧ (s.core k).delay = none ∧ (s.core k).repeat_ = none ∧ (s.core k).ctrlLate = [] ∧
      w.toNat &&& 1097364144128 = w.toNat ∧ bits w.toNat 39 34 ≤ 50 ∧
      (((State.advance t s).env b.val p.val k).load 0 true (BitVec.toNat (((State.advance t s).env b.val p.val k).c.regs.p.getD (bits w.toNat 33 31) 0 + ((State.advance t s).env b.val p.val k).c.regs.n.getD (bits w.toNat 33 31) 0))).isSome = true) ∧
    (∃ (t : Time) (b : Fin 16) (p : Fin 9) (w : BitVec 40) (k : Nat) (s : State), issuing s b.val p.val = some k ∧
      fetches (s.core k) [2 ^ 47 + 8 * 2 ^ 40 + w.toNat] = true ∧ (s.core k).delay = none ∧ (s.core k).repeat_ = none ∧ (s.core k).ctrlLate = [] ∧
      w.toNat &&& 1097364144128 = w.toNat ∧ bits w.toNat 39 34 ≤ 50 ∧
      ((State.advance t s).env b.val p.val k).storable false (BitVec.toNat (((State.advance t s).env b.val p.val k).c.regs.p.getD (bits w.toNat 33 31) 0 + ((State.advance t s).env b.val p.val k).c.regs.n.getD (bits w.toNat 33 31) 0)) = true) ∧
    (∃ (t : Time) (b : Fin 16) (p : Fin 9) (w : BitVec 40) (k : Nat) (s : State), issuing s b.val p.val = some k ∧
      fetches (s.core k) [2 ^ 47 + 9 * 2 ^ 40 + w.toNat] = true ∧ (s.core k).delay = none ∧ (s.core k).repeat_ = none ∧ (s.core k).ctrlLate = [] ∧
      w.toNat &&& 1097364144128 = w.toNat ∧ bits w.toNat 39 34 ≤ 50 ∧
      ((State.advance t s).env b.val p.val k).storable true (BitVec.toNat (((State.advance t s).env b.val p.val k).c.regs.p.getD (bits w.toNat 33 31) 0 + ((State.advance t s).env b.val p.val k).c.regs.n.getD (bits w.toNat 33 31) 0)) = true) ∧
    (∃ (t : Time) (b : Fin 16) (p : Fin 9) (w : BitVec 40) (v : BitVec 48) (k : Nat) (s : State), issuing s b.val p.val = some k ∧
      fetches (s.core k) [2 ^ 47 + 66 * 2 ^ 40 + w.toNat, v.toNat] = true ∧ (s.core k).delay = none ∧ (s.core k).repeat_ = none ∧
      (s.core k).ctrlLate = [] ∧ w.toNat % 2 ^ 34 = 0 ∧ v.toNat < 2 ^ 24 ∧ bits w.toNat 39 34 ≤ 50 ∧
      (((State.advance t s).env b.val p.val k).load 0 false v.toNat).isSome = true) ∧
    (∃ (t : Time) (b : Fin 16) (p : Fin 9) (w : BitVec 40) (v : BitVec 48) (k : Nat) (s : State), issuing s b.val p.val = some k ∧
      fetches (s.core k) [2 ^ 47 + 67 * 2 ^ 40 + w.toNat, v.toNat] = true ∧ (s.core k).delay = none ∧ (s.core k).repeat_ = none ∧
      (s.core k).ctrlLate = [] ∧ w.toNat % 2 ^ 34 = 0 ∧ v.toNat < 2 ^ 24 ∧ bits w.toNat 39 34 ≤ 50 ∧
      (((State.advance t s).env b.val p.val k).load 0 true v.toNat).isSome = true) ∧
    (∃ (t : Time) (b : Fin 16) (p : Fin 9) (w : BitVec 40) (v : BitVec 48) (k : Nat) (s : State), issuing s b.val p.val = some k ∧
      fetches (s.core k) [2 ^ 47 + 68 * 2 ^ 40 + w.toNat, v.toNat] = true ∧ (s.core k).delay = none ∧ (s.core k).repeat_ = none ∧
      (s.core k).ctrlLate = [] ∧ w.toNat % 2 ^ 34 = 0 ∧ v.toNat < 2 ^ 24 ∧ bits w.toNat 39 34 ≤ 50 ∧
      ((State.advance t s).env b.val p.val k).storable false v.toNat = true) ∧
    (∃ (t : Time) (b : Fin 16) (p : Fin 9) (w : BitVec 40) (v : BitVec 48) (k : Nat) (s : State), issuing s b.val p.val = some k ∧
      fetches (s.core k) [2 ^ 47 + 69 * 2 ^ 40 + w.toNat, v.toNat] = true ∧ (s.core k).delay = none ∧ (s.core k).repeat_ = none ∧
      (s.core k).ctrlLate = [] ∧ w.toNat % 2 ^ 34 = 0 ∧ v.toNat < 2 ^ 24 ∧ bits w.toNat 39 34 ≤ 50 ∧
      ((State.advance t s).env b.val p.val k).storable true v.toNat = true) ∧
    (∃ (b : Fin 16) (p : Fin 9) (w : BitVec 40) (k : Nat) (s : State), issuing s b.val p.val = some k ∧
      fetches (s.core k) [2 ^ 47 + 10 * 2 ^ 40 + w.toNat] = true ∧ (s.core k).delay = none ∧ (s.core k).repeat_ = none ∧ (s.core k).ctrlLate = [] ∧
      w.toNat &&& 16642998272 = w.toNat ∧ 0 < bits w.toNat 30 29) :=
  ⟨⟨0, 1, BitVec.ofNat 40 (2^31+2^29), 1, ysr, by decide +kernel⟩,
    ⟨0, 1, BitVec.ofNat 40 (8*2^34+11), 1, ysr, by decide +kernel⟩,
    ⟨0, 1, BitVec.ofNat 40 (5*2^34), 21, 1, ysr, by decide +kernel⟩,
    ⟨5, 0, 1, BitVec.ofNat 40 (8*2^34+11), 1, ysr, by decide +kernel⟩,
    ⟨5, 0, 1, BitVec.ofNat 40 (8*2^34+11), 1, ysr, by decide +kernel⟩,
    ⟨5, 0, 1, BitVec.ofNat 40 (8*2^34+11), 1, ysr, by decide +kernel⟩,
    ⟨5, 0, 1, BitVec.ofNat 40 (8*2^34+11), 1, ysr, by decide +kernel⟩,
    ⟨5, 0, 1, BitVec.ofNat 40 (5*2^34+2^31), 1, ysr, by decide +kernel⟩,
    ⟨5, 0, 1, BitVec.ofNat 40 (5*2^34+2^31), 1, ysr, by decide +kernel⟩,
    ⟨5, 0, 1, BitVec.ofNat 40 (5*2^34+2^31), 1, ysr, by decide +kernel⟩,
    ⟨5, 0, 1, BitVec.ofNat 40 (5*2^34+2^31), 1, ysr, by decide +kernel⟩,
    ⟨5, 0, 1, BitVec.ofNat 40 (5*2^34), 21, 1, ysr, by decide +kernel⟩,
    ⟨5, 0, 1, BitVec.ofNat 40 (5*2^34), 21, 1, ysr, by decide +kernel⟩,
    ⟨5, 0, 1, BitVec.ofNat 40 (5*2^34), 21, 1, ysr, by decide +kernel⟩,
    ⟨5, 0, 1, BitVec.ofNat 40 (5*2^34), 21, 1, ysr, by decide +kernel⟩,
    ⟨0, 1, BitVec.ofNat 40 (2^31+2^29), 1, ysr, by decide +kernel⟩⟩

theorem witness_YarrowFlow :
    (∃ (b : Fin 16) (p : Fin 9) (k : Nat) (s : State), issuing s b.val p.val = some k ∧ (s.core k).ctrlLate = [] ∧ fetches (s.core k) [0] = true ∧
      (s.core k).delay = some (2, some 77) ∧ (s.core k).repeat_ = none) ∧
    (∃ (b : Fin 16) (p : Fin 9) (k : Nat) (s : State), issuing s b.val p.val = some k ∧ (s.core k).ctrlLate = [] ∧ fetches (s.core k) [0] = true ∧
      (s.core k).delay = some (1, none) ∧ (s.core k).repeat_ = none) ∧
    (∃ (b : Fin 16) (p : Fin 9) (k : Nat) (s : State), issuing s b.val p.val = some k ∧ (s.core k).ctrlLate = [] ∧ fetches (s.core k) [0] = true ∧
      (s.core k).delay = none ∧ (s.core k).repeat_ = some 2) ∧
    (∃ (b : Fin 16) (p : Fin 9) (k : Nat) (s : State), issuing s b.val p.val = some k ∧ (s.core k).ctrlLate = [] ∧ fetches (s.core k) [0] = true ∧
      (s.core k).delay = none ∧ (s.core k).repeat_ = some 1) ∧
    (∃ (b : Fin 16) (p : Fin 9) (k : Nat) (w : BitVec 40) (s : State), issuing s b.val p.val = some k ∧ (s.core k).ctrlLate = [] ∧
      fetches (s.core k) [2 ^ 47 + 0x10 * 2 ^ 40 + w.toNat] = true ∧ ((s.core k).delay.isSome = true ∨ (s.core k).repeat_.isSome = true)) ∧
    (∃ (b : Fin 16) (p : Fin 9) (w : BitVec 40) (k : Nat) (s : State), issuing s b.val p.val = some k ∧
      fetches (s.core k) [2 ^ 47 + 16 * 2 ^ 40 + w.toNat] = true ∧ (s.core k).delay = none ∧ (s.core k).repeat_ = none ∧ (s.core k).ctrlLate = [] ∧
      w.toNat &&& 999423 = w.toNat ∧ bits w.toNat 19 16 ≤ 12) ∧
    (∃ (b : Fin 16) (p : Fin 9) (w : BitVec 40) (k : Nat) (s : State), issuing s b.val p.val = some k ∧
      fetches (s.core k) [2 ^ 47 + 18 * 2 ^ 40 + w.toNat] = true ∧ (s.core k).delay = none ∧ (s.core k).repeat_ = none ∧ (s.core k).ctrlLate = [] ∧
      w.toNat &&& 15033368576 = w.toNat ∧ bits w.toNat 19 16 ≤ 12) ∧
    (∃ (b : Fin 16) (p : Fin 9) (w : BitVec 40) (k : Nat) (s : State), issuing s b.val p.val = some k ∧
      fetches (s.core k) [2 ^ 47 + 17 * 2 ^ 40 + w.toNat] = true ∧ (s.core k).delay = none ∧ (s.core k).repeat_ = none ∧ (s.core k).ctrlLate = [] ∧
      w.toNat &&& 16383 = w.toNat) ∧
    (∃ (b : Fin 16) (p : Fin 9) (w : BitVec 40) (k : Nat) (s : State), issuing s b.val p.val = some k ∧
      fetches (s.core k) [2 ^ 47 + 19 * 2 ^ 40 + w.toNat] = true ∧ (s.core k).delay = none ∧ (s.core k).repeat_ = none ∧ (s.core k).ctrlLate = [] ∧
      w.toNat &&& 0 = w.toNat) ∧
    (∃ (b : Fin 16) (p : Fin 9) (w : BitVec 40) (k : Nat) (s : State), issuing s b.val p.val = some k ∧
      fetches (s.core k) [2 ^ 47 + 20 * 2 ^ 40 + w.toNat] = true ∧ (s.core k).delay = none ∧ (s.core k).repeat_ = none ∧ (s.core k).ctrlLate = [] ∧
      w.toNat &&& 8191 = w.toNat ∧ 1 ≤ w.toNat % 8192 ∧ w.toNat % 8192 ≤ 4096) ∧
    (∃ (t : Time) (b : Fin 16) (p : Fin 9) (w : BitVec 40) (k : Nat) (s : State), issuing s b.val p.val = some k ∧
      fetches (s.core k) [2 ^ 47 + 21 * 2 ^ 40 + w.toNat] = true ∧ (s.core k).delay = none ∧ (s.core k).repeat_ = none ∧ (s.core k).ctrlLate = [] ∧
      w.toNat &&& 0 = w.toNat ∧
      (landAll ((State.advance t s).env b.val p.val k).c.late (landAll ((State.advance t s).env b.val p.val k).c.later ((State.advance t s).env b.val p.val k).c.regs)).lc.toNat ≤ 4096) :=
  ⟨⟨0, 1, 1, ys { yflow with delay := some (2, some 77) }, by decide +kernel⟩,
    ⟨0, 1, 1, ys { yflow with delay := some (1, none) }, by decide +kernel⟩,
    ⟨0, 1, 1, ys { yflow with repeat_ := some 2 }, by decide +kernel⟩,
    ⟨0, 1, 1, ys { yflow with repeat_ := some 1 }, by decide +kernel⟩,
    ⟨0, 1, 1, 0, ys { yflow with repeat_ := some 1 }, by decide +kernel⟩,
    ⟨0, 1, BitVec.ofNat 40 (0), 1, ysr, by decide +kernel⟩,
    ⟨0, 1, BitVec.ofNat 40 (0), 1, ysr, by decide +kernel⟩,
    ⟨0, 1, BitVec.ofNat 40 (0), 1, ysr, by decide +kernel⟩,
    ⟨0, 1, BitVec.ofNat 40 (0), 1, ysr, by decide +kernel⟩,
    ⟨0, 1, BitVec.ofNat 40 (77), 1, ysr, by decide +kernel⟩,
    ⟨5, 0, 1, BitVec.ofNat 40 (0), 1, ysr, by decide +kernel⟩⟩

theorem witness_YarrowIllegal :
    (∃ (b : Fin 16) (p : Fin 9) (w : BitVec 41) (k : Nat) (s : State), issuing s b.val p.val = some k ∧
      fetches (s.core k) [0 * 2 ^ 41 + w.toNat] = true ∧ (s.core k).delay = none ∧ (s.core k).repeat_ = none ∧ (s.core k).ctrlLate = [] ∧
      bits w.toNat 40 28 ≠ 0) ∧
    (∃ (b : Fin 16) (p : Fin 9) (w : BitVec 41) (k : Nat) (s : State), issuing s b.val p.val = some k ∧
      fetches (s.core k) [2 * 2 ^ 41 + w.toNat] = true ∧ (s.core k).delay = none ∧ (s.core k).repeat_ = none ∧ (s.core k).ctrlLate = [] ∧
      bits w.toNat 32 29 ≠ 0) ∧
    (∃ (b : Fin 16) (p : Fin 9) (w : BitVec 41) (k : Nat) (s : State), issuing s b.val p.val = some k ∧
      fetches (s.core k) [24 * 2 ^ 41 + w.toNat] = true ∧ (s.core k).delay = none ∧ (s.core k).repeat_ = none ∧ (s.core k).ctrlLate = [] ∧
      (signed 7 (bits w.toNat 38 32) < -56 ∨ 55 < signed 7 (bits w.toNat 38 32))) ∧
    (∃ (b : Fin 16) (p : Fin 9) (w : BitVec 41) (k : Nat) (s : State), issuing s b.val p.val = some k ∧
      fetches (s.core k) [30 * 2 ^ 41 + w.toNat] = true ∧ (s.core k).delay = none ∧ (s.core k).repeat_ = none ∧ (s.core k).ctrlLate = [] ∧
      32 < bits w.toNat 35 30) ∧
    (∃ (b : Fin 16) (p : Fin 9) (w : BitVec 41) (k : Nat) (s : State), issuing s b.val p.val = some k ∧
      fetches (s.core k) [46 * 2 ^ 41 + w.toNat] = true ∧ (s.core k).delay = none ∧ (s.core k).repeat_ = none ∧ (s.core k).ctrlLate = [] ∧
      23 < bits w.toNat 35 31) ∧
    (∃ (b : Fin 16) (p : Fin 9) (w : BitVec 41) (k : Nat) (s : State), issuing s b.val p.val = some k ∧
      fetches (s.core k) [0 * 2 ^ 41 + w.toNat] = true ∧ (s.core k).delay = none ∧ (s.core k).repeat_ = none ∧ (s.core k).ctrlLate = [] ∧
      bits w.toNat 27 26 = 1 ∧ 12 ≤ bits w.toNat 18 15) ∧
    (∃ (b : Fin 16) (p : Fin 9) (w : BitVec 40) (k : Nat) (s : State), issuing s b.val p.val = some k ∧
      fetches (s.core k) [2 ^ 47 + 0 * 2 ^ 40 + w.toNat] = true ∧ (s.core k).delay = none ∧ (s.core k).repeat_ = none ∧ (s.core k).ctrlLate = [] ∧
      (50 < bits w.toNat 39 34 ∨ 50 < bits w.toNat 33 28)) ∧
    (∃ (b : Fin 16) (p : Fin 9) (w : BitVec 40) (k : Nat) (s : State), issuing s b.val p.val = some k ∧
      fetches (s.core k) [2 ^ 47 + 1 * 2 ^ 40 + w.toNat] = true ∧ (s.core k).delay = none ∧ (s.core k).repeat_ = none ∧ (s.core k).ctrlLate = [] ∧
      bits w.toNat 33 16 ≠ 0) ∧
    (∃ (b : Fin 16) (p : Fin 9) (w : BitVec 40) (k : Nat) (s : State), issuing s b.val p.val = some k ∧
      fetches (s.core k) [2 ^ 47 + 16 * 2 ^ 40 + w.toNat] = true ∧ (s.core k).delay = none ∧ (s.core k).repeat_ = none ∧ (s.core k).ctrlLate = [] ∧
      12 < bits w.toNat 19 16) ∧
    (∃ (b : Fin 16) (p : Fin 9) (w : BitVec 40) (k : Nat) (s : State), issuing s b.val p.val = some k ∧
      fetches (s.core k) [2 ^ 47 + 20 * 2 ^ 40 + w.toNat] = true ∧ (s.core k).delay = none ∧ (s.core k).repeat_ = none ∧ (s.core k).ctrlLate = [] ∧
      (w.toNat % 8192 = 0 ∨ 4096 < w.toNat % 8192)) :=
  ⟨⟨0, 1, W (2^28), 1, yz, by decide +kernel⟩,
    ⟨0, 1, W (2^29), 1, yz, by decide +kernel⟩,
    ⟨0, 1, W (60*2^32), 1, yz, by decide +kernel⟩,
    ⟨0, 1, W (24*2^31), 1, yz, by decide +kernel⟩,
    ⟨0, 1, W (24*2^31), 1, yz, by decide +kernel⟩,
    ⟨0, 1, W (2^26+12*2^15), 1, yz, by decide +kernel⟩,
    ⟨0, 1, BitVec.ofNat 40 (51*2^34), 1, yz, by decide +kernel⟩,
    ⟨0, 1, BitVec.ofNat 40 (2^16), 1, yz, by decide +kernel⟩,
    ⟨0, 1, BitVec.ofNat 40 (13*2^16), 1, yz, by decide +kernel⟩,
    ⟨0, 1, BitVec.ofNat 40 (0), 1, yz, by decide +kernel⟩⟩

theorem witness_YarrowRegisterCodes :
    ∃ (r : Regs) (c : Nat), c ≤ 50 ∧ r.x.length = 8 ∧ r.acc.length = 4 ∧ r.p.length = 8 ∧ r.n.length = 8 ∧ r.m.length = 8 :=
  ⟨{}, 50, by decide +kernel⟩

theorem witness_YarrowWordsAndPointers :
    (∃ (m : Mem), m.wf = true) ∧
    (∃ (m : Word24) (p : Word24) (n : Int), descriptor m = 1 ∧ BitVec.toNat p / 16384 * 16384 + 64 * bits (BitVec.toNat m) 21 14 ≤ BitVec.toNat p ∧
      (BitVec.toNat p < BitVec.toNat p / 16384 * 16384 + 64 * bits (BitVec.toNat m) 21 14 + if bits (BitVec.toNat m) 13 0 = 0 then 16384 else bits (BitVec.toNat m) 13 0) ∧
      (-↑(if bits (BitVec.toNat m) 13 0 = 0 then 16384 else bits (BitVec.toNat m) 13 0) ≤ n) ∧
      (n ≤ ↑(if bits (BitVec.toNat m) 13 0 = 0 then 16384 else bits (BitVec.toNat m) 13 0))) :=
  ⟨⟨[(4, 1)], by decide +kernel⟩,
    ⟨BitVec.ofNat 24 (2 ^ 22 + 64), 63, 64, by decide +kernel⟩⟩

theorem witness_CoreControlAndDma :
    (∃ (b : Fin 16) (p : Fin 9) (k : Nat) (s : State), issuing s b.val p.val = some k) ∧
    (∃ (b : Fin 16) (p : Fin 9) (ch : Fin 4) (s : State), (∀ (k : Nat), coreKey s b.val p.val = some k → ((s.core k).dma.getD ch.val { }).busy = false)) ∧
    (∃ (b : Fin 16) (p : Fin 9) (ch : Fin 4) (k : Nat) (s : State), Safe s ∧ coreKey s b.val p.val = some k ∧
      ((s.core k).dma.getD ch.val { }).busy = true ∧ ((s.core k).dma.getD ch.val { }).rows = 1 ∧ ((s.core k).dma.getD ch.val { }).valid = true ∧
      ((s.core k).dma.getD ch.val { }).src + ((s.core k).dma.getD ch.val { }).len ≤ s.rt.dram.fitted ∧
      ((s.core k).dma.getD ch.val { }).dst + ((s.core k).dma.getD ch.val { }).len ≤ s.rt.dram.fitted ∧
      ((s.core k).dma.getD ch.val { }).src + ((s.core k).dma.getD ch.val { }).len ≤ 2 ^ 40 ∧
      ((s.core k).dma.getD ch.val { }).dst + ((s.core k).dma.getD ch.val { }).len ≤ 2 ^ 40 ∧ s.rt.dram.corrupt = [] ∧
      ((s.core k).dma.getD ch.val { }).snap = memRead s.rt.dram.mem ((s.core k).dma.getD ch.val { }).src ((s.core k).dma.getD ch.val { }).len) :=
  ⟨⟨0, 1, 1, yz, by decide +kernel⟩,
    ⟨0, 1, 0, ydma { }, by decide +kernel⟩,
    ⟨0, 1, 0, 1, yd2, safe_of (by decide +kernel), by decide +kernel⟩⟩

theorem witness_StreamPortRegistersAndFifos :
    (∃ (h : Fin 64) (out : Bool) (s : State), 4096 ≤ (dirOf s h.val out).words.length) ∧
    (∃ (h : Fin 64) (s : State), s.reachable = true ∧ s.senak.heldWrites = [] ∧ blockReady (2097152 + h.val * 256 + 12) s = true) ∧
    (∃ (h : Fin 64) (s : State), s.reachable = true ∧ s.senak.heldWrites = [] ∧ blockReady (2097152 + h.val * 256 + 44) s = true) ∧
    (∃ (h : Fin 64) (s : State), s.reachable = true ∧ s.senak.heldWrites = [] ∧ blockReady (2097152 + h.val * 256 + 8) s = true) ∧
    (∃ (h : Fin 64) (s : State), s.reachable = true ∧ s.senak.heldWrites = [] ∧ blockReady (2097152 + h.val * 256 + 40) s = true) ∧
    (∃ (h : Fin 64) (s : State), s.reachable = true ∧ s.senak.heldWrites = [] ∧ blockReady (2097152 + h.val * 256 + 68) s = true) ∧
    (∃ (h : Fin 64) (s : State), s.reachable = true ∧ s.rt.power.state = 0 ∧ blockReady (2097152 + h.val * 256 + 12) s = false) ∧
    (∃ (h : Fin 64) (v : BitVec 32) (l : List HeldWrite) (s : State), s.senak.heldWrites = { off := 2097152 + h.val * 256 + 12, value := v.toNat } :: l ∧
      blockReady (2097152 + h.val * 256 + 12) s = true) ∧
    (∃ (s : State), s.senak.heldWrites = []) ∧
    (∃ (off : Nat) (s : State), s.reachable = true ∧ s.rt.power.state = 0 ∧ off % 4 = 0 ∧ inBlock off = true ∧ blockReady off s = false) ∧
    (∃ (h : Fin 64) (out : Bool) (s : State), (dirOf s h.val out).words.length < 4096) ∧
    (∃ (h : Fin 64) (out : Bool) (x : FifoWord) (l : List FifoWord) (s : State), (dirOf s h.val out).words = x :: l) ∧
    (∃ (h : Fin 64) (out : Bool) (s : State), (dirOf s h.val out).words = []) :=
  ⟨⟨3, false, hs { inb := { words := List.replicate 4096 { data := 0, last := false, parity := false } } }, by decide +kernel⟩,
    ⟨3, hs {}, by decide +kernel⟩,
    ⟨3, hs {}, by decide +kernel⟩,
    ⟨3, hs {}, by decide +kernel⟩,
    ⟨3, hs {}, by decide +kernel⟩,
    ⟨3, hs {}, by decide +kernel⟩,
    ⟨3, npw, by decide +kernel⟩,
    ⟨3, 5, [], (hs {}).modSenak fun h => { h with heldWrites := [⟨0x20030C, 5⟩] }, by decide +kernel⟩,
    ⟨hs {}, by decide +kernel⟩,
    ⟨0x100004, npw, by decide +kernel⟩,
    ⟨3, true, hs {}, by decide +kernel⟩,
    ⟨3, false, fifoWord 7 true, [], hs { inb := { words := [fifoWord 7 true], lengths := [3] } }, by decide +kernel⟩,
    ⟨3, false, hs {}, by decide +kernel⟩⟩

theorem witness_StreamPortPackets :
    (∃ (h : Fin 64) (s : State), (¬have d := dirOf s h.val false; d.en = true ∧ d.head % 2 ^ d.log2 ≠ d.tail % 2 ^ d.log2 ∧
      s.senak.pcie.canSend = true ∧ (false = false → s.stalls 35 = false))) ∧
    (∃ (h : Fin 64) (s : State), Safe s ∧ (dirOf s h.val false).en = true ∧
      (dirOf s h.val false).head % 2 ^ (dirOf s h.val false).log2 ≠ (dirOf s h.val false).tail % 2 ^ (dirOf s h.val false).log2 ∧
      s.senak.pcie.canSend = true ∧ (false = false → s.stalls 35 = false) ∧
      (¬(u32 (memRead s.hostMem ((dirOf s h.val false).base.toNat * 4096 + 32 * (dirOf s h.val false).head) 16) 12 = 0 ∧
      1 ≤ u32 (memRead s.hostMem ((dirOf s h.val false).base.toNat * 4096 + 32 * (dirOf s h.val false).head) 16) 8 ∧
      u32 (memRead s.hostMem ((dirOf s h.val false).base.toNat * 4096 + 32 * (dirOf s h.val false).head) 16) 8 ≤ 16384))) ∧
    (∃ (h : Fin 64) (s : State), Safe s ∧ (dirOf s h.val false).en = true ∧
      (dirOf s h.val false).head % 2 ^ (dirOf s h.val false).log2 ≠ (dirOf s h.val false).tail % 2 ^ (dirOf s h.val false).log2 ∧
      s.senak.pcie.canSend = true ∧ (false = false → s.stalls 35 = false) ∧
      u32 (memRead s.hostMem ((dirOf s h.val false).base.toNat * 4096 + 32 * (dirOf s h.val false).head) 16) 12 = 0 ∧
      1 ≤ u32 (memRead s.hostMem ((dirOf s h.val false).base.toNat * 4096 + 32 * (dirOf s h.val false).head) 16) 8 ∧
      u32 (memRead s.hostMem ((dirOf s h.val false).base.toNat * 4096 + 32 * (dirOf s h.val false).head) 16) 8 ≤ 16384 ∧
      (s.hspPort h.val).inb.words.length + (u32 (memRead s.hostMem ((dirOf s h.val false).base.toNat * 4096 + 32 * (dirOf s h.val false).head) 16) 8 + 7) / 8 ≤ 4096) ∧
    (∃ (h : Fin 64) (s : State), (¬have d := dirOf s h.val true; d.en = true ∧ d.head % 2 ^ d.log2 ≠ d.tail % 2 ^ d.log2 ∧
      s.senak.pcie.canSend = true ∧ (true = false → s.stalls 35 = false))) ∧
    (∃ (h : Fin 64) (s : State), (s.hspPort h.val).outb.lengths = []) ∧
    (∃ (h : Fin 64) (n : Nat) (l : List Nat) (s : State), Safe s ∧ (dirOf s h.val true).en = true ∧
      (dirOf s h.val true).head % 2 ^ (dirOf s h.val true).log2 ≠ (dirOf s h.val true).tail % 2 ^ (dirOf s h.val true).log2 ∧
      s.senak.pcie.canSend = true ∧ (true = false → s.stalls 35 = false) ∧ (s.hspPort h.val).outb.lengths = n :: l ∧
      (¬(u32 (memRead s.hostMem ((dirOf s h.val true).base.toNat * 4096 + 32 * (dirOf s h.val true).head) 16) 12 = 0 ∧
      64 ≤ u32 (memRead s.hostMem ((dirOf s h.val true).base.toNat * 4096 + 32 * (dirOf s h.val true).head) 16) 8 ∧
      u32 (memRead s.hostMem ((dirOf s h.val true).base.toNat * 4096 + 32 * (dirOf s h.val true).head) 16) 8 ≤ 16384 ∧
      u32 (memRead s.hostMem ((dirOf s h.val true).base.toNat * 4096 + 32 * (dirOf s h.val true).head) 16) 8 % 64 = 0))) ∧
    (∃ (h : Fin 64) (b : Bytes) (rest : HspDir) (s : State), Safe s ∧ (dirOf s h.val true).en = true ∧
      (dirOf s h.val true).head % 2 ^ (dirOf s h.val true).log2 ≠ (dirOf s h.val true).tail % 2 ^ (dirOf s h.val true).log2 ∧
      s.senak.pcie.canSend = true ∧ (true = false → s.stalls 35 = false) ∧ (s.hspPort h.val).outb.take = some (b, false, rest) ∧
      u32 (memRead s.hostMem ((dirOf s h.val true).base.toNat * 4096 + 32 * (dirOf s h.val true).head) 16) 12 = 0 ∧
      64 ≤ u32 (memRead s.hostMem ((dirOf s h.val true).base.toNat * 4096 + 32 * (dirOf s h.val true).head) 16) 8 ∧
      u32 (memRead s.hostMem ((dirOf s h.val true).base.toNat * 4096 + 32 * (dirOf s h.val true).head) 16) 8 ≤ 16384 ∧
      u32 (memRead s.hostMem ((dirOf s h.val true).base.toNat * 4096 + 32 * (dirOf s h.val true).head) 16) 8 % 64 = 0 ∧
      (u64 (memRead s.hostMem ((dirOf s h.val true).base.toNat * 4096 + 32 * (dirOf s h.val true).head) 16) 0 + u32 (memRead s.hostMem ((dirOf s h.val true).base.toNat * 4096 + 32 * (dirOf s h.val true).head) 16) 8 ≤ (s.hspPort h.val).outb.base.toNat * 4096 + 32 * (s.hspPort h.val).outb.head + 16 ∨ (s.hspPort h.val).outb.base.toNat * 4096 + 32 * (s.hspPort h.val).outb.head + 24 ≤ u64 (memRead s.hostMem ((dirOf s h.val true).base.toNat * 4096 + 32 * (dirOf s h.val true).head) 16) 0)) ∧
    (∃ (h : Fin 64) (s : State), (s.hspPort h.val).due = false) ∧
    (∃ (h : Fin 64) (s : State), (s.hspPort h.val).due = true ∧ (s.hspPort h.val).sentAt = none ∧ 0 < u8 (hspBlock s h.val) 2 ∧
      u8 (hspBlock s h.val) 2 < 64 ∧ s.senak.pcie.canSend = true ∧ msixMasked s.senak.pcie (u8 (hspBlock s h.val) 2) = false) :=
  ⟨⟨3, hs {}, by decide +kernel⟩,
    ⟨3, ring (4096 + 32*63) (dsc 0 0) (hs { inb := di }), safe_of (by decide +kernel), by decide +kernel⟩,
    ⟨3, ring (4096 + 32*63) (dsc 0x9000 100) (hs { inb := di }), safe_of (by decide +kernel), by decide +kernel⟩,
    ⟨3, hs {}, by decide +kernel⟩,
    ⟨3, hs {}, by decide +kernel⟩,
    ⟨3, 3, [], ring (4096 + 32*63) (dsc 0x9000 100) (hs { outb := { di with words := packetWords [1,2,3], lengths := [3] } }), safe_of (by decide +kernel), by decide +kernel⟩,
    ⟨3, [1,2,3], { di with words := [], lengths := [] }, ring (4096 + 32*63) (dsc 0x9000 128) (hs { outb := { di with words := packetWords [1,2,3], lengths := [3] } }), safe_of (by decide +kernel), by decide +kernel⟩,
    ⟨3, hs {}, by decide +kernel⟩,
    ⟨3, (hs {due := true, block := block 16 [(0,1,3),(2,1,5)] }).modSenak fun h => { h with pcie := { h.pcie with msixTable := [(23, 0)] } }, by decide +kernel⟩⟩

theorem witness_TimeRows :
    (∃ (s : State), s.rt.time.armed = none) ∧
    (∃ (s : State) (p : Bytes), s.rt.time.armed = some p) ∧
    (∃ (t : Nat) (s : State), (∃ (w : Slew), (State.advance t s).rt.time.slew = some w ∧
      w.offset.natAbs * tNs * 1000000000 ≤ ((State.advance t s).rt.time.up - w.start) * w.rate)) ∧
    (∃ (t : Nat) (s : State), (¬∃ (w : Slew), (State.advance t s).rt.time.slew = some w ∧
      w.offset.natAbs * tNs * 1000000000 ≤ ((State.advance t s).rt.time.up - w.start) * w.rate)) ∧
    (∃ (rising : Bool) (s : State), (s.timeClock = false ∨ rising ≠ (u8 s.rt.time.pins 12 == 0))) ∧
    (∃ (t : Time) (rising : Bool) (l : Time) (s : State), s.timeClock = true ∧ rising = (u8 s.rt.time.pins 12 == 0) ∧ s.rt.time.lastPps = some l ∧
      (State.advance t s).now / 4096 * 4096 < l + tS / 2) ∧
    (∃ (t : Time) (rising : Bool) (s : State), s.timeClock = true ∧ rising = (u8 s.rt.time.pins 12 == 0) ∧
      (∀ (l : Time), s.rt.time.lastPps = some l → l + tS / 2 ≤ (State.advance t s).now / 4096 * 4096) ∧ u8 s.rt.time.servo 0 ≠ 2) ∧
    (∃ (t : Time) (rising : Bool) (s : State), s.timeClock = true ∧ rising = (u8 s.rt.time.pins 12 == 0) ∧
      (∀ (l : Time), s.rt.time.lastPps = some l → l + tS / 2 ≤ (State.advance t s).now / 4096 * 4096) ∧ u8 s.rt.time.servo 0 = 2 ∧
      s.rt.time.phasePresent = true ∧ s.rt.time.state = Servo.locked) ∧
    (∃ (m : PtpOffset) (theta : Int) (s : State), u8 s.rt.time.servo 0 = 1 ∧ s.rt.time.phasePresent = true ∧ s.rt.time.state = Servo.locked ∧
      ptpTheta s.rt.time m = some theta ∧ s.rt.time.freqIn = false ∧ theta.natAbs < u32 s.rt.time.servo 20 * tNs) ∧
    (∃ (m : PtpOffset) (theta : Int) (s : State), u8 s.rt.time.servo 0 = 1 ∧ s.rt.time.phasePresent = true ∧ s.rt.time.state = Servo.locked ∧
      ptpTheta s.rt.time m = some theta ∧ u32 s.rt.time.servo 20 * tNs ≤ theta.natAbs) ∧
    (∃ (m : PtpOffset) (s : State), (u8 s.rt.time.servo 0 ≠ 1 ∨ s.rt.time.phasePresent = false ∨ ptpTheta s.rt.time m = none)) ∧
    (∃ (m : PtpMessage) (s : State), u8 (mgetD s.rt.time.ptp ↑m.port []) 1 = 1 ∧ m.type = 1 ∧ m.selected = true) ∧
    (∃ (m : PtpMessage) (s : State), u8 (mgetD s.rt.time.ptp ↑m.port []) 1 = 1 ∧ m.type = 0 ∧ mgetD s.rt.net.inbox (24577 + 64 * ↑m.port) [] = []) ∧
    (∃ (m : PtpMessage) (s : State), u8 (mgetD s.rt.time.ptp ↑m.port []) 1 = 1 ∧ m.type = 3) ∧
    (∃ (m : PtpMessage) (s : State), u8 (mgetD s.rt.time.ptp ↑m.port []) 1 ≠ 1) ∧
    (∃ (f : Rat) (s : State), s.timeClock = true ∧ u8 s.rt.time.servo 1 ≠ 0 ∧ -100000 ≤ f ∧ f ≤ 100000) ∧
    (∃ (s : State), (s.timeClock = false ∨ u8 s.rt.time.servo 1 = 0)) ∧
    (∃ (t : Time) (l : Time) (s : State), u8 s.rt.time.servo 0 = 2 ∧ s.rt.time.phasePresent = true ∧ s.rt.time.lastPps = some l ∧
      l + 3 * tS / 2 ≤ (State.advance t s).now) ∧
    (∃ (s : State), s.rt.time.phasePresent = false) ∧
    (∃ (t : Time) (s : State), s.rt.time.state = Servo.holdover ∧ 0 < u16 s.rt.time.servo 26 ∧ s.rt.time.limitPassed = false ∧
      s.rt.time.stateSince + u16 s.rt.time.servo 26 * 60 * tS ≤ (State.advance t s).up) ∧
    (∃ (s : State), s.rt.time.state ≠ Servo.holdover) ∧
    (∃ (t : Time) (s : State), u8 s.rt.time.pins 10 = 1 ∧ (↑(State.advance t s).now - sN s.rt.time.pins 4 4 * ↑tNs) % ↑tS = 0 ∧
      0 < ↑(State.advance t s).now - sN s.rt.time.pins 4 4 * ↑tNs ∧ ↑s.rt.time.setAt + ↑tMs ≤ ↑(State.advance t s).now - sN s.rt.time.pins 4 4 * ↑tNs) ∧
    (∃ (s : State), u8 s.rt.time.pins 10 ≠ 1) ∧
    (∃ (s : State), s.rt.power.refclkOk = false) ∧
    (∃ (s : State), s.rt.power.refclkOk = true) :=
  ⟨⟨live, by decide +kernel⟩,
    ⟨tmb fun b => { b with armed := some (block 24 [(8, 8, 1000)]) }, block 24 [(8, 8, 1000)], by decide +kernel⟩,
    ⟨tS, tmb fun b => { b with slew := some ⟨1000, 1000, 0⟩ }, by decide +kernel⟩,
    ⟨2 * tS, nrc, by decide +kernel⟩,
    ⟨false, live, by decide +kernel⟩,
    ⟨tS / 4, true, 0, tmb fun b => { b with lastPps := some 0 }, by decide +kernel⟩,
    ⟨tS, true, live, by decide +kernel⟩,
    ⟨tS, true, tmb fun b => { b with lastPps := none, servo := sv 2 0, phasePresent := true, state := .locked }, by decide +kernel⟩,
    ⟨{ port := 1, delay := 695 }, 5 * tNs, wPtp 0, by decide +kernel⟩,
    ⟨{ port := 1, delay := 199 }, 501 * tNs, wPtp 3, by decide +kernel⟩,
    ⟨{ port := 1, delay := 5 }, lk id, by decide +kernel⟩,
    ⟨{ port := 1, type := 1, selected := true, grandmaster := 77 }, tmb fun b => { b with servo := sv 1 0, ptp := [(1, [1,1])] }, by decide +kernel⟩,
    ⟨{ port := 1, type := 0 }, wPtpOn, by decide +kernel⟩,
    ⟨{ port := 1, type := 3, data := zeros 34 ++ be 6 5 ++ be 4 7 }, wPtpOn, by decide +kernel⟩,
    ⟨{ port := 1, type := 1, selected := true, grandmaster := 77 }, live, by decide +kernel⟩,
    ⟨-100000, tmb fun b => { b with servo := sv 0 1, state := .freeRun }, by decide +kernel⟩,
    ⟨live, by decide +kernel⟩,
    ⟨2 * tS, 0, tmb fun b => { b with servo := sv 2 0, lastPps := some 0, phasePresent := true, state := .locked }, by decide +kernel⟩,
    ⟨nrc, by decide +kernel⟩,
    ⟨300 * 60 * tS, lk fun b => { b with state := .holdover }, by decide +kernel⟩,
    ⟨nrc, by decide +kernel⟩,
    ⟨2 * tS, nrc, by decide +kernel⟩,
    ⟨tmb fun b => { b with pins := zeros 16 }, by decide +kernel⟩,
    ⟨nrc, by decide +kernel⟩,
    ⟨live, by decide +kernel⟩⟩

theorem witness_TimedQueues :
    (∃ (t : Time) (p : Fin 4) (f : TimedFrame) (s : State), f.launch ≤ (State.advance t s).now + tS ∧ (mgetD s.rt.time.queues p.val []).length < 2048) ∧
    (∃ (t : Time) (p : Fin 4) (f : TimedFrame) (s : State), ((State.advance t s).now + tS < f.launch ∨ 2048 ≤ (mgetD s.rt.time.queues p.val []).length)) ∧
    (∃ (m : PtpMessage) (s : State), (u8 (mgetD s.rt.time.ptp ↑m.port []) 1 = 1 ∨ m.type = 4) ∧ (mgetD s.rt.time.queues ↑m.port []).length < 2048) ∧
    (∃ (m : PtpMessage) (s : State), u8 (mgetD s.rt.time.ptp ↑m.port []) 1 ≠ 1 ∧ m.type ≠ 4) ∧
    (∃ (t : Time) (p : Fin 4) (f : Timed) (l : List Timed) (s : State), portFree (State.advance t s) p.val = true ∧
      mgetD s.rt.time.queues p.val [] = f :: l ∧ s.rt.net.isUp p.val = true ∧ f.packet.tag = none ∧ f.launch ≤ (State.advance t s).now ∧
      ((State.advance t s).now - f.launch < f.tolerance * tNs ∨ (State.advance t s).now - f.launch < 6 * tNs ∨ f.drop = false)) ∧
    (∃ (t : Time) (p : Fin 4) (f : Timed) (l : List Timed) (s : State), portFree (State.advance t s) p.val = true ∧
      mgetD s.rt.time.queues p.val [] = f :: l ∧ s.rt.net.isUp p.val = true ∧ f.packet.tag = none ∧
      f.launch + f.tolerance * tNs ≤ (State.advance t s).now ∧ f.launch + 6 * tNs ≤ (State.advance t s).now ∧ f.drop = true) ∧
    (∃ (t : Time) (p : Fin 4) (f : Timed) (l : List Timed) (s : State), mgetD s.rt.time.queues p.val [] = f :: l ∧ (State.advance t s).now < f.launch) ∧
    (∃ (p : Fin 4) (s : State), mgetD s.rt.time.queues p.val [] = []) :=
  ⟨⟨5, 0, ft 20, tq [tf 10, tf 30], by decide +kernel⟩,
    ⟨5, 0, ft (2*tS), tq [tf 10, tf 30], by decide +kernel⟩,
    ⟨{ port := 0, type := 4 }, tq [tf 1, tf 3], by decide +kernel⟩,
    ⟨{ port := 0, type := 0 }, tq [tf 1, tf 3], by decide +kernel⟩,
    ⟨5, 0, tf 1, [tf 3], tq [tf 1, tf 3], by decide +kernel⟩,
    ⟨5000000, 0, { tf 1 with drop := true }, [tf 3], tq [{ tf 1 with drop := true }, tf 3], by decide +kernel⟩,
    ⟨5, 0, tf 10, [tf 30], tq [tf 10, tf 30], by decide +kernel⟩,
    ⟨0, tq [], by decide +kernel⟩⟩

theorem witness_DramRows :
    (∃ (s : State), dramServes s = false) ∧
    (∃ (c : Fin 16) (line : Nat) (b : Bytes) (s : State), Safe s ∧ dramServes s = true ∧ (mgetD s.rt.dram.subs c.val { }).queue = [] ∧
      s.rt.dram.due = [] ∧ s.rt.dram.deferred = [] ∧ 64 * line < s.rt.dram.fitted ∧ s.rt.dram.ctlOf (64 * line) = c.val ∧ List.length b = 64) ∧
    (∃ (c : Fin 16) (line : Nat) (s : State), dramServes s = true ∧ (mgetD s.rt.dram.subs c.val { }).queue = [] ∧ s.rt.dram.due = [] ∧
      s.rt.dram.deferred = [] ∧ 64 * line < s.rt.dram.fitted ∧ s.rt.dram.ctlOf (64 * line) = c.val ∧ mget s.rt.dram.corrupt line = none) ∧
    (∃ (r : Fin 64) (s : State), dramServes s = true ∧ rankFitted s.rt.dram r.val = true) ∧
    (∃ (r : Fin 64) (s : State), (dramServes s = false ∨ rankFitted s.rt.dram r.val = false)) ∧
    (∃ (r : Fin 64) (s : State), dramServes s = true ∧ refreshDue s.rt.dram r.val = true) ∧
    (∃ (r : Fin 64) (s : State), (dramServes s = false ∨ refreshDue s.rt.dram r.val = false)) ∧
    (∃ (r : Fin 64) (s : State), 0 < s.rt.dram.fitted ∧ rankFitted s.rt.dram r.val = true) ∧
    (∃ (s : State), s.rt.dram.fitted = 0) ∧
    (∃ (t : Time) (s : State), scrubs (State.advance t s) = false) ∧
    (∃ (t : Time) (s : State), scrubs (State.advance t s) = true ∧ mget s.rt.dram.corrupt s.rt.dram.scrubLine = none) ∧
    (∃ (k : Fin 64) (t : Nat) (s : State), dramServes (State.advance t s) = true ∧ (State.advance t s).rt.mgmt.level = 1 ∧
      rankFitted (State.advance t s).rt.dram k.val = true ∧ rankBusy (State.advance t s).rt.dram k.val = false ∧
      mgetD (State.advance t s).rt.dram.lastUse k.val 0 + (State.advance t s).rt.dram.timer * tNs ≤ (State.advance t s).rt.time.up ∧
      (¬k.val ∈ (State.advance t s).rt.dram.downRanks)) ∧
    (∃ (k : Fin 64) (t : Nat) (s : State), (¬(dramServes (State.advance t s) = true ∧ (State.advance t s).rt.mgmt.level = 1 ∧
      rankFitted (State.advance t s).rt.dram k.val = true ∧ rankBusy (State.advance t s).rt.dram k.val = false ∧
      mgetD (State.advance t s).rt.dram.lastUse k.val 0 + (State.advance t s).rt.dram.timer * tNs ≤ (State.advance t s).rt.time.up ∧
      ¬k.val ∈ (State.advance t s).rt.dram.downRanks))) ∧
    (∃ (s : State), (s.boot.phase ≠ BootPhase.booting false ∨ s.boot.trained = true)) ∧
    (∃ (rate : Nat) (s : State), s.boot.phase = BootPhase.booting false ∧ s.boot.trained = false ∧ 4000 ≤ rate) ∧
    (∃ (s : State), s.boot.phase = BootPhase.booting false ∧ s.boot.trained = false) :=
  ⟨⟨{ live with rt := { live.rt with dram := { live.rt.dram with fitted := 0 } } }, by decide +kernel⟩,
    ⟨0, 0, List.replicate 64 7, live, safe_of (by decide +kernel), by decide +kernel⟩,
    ⟨0, 0, dr fun d => { d with mem := [(3, 7)] }, by decide +kernel⟩,
    ⟨0, live, by decide +kernel⟩,
    ⟨63, live, by decide +kernel⟩,
    ⟨0, dr fun d => { d with due := [0, 1], subs := [(0, { open_ := [(3, 1), (33, 2)] })], deferred := [(0, 2)] }, by decide +kernel⟩,
    ⟨0, live, by decide +kernel⟩,
    ⟨0, live, by decide +kernel⟩,
    ⟨dr fun d => { d with fitted := 0 }, by decide +kernel⟩,
    ⟨5, dr fun d => { d with fitted := 0 }, by decide +kernel⟩,
    ⟨5, live, by decide +kernel⟩,
    ⟨0, tMs, live.modRt fun r => { r with mgmt := { r.mgmt with level := 1 }, dram := { r.dram with timer := 1 } }, by decide +kernel⟩,
    ⟨5, 0, live, by decide +kernel⟩,
    ⟨live, by decide +kernel⟩,
    ⟨4000, tr, by decide +kernel⟩,
    ⟨tr, by decide +kernel⟩⟩

theorem witness_PowerRows :
    (∃ (t : Time) (e : Time) (s : State), s.rt.power.request = some (3, e) ∧ e ≤ (State.advance t s).up) ∧
    (∃ (t : Time) (e : Time) (s : State), s.rt.power.request = some (4, e) ∧ e ≤ (State.advance t s).up) ∧
    (∃ (t : Time) (s : State), (s.rt.power.request = none ∨ ∃ (n : Nat), ∃ (e : Time), s.rt.power.request = some (n, e) ∧ (State.advance t s).up < e)) ∧
    (∃ (s : State), s.rt.power.state = 4) ∧
    (∃ (low : Nat) (s : State), s.rt.power.state ≠ 4 ∧ low < 1000) ∧
    (∃ (low : Nat) (s : State), 1000 ≤ low ∧ (s.rt.power.state = 2 ∨ s.rt.power.state = 3)) ∧
    (∃ (t : Time) (w : Time) (s : State), s.rt.power.wakeAt = some w ∧ s.rt.power.state = 3 ∧ w ≤ (State.advance t s).now) ∧
    (∃ (s : State), s.rt.power.wakeAt = none) ∧
    (∃ (s : State), s.reachable = true ∧ s.rt.power.state = 2) ∧
    (∃ (s : State), (s.reachable = false ∨ s.rt.power.state ≠ 2)) ∧
    (∃ (mv : Nat) (v : VoltChange) (s : State), s.rt.power.volt = some v ∧ s.rt.power.queued = none ∧ mv ≤ coreMv v.target + 10 ∧ coreMv v.target ≤ mv + 10) ∧
    (∃ (mv : Nat) (v : VoltChange) (s : State), s.rt.power.volt = some v ∧ (coreMv v.target + 10 < mv ∨ mv + 10 < coreMv v.target)) ∧
    (∃ (t : Time) (v : VoltChange) (a : Armed) (s : State), s.rt.power.volt = some v ∧ s.gens.armed = some a ∧ v.raising = true ∧ a.waitPower = true ∧
      v.target = setPoint a.gen ∧ v.writtenAt + tMs ≤ (State.advance t s).up) ∧
    (∃ (s : State), (s.gens.armed = none ∨ s.rt.power.volt = none)) ∧
    (∃ (t : Time) (b : Fin 36) (i : Time) (s : State), mget s.rt.power.idleSince b.val = some i ∧ s.rt.power.state = 0 ∧ s.domainReady b.val = true ∧
      heldOn s.gens.active b.val = false ∧ domainBusy s b.val = false ∧ staysOn s b.val = false ∧ s.underTest b.val = false ∧
      i + u16 s.gens.active.power 2 * tMs ≤ (State.advance t s).up) ∧
    (∃ (b : Fin 36) (s : State), (mget s.rt.power.idleSince b.val = none ∨ staysOn s b.val = true)) ∧
    (∃ (b : Fin 36) (s : State), s.rt.power.state = 0 ∧ s.rt.power.powered.getLsbD b.val = false) ∧
    (∃ (s : State), s.rt.power.state ≠ 0) ∧
    (∃ (w : Time) (b : Fin 36) (s : State), mget s.rt.power.waking b.val = some w) ∧
    (∃ (b : Fin 36) (s : State), mget s.rt.power.waking b.val = none) ∧
    (∃ (s : State), (s.rt.power.state = 4 ∨ s.boot.phase = BootPhase.held)) ∧
    (∃ (s : State), s.rt.power.state ≠ 4 ∧ s.boot.phase ≠ BootPhase.held ∧ mhas s.rt.power.unlocked 2 = false) ∧
    (∃ (p : Fin 10) (s : State), 8 ≤ p.val ∧ s.rt.power.state ≠ 4 ∧ s.boot.phase ≠ BootPhase.held) ∧
    (∃ (since : Time) (p : Fin 10) (s : State), mget s.rt.power.unlocked p.val = some since ∧ s.rt.power.refclkOk = true) ∧
    (∃ (p : Fin 10) (s : State), mget s.rt.power.unlocked p.val = none) ∧
    (∃ (l : List Int) (s : State), s.rt.power.state ≠ 4 ∧ s.boot.phase ≠ BootPhase.held ∧ l.length = 16 ∧ (∀ (x : Int), x ∈ l → x < 1250)) ∧
    (∃ (l : List Int) (i : Fin 16) (s : State), s.rt.power.state ≠ 4 ∧ s.boot.phase ≠ BootPhase.held ∧ l.length = 16 ∧
      s.rt.power.tripOnce.getLsbD i.val = true ∧ 1250 ≤ l.getD i.val 0 ∧
      (∀ (j : Nat), j < i.val → s.rt.power.tripOnce.getLsbD j = false ∨ l.getD j 0 < 1250)) :=
  ⟨⟨tMs, 5, pw fun p => { p with request := some (3, 5) }, by decide +kernel⟩,
    ⟨tMs, 5, pw fun p => { p with request := some (4, 5) }, by decide +kernel⟩,
    ⟨3, live, .inl (by decide +kernel)⟩,
    ⟨pw fun p => { p with state := 4 }, by decide +kernel⟩,
    ⟨999, live, by decide +kernel⟩,
    ⟨1000, pw fun p => { p with state := 2 }, by decide +kernel⟩,
    ⟨10, 7, pw fun p => { p with state := 3, wakeAt := some 7 }, by decide +kernel⟩,
    ⟨live, by decide +kernel⟩,
    ⟨pw fun p => { p with state := 2 }, by decide +kernel⟩,
    ⟨live, by decide +kernel⟩,
    ⟨coreMv 1, vc, ({ armed with rt := (pw fun p => { p with volt := some vc }).rt }), by decide +kernel⟩,
    ⟨0, vc, pw fun p => { p with volt := some vc }, by decide +kernel⟩,
    ⟨tMs, vc, wAr, { (pw fun p => { p with volt := some vc }) with gens := { live.gens with armed := some wAr } }, by decide +kernel⟩,
    ⟨live, by decide +kernel⟩,
    ⟨1000*tMs, 16, 0, pw fun p => { p with idleSince := [(16, 0)] }, by decide +kernel⟩,
    ⟨999, live, by decide +kernel⟩,
    ⟨16, pw fun p => { p with powered := 0 }, by decide +kernel⟩,
    ⟨pw fun p => { p with state := 4 }, by decide +kernel⟩,
    ⟨0, 16, pw fun p => { p with waking := [(16, 0)] }, by decide +kernel⟩,
    ⟨999, live, by decide +kernel⟩,
    ⟨pw fun p => { p with state := 4 }, by decide +kernel⟩,
    ⟨live, by decide +kernel⟩,
    ⟨999, live, by decide +kernel⟩,
    ⟨0, 2, pw fun p => { p with unlocked := [(2, 0), (3, 5)] }, by decide +kernel⟩,
    ⟨999, live, by decide +kernel⟩,
    ⟨List.replicate 16 900, live, by decide +kernel⟩,
    ⟨List.replicate 16 1250, 2, pw fun p => { p with tripOnce := 12 }, by decide +kernel⟩⟩

theorem witness_BootRows :
    (∃ (low : Nat), low < 100) ∧
    (∃ (low : Nat), 1000 ≤ low) ∧
    (∃ (s : State), s.boot.phase = BootPhase.held ∧ s.rt.power.state ≠ 4) ∧
    (∃ (s : State), s.boot.phase ≠ BootPhase.held) ∧
    (∃ (low : Nat) (s : State), s.boot.phase ≠ BootPhase.held ∧ s.rt.power.state ≠ 4 ∧ 1000 ≤ low) ∧
    (∃ (low : Nat) (s : State), (¬(s.boot.phase ≠ BootPhase.held ∧ s.rt.power.state ≠ 4) ∨ low < 100)) ∧
    (∃ (s : State), s.boot.phase = BootPhase.warmHeld ∧ s.boot.readyOnce = true) ∧
    (∃ (s : State), s.boot.phase ≠ BootPhase.warmHeld) ∧
    (∃ (t : Time) (e : Time) (s : State), s.senak.resetAt = some (1, e) ∧ e ≤ (State.advance t s).up) ∧
    (∃ (t : Time) (e : Time) (k : Nat) (s : State), s.senak.resetAt = some (k, e) ∧ k ≠ 1 ∧ e ≤ (State.advance t s).up ∧ s.boot.readyOnce = true) ∧
    (∃ (t : Time) (s : State), (s.senak.resetAt = none ∨ ∃ (k : Nat), ∃ (e : Time), s.senak.resetAt = some (k, e) ∧ (State.advance t s).up < e)) ∧
    (∃ (s : State), s.boot.phase ≠ BootPhase.held ∧ s.rt.power.state ≠ 4 ∧ s.boot.phase ≠ BootPhase.warmHeld) ∧
    (∃ (s : State), (¬(s.boot.phase ≠ BootPhase.held ∧ s.rt.power.state ≠ 4))) ∧
    (∃ (s : State), s.rt.power.state ≠ 3) ∧
    (∃ (s : State), s.rt.power.state = 3) ∧
    (∃ (s : State), s.senak.pcie.linkUp = true ∧ s.rt.power.state ≠ 3 ∧ s.rt.power.state ≠ 4 ∧ s.boot.phase ≠ BootPhase.held ∧
      s.boot.phase ≠ BootPhase.warmHeld ∧ s.boot.phase = BootPhase.running ∧ bit s.rt.mgmt.config.pcieActions 1 = false ∧
      (∀ (p : PendingCmd), p ∈ s.senak.pending → p.code ≠ 2820)) ∧
    (∃ (s : State), s.senak.pcie.linkUp = false) ∧
    (∃ (s : State), s.senak.pcie.linkUp = true) ∧
    (∃ (rate : Nat) (width : Nat) (s : State), s.boot.phase ≠ BootPhase.held ∧ s.senak.pcie.held = false ∧ s.rt.power.state ≠ 3 ∧
      s.rt.power.state ≠ 4 ∧ mhas s.rt.power.unlocked 7 = false ∧ 8 ≤ rate ∧ 8 ≤ width) ∧
    (∃ (rate : Nat) (width : Nat) (s : State), s.boot.phase ≠ BootPhase.held ∧ s.senak.pcie.held = false ∧ s.rt.power.state ≠ 3 ∧
      s.rt.power.state ≠ 4 ∧ (rate < 8 ∨ width < 8)) ∧
    (∃ (w : Bool) (s : State), s.boot.phase = BootPhase.booting w ∧ s.boot.otpLoaded = false ∧ s.boot.otpFailures < 3 ∧ s.boot.causes.getLsbD 0 = false) ∧
    (∃ (b : Fin 36) (r : UnitTest) (s : State), s.rt.mgmt.lifecycle ≠ 4 ∧ isUnit b.val ↑r.site = true ∧ s.boot.phase = BootPhase.booting false ∧
      s.unusable b.val ↑r.site = false ∧ mget s.rt.test.reports (b.val * 256 + ↑r.site) = none ∧ r.result = 0) ∧
    (∃ (s : State), s.rt.mgmt.lifecycle = 4) ∧
    (∃ (s : State), s.boot.phase = BootPhase.booting false ∧ s.boot.otpLoaded = true ∧ s.boot.trained = true ∧ s.boot.waitRefclk = false) ∧
    (∃ (s : State), s.boot.phase = BootPhase.booting true ∧ s.boot.otpLoaded = true ∧ s.boot.waitRefclk = false) ∧
    (∃ (s : State), s.boot.phase = BootPhase.running ∧ s.boot.endpointOnly = true ∧ s.senak.pcie.held = false) ∧
    (∃ (s : State), s.boot.phase = BootPhase.held) ∧
    (∃ (since : Time) (b : Fin 36) (s : State), mget s.boot.pendingRelease b.val = some since ∧ clocked s b.val = true) ∧
    (∃ (b : Fin 36) (s : State), mget s.boot.pendingRelease b.val = none) ∧
    (∃ (b : Fin 36) (p : PendingCmd) (s : State), s.domainReady b.val = true ∧ mget s.boot.pendingRelease b.val = none ∧ s.senak.pending = [p] ∧
      p.code = 4866 ∧ p.obj = b.val) ∧
    (∃ (b : Fin 36) (s : State), s.domainReady b.val = false) ∧
    (∃ (t : Time) (s : State), s.boot.phase = BootPhase.booting false ∧ s.rt.mgmt.asTrial = true ∧ s.boot.uzoganAt + 5 * tS ≤ (State.advance t s).up ∧
      s.rt.mgmt.slotValid s.rt.mgmt.config.confirmed = true) ∧
    (∃ (t : Time) (s : State), s.boot.phase = BootPhase.booting false ∧ s.rt.mgmt.asTrial = true ∧ s.boot.uzoganAt + 5 * tS ≤ (State.advance t s).up ∧
      s.rt.mgmt.slotValid s.rt.mgmt.config.confirmed = false) ∧
    (∃ (s : State), s.rt.mgmt.asTrial = false) ∧
    (∃ (s : State), s.boot.phase = BootPhase.recovery) ∧
    (∃ (s : State), s.boot.phase ≠ BootPhase.recovery) :=
  ⟨⟨17, by decide +kernel⟩,
    ⟨1000, by decide +kernel⟩,
    ⟨bt fun b => { b with phase := .held }, by decide +kernel⟩,
    ⟨live, by decide +kernel⟩,
    ⟨1000, bt id, by decide +kernel⟩,
    ⟨17, live, by decide +kernel⟩,
    ⟨bt fun b => { b with phase := .warmHeld }, by decide +kernel⟩,
    ⟨live, by decide +kernel⟩,
    ⟨500, 100, (bt id).modSenak fun h => { h with resetAt := some (1, 100) }, by decide +kernel⟩,
    ⟨500, 100, 0, (bt id).modSenak fun h => { h with resetAt := some (0, 100) }, by decide +kernel⟩,
    ⟨5, live, .inl (by decide +kernel)⟩,
    ⟨live, by decide +kernel⟩,
    ⟨bt fun b => { b with phase := .held }, by decide +kernel⟩,
    ⟨live, by decide +kernel⟩,
    ⟨pw fun p => { p with state := 3 }, by decide +kernel⟩,
    ⟨live, by decide +kernel⟩,
    ⟨(bt id).modPcie fun p => { p with linkUp := false }, by decide +kernel⟩,
    ⟨live, by decide +kernel⟩,
    ⟨16, 16, bt fun b => { b with band := 0 }, by decide +kernel⟩,
    ⟨7, 16, bt id, by decide +kernel⟩,
    ⟨true, bt fun b => { b with phase := .booting true, otpLoaded := false }, by decide +kernel⟩,
    ⟨3, { site := 2, result := 0 }, bt fun b => { b with phase := .booting false }, by decide +kernel⟩,
    ⟨{ live with rt := { live.rt with mgmt := { live.rt.mgmt with lifecycle := 4 } } }, by decide +kernel⟩,
    ⟨trial, by decide +kernel⟩,
    ⟨bt fun b => { b with phase := .booting true }, by decide +kernel⟩,
    ⟨bt fun b => { b with endpointOnly := true }, by decide +kernel⟩,
    ⟨bt fun b => { b with phase := .held }, by decide +kernel⟩,
    ⟨0, 17, bt fun b => { b with inReset := -1, pendingRelease := [(17, 0)] }, by decide +kernel⟩,
    ⟨17, live, by decide +kernel⟩,
    ⟨17, pcm 0x1302 17 [], pnd (pcm 0x1302 17 []) live, by decide +kernel⟩,
    ⟨17, pw fun p => { p with powered := 0 }, by decide +kernel⟩,
    ⟨5 * tS, { live with boot := { live.boot with phase := .booting false }, rt := { live.rt with mgmt := { live.rt.mgmt with asTrial := true, slots := [(0, { version := 1, security := 1, levels := 7, good := true })] } } }, by decide +kernel⟩,
    ⟨5 * tS, trial, by decide +kernel⟩,
    ⟨live, by decide +kernel⟩,
    ⟨bt fun b => { b with phase := .recovery }, by decide +kernel⟩,
    ⟨live, by decide +kernel⟩⟩

theorem witness_TestAndManagementRows :
    (∃ (b : Fin 16) (site : Fin 9) (r : UnitTest) (x : Nat × Nat) (p : PendingCmd) (s : State), s.rt.test.running = [(b.val * 256 + site.val, x)] ∧
      State.findPending 5120 (b.val * 256 + site.val) s = some p ∧ ↑r.site = site.val ∧ r.result = 0) ∧
    (∃ (s : State), s.rt.test.running = []) ∧
    (∃ (s : State), s.rt.test.unwritten = []) ∧
    (∃ (s : State), s.rt.test.unwritten ≠ []) ∧
    (∃ (w : Fin 2) (p : PendingCmd) (s : State), State.findPending 5380 w.val s = some p ∧ (u8 p.params 1 ≠ 0 ∨ 0 < s.rt.dram.fitted)) ∧
    (∃ (t : Time) (w : Fin 2) (p : PendingCmd) (s : State), State.findPending 5380 w.val s = some p ∧
      ((FwSlot.ofImage (fwSource p.params (State.advance t s))).good = false ∨ (FwSlot.ofImage (fwSource p.params (State.advance t s))).security < s.rt.mgmt.rollback)) ∧
    (∃ (w : Fin 2) (s : State), State.findPending 5380 w.val s = none) ∧
    (∃ (s : State), (s.rt.power.state = 0 ∨ s.rt.power.state = 2) ∧
      (s.boot.phase = BootPhase.running ∨ ∃ (w : Bool), s.boot.phase = BootPhase.booting w) ∧ s.rt.power.volt = none ∧ s.rt.power.state = 0) ∧
    (∃ (s : State), (¬((s.rt.power.state = 0 ∨ s.rt.power.state = 2) ∧
      (s.boot.phase = BootPhase.running ∨ ∃ (w : Bool), s.boot.phase = BootPhase.booting w)))) ∧
    (∃ (s : State), (s.rt.power.state = 0 ∨ s.rt.power.state = 2) ∧
      (s.boot.phase = BootPhase.running ∨ ∃ (w : Bool), s.boot.phase = BootPhase.booting w) ∧ s.rt.mgmt.mirrorFailing = false ∧
      s.rt.mgmt.flashHeld = false ∧ 128 ≤ (List.filter (fun (e : Nat × LogEntry) ↦ !e.snd.mirrored) s.rt.mgmt.log).length) ∧
    (∃ (s : State), List.filter (fun (e : Nat × LogEntry) ↦ !e.snd.mirrored) s.rt.mgmt.log = []) ∧
    (∃ (t : Time) (s : State), (s.rt.power.state = 0 ∨ s.rt.power.state = 2) ∧
      (s.boot.phase = BootPhase.running ∨ ∃ (w : Bool), s.boot.phase = BootPhase.booting w) ∧ s.rt.mgmt.mirrorFailing = true ∧
      s.rt.mgmt.mirrorFailAt + 10 * tS ≤ (State.advance t s).up) ∧
    (∃ (s : State), s.rt.mgmt.mirrorFailing = false) :=
  ⟨⟨3, 2, { site := 2, result := 0 }, (5, 3), pcm 0x1400 770 [], tst, by decide +kernel⟩,
    ⟨live, by decide +kernel⟩,
    ⟨live, by decide +kernel⟩,
    ⟨live.modTest fun t => { t with unwritten := [5], health := [(3, 5)] }, by decide +kernel⟩,
    ⟨1, pcm 0x1504 1 (zeros 32), pnd (pcm 0x1504 1 (zeros 32)) live, by decide +kernel⟩,
    ⟨5, 1, pcm 0x1504 1 (zeros 32), pnd (pcm 0x1504 1 (zeros 32)) live, by decide +kernel⟩,
    ⟨1, live, by decide +kernel⟩,
    ⟨live, by decide +kernel⟩,
    ⟨bt fun b => { b with phase := .held }, by decide +kernel⟩,
    ⟨mg fun m => { m with log := lg130 }, by decide +kernel⟩,
    ⟨live, by decide +kernel⟩,
    ⟨10 * tS, mg fun m => { m with log := lg130, mirrorFailing := true }, by decide +kernel⟩,
    ⟨live, by decide +kernel⟩⟩

theorem witness_TdmRows :
    (∃ (t : Time) (w : Fin 1008) (a b : List Bytes) (x : Int) (s : State), mhas s.gens.active.prots w.val = true ∧ (mgetD s.rt.tdm.pairs w.val {}).aligned = none ∧
      (∀ y, (mgetD s.rt.tdm.pairs w.val {}).searched = some y → y + 100 * tMs ≤ (State.advance t s).up) ∧ matchOffsets a b = [x]) ∧
    (∃ (t : Time) (w : Fin 1008) (a b : List Bytes) (s : State), mhas s.gens.active.prots w.val = true ∧ (mgetD s.rt.tdm.pairs w.val {}).aligned = none ∧
      (∀ y, (mgetD s.rt.tdm.pairs w.val {}).searched = some y → y + 100 * tMs ≤ (State.advance t s).up) ∧ (matchOffsets a b).length ≠ 1) ∧
    (∃ (t : Time) (w : Fin 1008) (s : State), ∃ x, (mgetD s.rt.tdm.pairs w.val {}).searched = some x ∧ (State.advance t s).up < x + 100 * tMs) ∧
    (∃ (t : Time) (e : Nat) (b : Bytes) (s : State), (State.advance t s).now % tMs = 0 ∧ e < 65536 ∧ s.rt.tdm.waiting = [(e, b)]) ∧
    (∃ (t : Time) (s : State), (State.advance t s).now % tMs ≠ 0) ∧
    (∃ (p : Fin 4) (f : SdhFrame) (x : Nat) (s : State), tdmReady s = true ∧ u8 (sdhOn s p.val) 1 ≠ 0 ∧ (s.sdhPort p.val).position = none ∧
      (s.sdhPort p.val).candidate = none ∧ f.patterns = [x]) ∧
    (∃ (p : Fin 4) (f : SdhFrame) (x : Nat) (s : State), tdmReady s = true ∧ u8 (sdhOn s p.val) 1 ≠ 0 ∧ (s.sdhPort p.val).position = none ∧
      (s.sdhPort p.val).candidate = some x ∧ x ∈ f.patterns) ∧
    (∃ (p : Fin 4) (f : SdhFrame) (x : Nat) (s : State), tdmReady s = true ∧ u8 (sdhOn s p.val) 1 ≠ 0 ∧ (s.sdhPort p.val).position = some x ∧
      (¬x ∈ f.patterns)) ∧
    (∃ (p : Fin 4) (s : State), (¬(tdmReady s = true ∧ u8 (sdhOn s p.val) 1 ≠ 0))) ∧
    (∃ (p : Fin 4) (s : State), tdmReady s = true ∧ u8 (sdhOn s p.val) 1 ≠ 0) ∧
    (∃ (e : Fin 1024) (p : Nat) (s : State), tdmReady s = true ∧ kindOf s e.val = 3 ∧ e.val < 1008 ∧ protects s.gens.active e.val = false ∧
      tribFails s (pathOf s e.val) = [] ∧ defect s e.val 0 = false ∧ transparentPeer s.gens.active e.val = some p ∧ mget s.gens.active.prots p = none) ∧
    (∃ (e : Fin 1024) (p : Nat) (b : Bytes) (s : State), tdmReady s = true ∧ kindOf s e.val = 3 ∧ 1008 ≤ e.val ∧ protects s.gens.active e.val = false ∧
      (s.line e.val).losIn = false ∧ defect s e.val 0 = false ∧ transparentPeer s.gens.active e.val = some p ∧ mget s.gens.active.prots p = some b) ∧
    (∃ (e : Fin 1024) (s : State), tdmReady s = true ∧ kindOf s e.val = 1) ∧
    (∃ (e : Fin 1024) (s : State), (tdmReady s = false ∨ kindOf s e.val = 0 ∨ protects s.gens.active e.val = true)) ∧
    (∃ (n : Fin 16) (s : State), tdmReady s = true ∧ kindOf s (1008 + n.val) = 2) ∧
    (∃ (n : Fin 16) (s : State), (tdmReady s = false ∨ kindOf s (1008 + n.val) ≠ 2)) ∧
    (∃ (e : Fin 1024) (s : State), kindOf s e.val = 1 ∧ framing s e.val 0 = true ∧ (s.line e.val).phase = 3 ∧ (s.line e.val).mf = none) ∧
    (∃ (t : Time) (s : State), tdmReady s = true ∧ (State.advance t s).now % (125 * tUs) = 0 ∧
      List.Pairwise (fun (x1 x2 : Nat) ↦ x1 < x2) (mkeys s.rt.tdm.lines)) ∧
    (∃ (t : Time) (s : State), (tdmReady s = false ∨ (State.advance t s).now % (125 * tUs) ≠ 0)) ∧
    (∃ (e : Fin 1024) (l : List (Bytes × Time × Bool)) (f : Bytes × Time × Bool) (s : State), (s.line e.val).store = l ++ [f]) ∧
    (∃ (t : Time) (w : Fin 1008) (x : Int) (s : State), mhas s.gens.active.prots w.val = true ∧ (mgetD s.rt.tdm.pairs w.val { }).aligned = some x ∧
      (mgetD s.rt.tdm.pairs w.val { }).checked + tS ≤ (State.advance t s).up) ∧
    (∃ (t : Time) (w : Fin 1008) (s : State), (State.advance t s).up < (mgetD s.rt.tdm.pairs w.val { }).checked + tS) ∧
    (∃ (t : Time) (a : Time) (w : Fin 1008) (b : Bytes) (l : List (Option Time)) (s : State), mget s.gens.active.prots w.val = some b ∧
      tribFails s w.val ≠ [] ∧ (mgetD s.rt.tdm.pairs w.val { }).since = some a :: l ∧ a + u16 b 8 * 100 * tMs ≤ (State.advance t s).up) ∧
    (∃ (w : Fin 1008) (s : State), mget s.gens.active.prots w.val = none) ∧
    (∃ (e : Time) (w : Fin 1008) (s : State), mhas s.gens.active.prots w.val = true ∧ (mgetD s.rt.tdm.pairs w.val { }).restore = some e) ∧
    (∃ (t : Time) (s : State), (State.advance t s).now % tS = 0) ∧
    (∃ (t : Time) (s : State), (State.advance t s).now % tS ≠ 0) :=
  ⟨⟨0, 0, wSame.drop 32, wSame, -32, pr {}, by decide +kernel, by decide +kernel, nofun, by decide +kernel⟩,
    ⟨0, 0, [], [], pr {}, by decide +kernel, by decide +kernel, nofun, by decide +kernel⟩,
    ⟨100 * tMs - 1, 0, pr { searched := some 0 }, 0, by decide +kernel⟩,
    ⟨tMs, 5, zeros 8, tdm fun t => { t with waiting := [(5, zeros 8)] }, by decide +kernel⟩,
    ⟨1, e1s, by decide +kernel⟩,
    ⟨0, sf [77], 77, sp {}, by decide +kernel⟩,
    ⟨0, sf [77], 77, sp { candidate := some 77 }, by decide +kernel⟩,
    ⟨0, sf [], 77, sp { position := some 77 }, by decide +kernel⟩,
    ⟨3, lines, by decide +kernel⟩,
    ⟨5, e1s, by decide +kernel⟩,
    ⟨0, 1011, kx, by decide +kernel⟩,
    ⟨1011, 0, block 16 [(2, 2, 252)], wPort, by decide +kernel⟩,
    ⟨0, lines, by decide +kernel⟩,
    ⟨1, t1s, by decide +kernel⟩,
    ⟨1, t1s, by decide +kernel⟩,
    ⟨2, t1s, by decide +kernel⟩,
    ⟨0, e1s, by decide +kernel⟩,
    ⟨125 * tUs, e1s, by decide +kernel⟩,
    ⟨1, e1s, by decide +kernel⟩,
    ⟨0, [([1],2,false)], ([3],4,false), lines.modTdm fun t => { t with lines := [(0, { store := [([1],2,false), ([3],4,false)] })] }, by decide +kernel⟩,
    ⟨tS, 0, 0, pr { aligned := some 0, failedChecks := 2 }, by decide +kernel⟩,
    ⟨100 * tMs, 0, pr {}, by decide +kernel⟩,
    ⟨tS, 0, 0, block 16 [(2, 2, 252)], [none, none, none], (pr { since := [some 0, none, none, none] }).modTdm fun t => { t with defects := [(0, 0x10000)] }, by decide +kernel⟩,
    ⟨5, e1s, by decide +kernel⟩,
    ⟨5, 0, pr { restore := some 5, protecting := true }, by decide +kernel⟩,
    ⟨tS, tdm fun t => { t with errored := [(0, 900)] }, by decide +kernel⟩,
    ⟨1, e1s, by decide +kernel⟩⟩

theorem witness_PortRows :
    (∃ (t : Time) (p : Nat) (b : Bytes) (s : State), (State.advance t s).atBoundary = true ∧ s.rt.net.portsNext = [(p, b)] ∧ u8 b 1 = s.rt.net.mode p) ∧
    (∃ (t : Time) (s : State), (State.advance t s).atBoundary = false) ∧
    (∃ (p : Fin 4) (s : State), s.rt.net.mode p.val ≠ 0 ∧ s.rt.net.isUp p.val = false ∧ s.rt.power.state = 0 ∧ s.domainReady 34 = true ∧
      s.boot.inReset.getLsbD 34 = false) ∧
    (∃ (p : Fin 4) (s : State), (s.rt.net.mode p.val = 0 ∨ s.rt.net.isUp p.val = true ∨ s.domainReady 34 = false)) ∧
    (∃ (p : Fin 4) (s : State), s.rt.net.isUp p.val = true) ∧
    (∃ (p : Fin 4) (c : Fin 4) (s : State), s.rt.net.isUp p.val = false ∧ (c ≠ 2 ∨ s.rt.net.mode p.val = 0)) ∧
    (∃ (p : Fin 4) (s : State), s.rt.net.mode p.val ≠ 0) ∧
    (∃ (t : Time) (i : Fin 2) (s : State), s.rt.net.redundancy (2 * i.val) ≠ 0 ∧
      mgetD s.rt.net.supAt i.val 0 + s.rt.net.life i.val ≤ (State.advance t s).up) ∧
    (∃ (t : Time) (i : Fin 2) (s : State), (s.rt.net.redundancy (2 * i.val) = 0 ∨ (State.advance t s).up < mgetD s.rt.net.supAt i.val 0 + s.rt.net.life i.val)) ∧
    (∃ (p : Fin 4) (t : Nat) (s : State), (State.advance t s).rt.net.redundancy p.val = 1 ∧ (¬p.val ∈ (State.advance t s).rt.net.lanFault) ∧
      mgetD (State.advance t s).rt.net.lanHeard p.val 0 + 3 * (State.advance t s).rt.net.life (p.val / 2) ≤ (State.advance t s).rt.time.up) ∧
    (∃ (p : Fin 4) (t : Nat) (s : State), (¬((State.advance t s).rt.net.redundancy p.val = 1 ∧ ¬p.val ∈ (State.advance t s).rt.net.lanFault ∧
      mgetD (State.advance t s).rt.net.lanHeard p.val 0 + 3 * (State.advance t s).rt.net.life (p.val / 2) ≤ (State.advance t s).rt.time.up))) ∧
    (∃ (i : Fin 2) (t : Nat) (s : State), (State.advance t s).rt.net.redundancy (2 * i.val) = 2 ∧ (¬i.val ∈ (State.advance t s).rt.net.ringOpen) ∧
      mgetD (State.advance t s).rt.net.ownHeard i.val 0 + 3 * (State.advance t s).rt.net.life i.val ≤ (State.advance t s).rt.time.up) ∧
    (∃ (i : Fin 2) (t : Nat) (s : State), (¬((State.advance t s).rt.net.redundancy (2 * i.val) = 2 ∧ ¬i.val ∈ (State.advance t s).rt.net.ringOpen ∧
      mgetD (State.advance t s).rt.net.ownHeard i.val 0 + 3 * (State.advance t s).rt.net.life i.val ≤ (State.advance t s).rt.time.up))) :=
  ⟨⟨tMs, 0, block 32 [(1,1,1),(2,2,2000)], nt fun n => { n with portsNext := [(0, block 32 [(1,1,1),(2,2,2000)])] }, by decide +kernel⟩,
    ⟨tMs+1, netted, by decide +kernel⟩,
    ⟨0, { netted with boot := { netted.boot with inReset := 0 } }, by decide +kernel⟩,
    ⟨1, rd 1, by decide +kernel⟩,
    ⟨0, nt fun n => { n with up := [(0, true)] }, by decide +kernel⟩,
    ⟨0, 1, netted, by decide +kernel⟩,
    ⟨0, rd 0, by decide +kernel⟩,
    ⟨20 * tS, 0, rd 1, by decide +kernel⟩,
    ⟨0, 1, rd 1, by decide +kernel⟩,
    ⟨0, 80 * tS, rd 1, by decide +kernel⟩,
    ⟨0, 1, rd 1, by decide +kernel⟩,
    ⟨0, 80 * tS, rd 2, by decide +kernel⟩,
    ⟨0, 1, rd 1, by decide +kernel⟩⟩

end Sys2Proof.Tests
end

section
/-! GEN.DISCARD (R101). -/

namespace Sys2Proof.Laws

open Sys2Proof.Machine

/-- A least value is missing from the empty list alone. -/
theorem leastBy_eq_none {α : Type} {key : α → Nat} {l : List α} (h : leastBy key l = none) : l = [] := by
  cases l with
  | nil => rfl
  | cons x l =>
    simp only [leastBy] at h
    split at h
    · cases h
    · split at h <;> cases h

/-- A command that passes its checks fails none of them (R62). -/
theorem allFails_of_passes {c : Cmd} {r : Request} {s : State} (hp : c.passes r s = true) : c.allFails r (startCmd r s) = [] := by
  simp only [Cmd.passes, Bool.and_eq_true, Option.isNone_iff_eq_none] at hp
  exact leastBy_eq_none hp.2

/-- A command that passes its checks has a length that it allows. -/
theorem len_of_passes {c : Cmd} {r : Request} {s : State} (hp : c.passes r s = true) : c.len r.params r.len.toNat = none := by
  have h := allFails_of_passes hp
  simp only [Cmd.allFails, List.append_eq_nil_iff] at h
  obtain ⟨⟨⟨⟨⟨⟨-, hlen⟩, -⟩, -⟩, -⟩, -⟩, -⟩ := h
  split at hlen
  · cases hlen
  · split at hlen
    · cases hlen
    · assumption

/-- The one length that `len1` allows. -/
theorem len1_eq_none {n l : Nat} {b : Bytes} : len1 n b l = none ↔ l = n := by simp [len1]

/-- The staged generation is a copy of another, under its own number and with no changes counted (R101). -/
def restaged (b : Generation) (s : State) : State :=
  { s with gens := { s.gens with staged := { b with number := s.gens.staged.number, changes := 0 } } }

theorem run_genDiscard_armed {r : Request} {g : Generation} {s : State} {a : Armed} (h : s.gens.armed = some a) :
    cmdGenDiscard.run r g s = okWith (restaged a.gen s) := by
  simp [cmdGenDiscard, restaged, State.modGens, h]

theorem run_genDiscard_unarmed {r : Request} {g : Generation} {s : State} (h : s.gens.armed = none) :
    cmdGenDiscard.run r g s = okWith (restaged s.gens.active s) := by
  simp [cmdGenDiscard, restaged, State.modGens, h]

/-- A GEN.DISCARD that passes its checks has no parameters. -/
theorem genDiscard_len {r : Request} {s : State} (hp : cmdGenDiscard.passes r s = true) : r.len = 0 := by
  have h : len1 0 r.params r.len.toNat = none := len_of_passes hp
  exact BitVec.eq_of_toNat_eq (len1_eq_none.1 h)

/-- Where its run copies `b`, GEN.DISCARD answers OK under the staged generation's number, and only that copy stands beside it. -/
theorem genDiscard_restages {r : Request} {s : State} {b : Generation} (hs : Safe s) (hp : cmdGenDiscard.passes r s = true)
    (hrun : cmdGenDiscard.run r s.gens.staged (startCmd r s) = okWith (restaged b (startCmd r s))) :
    ∃ t, exec (.genDiscard r) s = .next t ∧ Answered r s.senak.nextSeq s.gens.staged.number .ok 0 [] s t ∧
      Beside (restaged b (startCmd r s)) t :=
  answers_of_run rfl hs hp (.inl rfl) hrun (acting_slots cmdGenDiscard r s)

/-- Settles O9: the armed generation is copied where there is one, otherwise the active one. -/
theorem discardReturnsTheStaged : Obligations.DiscardReturnsTheStaged := by
  intro r s hs hp
  refine ⟨genDiscard_len hp, ?_⟩
  cases h : s.gens.armed with
  | some a => exact genDiscard_restages hs hp (run_genDiscard_armed h)
  | none => exact genDiscard_restages hs hp (run_genDiscard_unarmed h)

end Sys2Proof.Laws
end

section
/-! The check that a failing command reports (R62), and REC.RELEASE (R397). -/

namespace Sys2Proof.Laws

open Sys2Proof.Machine

/-- A least value of a list is in it, and none of the list is less. -/
theorem leastBy_eq_some {α : Type} {key : α → Nat} {l : List α} {y : α} (h : leastBy key l = some y) :
    y ∈ l ∧ ∀ x ∈ l, key y ≤ key x := by
  induction l generalizing y with
  | nil => cases h
  | cons a l ih =>
    rw [leastBy] at h
    cases hl : leastBy key l with
    | none =>
      obtain rfl := leastBy_eq_none hl
      rw [hl] at h
      cases h
      simp
    | some z =>
      obtain ⟨hz, hle⟩ := ih hl
      rw [hl] at h
      simp only [List.mem_cons, forall_eq_or_imp]
      dsimp only at h
      split at h
      · cases h
        exact ⟨.inr hz, by omega, hle⟩
      · cases h
        exact ⟨.inl rfl, Nat.le_refl _, fun x hx => by have := hle x hx; omega⟩

/-- BAD_PARAM alone has its place in the order of R62. -/
theorem eq_badParam_of_rank {st : Status} (h : st.rank = 4) : st = .badParam := by
  revert h
  cases st <;> simp [Status.rank]

/-- Where a BAD_PARAM at an offset of a slot is among the failed checks and no earlier status is, BAD_PARAM is reported (R62). -/
theorem worstFail_badParam {l : List Fail} {d : Nat} (hd : d < 65536) (hmem : (.badParam, d) ∈ l) (hl : ∀ f ∈ l, 4 ≤ f.1.rank) :
    ∃ e, worstFail l = some (.badParam, e) := by
  cases h : worstFail l with
  | none => rw [leastBy_eq_none h] at hmem; cases hmem
  | some f =>
    obtain ⟨hf, hle⟩ := leastBy_eq_some h
    have hkey := Nat.le_of_add_right_le (hle _ hmem)
    have hrank : f.1.rank = 4 := by
      have := hl f hf
      simp only [show Status.badParam.rank = 4 from rfl, ↓reduceIte] at hkey
      omega
    exact ⟨f.2, congrArg some (Prod.ext (eq_badParam_of_rank hrank) rfl)⟩

/-- A command that is taken and fails a check answers it with the header's generation field, and only what completing a command changes
stands beside it (R60, R62). -/
theorem answers_of_verdict {c : Cmd} {row : Request → Instr} {r : Request} {s : State} {f : Fail}
    (hrow : exec (row r) s = execCmd c r s) (hs : Safe s) (hready : s.senak.ready = true) (hprep : s.senak.preparing = none)
    (hv : c.verdict r s = some f) :
    ∃ t, exec (row r) s = .next t ∧ Answered r s.senak.nextSeq r.gen.toNat f.1 f.2 [] s t ∧ Beside (startCmd r s) t := by
  refine ⟨finishCmd r s.senak.nextSeq r.gen.toNat (failWith (startCmd r s) f), ?_, ?_, ?_⟩
  · rw [hrow, execCmd, runCmd, if_pos (by simp [hready, hprep]), hv]
  · exact answered_finishCmd r _ _ (failWith (startCmd r s) f) s (slots_wf hs) rfl rfl rfl
  · exact beside_finishCmd _ _ _ _

/-- The release to position `p`: drain goes there, unless it already stands there or beyond (R397). -/
def released (p : Nat) (s : State) : State :=
  s.modRec fun x => { x with drain := if p ≤ x.drain then x.drain else p }

theorem run_recRelease (r : Request) (g : Generation) (s : State) :
    cmdRecRelease.run r g s = okWith (released (u64 r.params 0) s) := by
  have hmax (d p : Nat) : Nat.max d p = if p ≤ d then d else p :=
    (Nat.max_comm d p).trans Nat.max_def
  simp only [cmdRecRelease, released, hmax]

/-- A REC.RELEASE beyond sealed end fails with BAD_PARAM among its checks. -/
theorem recRelease_beyond_mem {r : Request} {s : State} (h : s.rt.recorder.sealedEnd < u64 r.params 0) :
    (.badParam, 0x20) ∈ cmdRecRelease.allFails r (startCmd r s) := by
  have hbad : (.badParam, 0x20) ∈ cmdRecRelease.fails r (genCheck cmdRecRelease.gmode r.gen.toNat (startCmd r s)).2 (startCmd r s) := by
    simp [cmdRecRelease, badIf, failIf, startCmd, h]
  exact List.mem_append_right _ hbad

/-- A REC.RELEASE that passes its checks names a position that is sealed. -/
theorem recRelease_sealed {r : Request} {s : State} (hp : cmdRecRelease.passes r s = true) :
    u64 r.params 0 ≤ s.rt.recorder.sealedEnd := by
  refine Nat.not_lt.1 fun h => ?_
  have hmem := recRelease_beyond_mem h
  rw [allFails_of_passes hp] at hmem
  cases hmem

/-- Settles O10: the larger of drain and the position is what the run leaves; beyond sealed end the check of the position fails, and since no
earlier status is among the failed checks, the one that is reported is a BAD_PARAM. -/
theorem releaseMovesDrain : Obligations.ReleaseMovesDrain := by
  refine ⟨fun r s hs hp => ⟨recRelease_sealed hp, ?_⟩, fun r s hs hready hprep hbeyond hrank => ?_⟩
  · exact answers_of_run (row := .recRelease) rfl hs hp (.inl rfl) (run_recRelease r _ _) (acting_slots cmdRecRelease r s)
  · obtain ⟨d, hv⟩ := worstFail_badParam (by decide) (recRelease_beyond_mem hbeyond) hrank
    obtain ⟨t, ht⟩ := answers_of_verdict (row := .recRelease) rfl hs hready hprep hv
    exact ⟨t, d, ht⟩

end Sys2Proof.Laws
end

section
/-! Flags of a result, and the shifts of a Yarrow core (R457, R465). -/

namespace Sys2Proof.Laws

open Sys2Proof.Machine

/-- Flags written under a mask replace those under it; a sticky flag beside the mask is set or stays as it was. -/
theorem land_setFlags {mask v : Nat} (h : v &&& (mask ||| (swSAT + swOVF)) = v) (r : Regs) :
    (setFlags mask v).land r = { r with sw := (r.sw &&& ~~~BitVec.ofNat 24 mask) ||| BitVec.ofNat 24 v } := by
  have hv : BitVec.ofNat 24 v &&& (BitVec.ofNat 24 mask ||| BitVec.ofNat 24 (swSAT + swOVF)) = BitVec.ofNat 24 v := by
    rw [← BitVec.ofNat_or, ← BitVec.ofNat_and, h]
  rw [setFlags, BitVec.ofNat_or, BitVec.ofNat_and, RegWrite.land]
  generalize BitVec.ofNat 24 v = v, BitVec.ofNat 24 mask = m, BitVec.ofNat 24 (swSAT + swOVF) = k at hv
  refine congrArg (fun sw => { r with sw := sw }) (BitVec.eq_of_getLsbD_eq fun i _ => ?_)
  have hi := congrArg (BitVec.getLsbD · i) hv
  simp only [BitVec.getLsbD_or, BitVec.getLsbD_and, BitVec.getLsbD_not] at hi ⊢
  cases hb : v.getLsbD i with
  | false => simp only [Bool.false_and, Bool.or_false]
  | true =>
    have hmk : (m.getLsbD i || k.getLsbD i) = true := by simpa only [hb, Bool.true_and] using hi
    simp only [Bool.true_and, hmk, Bool.or_true]

/-- Z, N, V and C written with their mask, and the sticky OVF beside them, are the flags of the statements. -/
theorem land_setFlags_flagged (z n v c o : Bool) (r : Regs) :
    (setFlags (swZ + swN + swV + swC) (b2n z + 2 * b2n n + 4 * b2n v + 8 * b2n c + 32 * b2n o)).land r = r.flagged z n v c o :=
  land_setFlags (by revert z n v c o; decide) r

/-- Z says that a result is 0, and N is its top bit. -/
theorem flagsZN_toInt {w : Nat} (v : BitVec w) : flagsZN v.toInt = b2n (v == 0) + 2 * b2n v.msb := by
  by_cases h : v = 0#w
  · have hz : (v == 0) = true := beq_iff_eq.2 h
    rw [hz, h, BitVec.toInt_zero, BitVec.msb_zero]
    rfl
  · have hz : (v == 0) = false := beq_eq_false_iff_ne.2 h
    have hne : v.toInt ≠ 0 := fun h0 => h (BitVec.toInt_inj.1 (h0.trans BitVec.toInt_zero.symm))
    rw [hz, flagsZN, if_neg hne, BitVec.msb_eq_toInt]
    by_cases hn : v.toInt < 0
    · rw [if_pos hn, decide_eq_true hn]
      rfl
    · rw [if_neg hn, decide_eq_false hn]
      rfl

/-- The model's test of an accumulator's range is that of the statements. -/
theorem wraps_eq_beyond56 (x : Int) : wraps x = beyond56 x := rfl

/-- A result in an accumulator whose exact value is `x` sets V and OVF together, where `x` is beyond 56 bits. -/
theorem landAll_accResult (d : Nat) (v : Acc) (x : Int) (c : Bool) (r : Regs) :
    landAll (accResult d (v, flagsZN v.toInt + bitIf (wraps x) (swV + swOVF) + bitIf c swC)).writes r = r.takes d v x c := by
  have hflags : flagsZN v.toInt + bitIf (wraps x) (swV + swOVF) + bitIf c swC =
      b2n (v == 0) + 2 * b2n v.msb + 4 * b2n (beyond56 x) + 8 * b2n c + 32 * b2n (beyond56 x) := by
    rw [flagsZN_toInt, wraps_eq_beyond56]
    cases beyond56 x <;> cases c <;> rfl
  rw [hflags]
  exact land_setFlags_flagged ..

/-- A result in an X register whose only flag beside Z and N is C. -/
theorem landAll_xResult (a : Nat) (v : Word24) (c : Bool) (r : Regs) :
    landAll (xResult a (v, flagsZN v.toInt + bitIf c swC)).writes r = r.takesX a v false c := by
  have hflags : flagsZN v.toInt + bitIf c swC =
      b2n (v == 0) + 2 * b2n v.msb + 4 * b2n false + 8 * b2n c + 32 * b2n false := by
    rw [flagsZN_toInt]
    cases c <;> rfl
  rw [hflags]
  exact land_setFlags_flagged ..

/-- The product with a power of 2, taken modulo 2^w, is the left shift. -/
theorem ofInt_toInt_mul_two_pow {w : Nat} (a : BitVec w) (k : Nat) : BitVec.ofInt w (a.toInt * (2 ^ k : Nat)) = a <<< k := by
  rw [BitVec.ofInt_mul, BitVec.ofInt_toInt, BitVec.shiftLeft_eq_mul_twoPow, BitVec.ofInt_natCast]
  exact congrArg (a * ·) (BitVec.eq_of_toNat_eq (BitVec.toNat_twoPow w k).symm)

/-- A shift of an accumulator left is exact before it wraps modulo 2^56 (R465). -/
theorem accShift_left (a : Acc) {n : Int} (h : 0 ≤ n) :
    accShift a n = (a <<< n.toNat, flagsZN (a <<< n.toNat).toInt + bitIf (wraps (a.toInt * (2 ^ n.toNat : Nat))) (swV + swOVF) +
      bitIf (decide (0 < n) && a.getLsbD (56 - n.toNat)) swC) := by
  simp only [accShift, if_pos h, accSum, ofInt_toInt_mul_two_pow]

/-- A shift of an accumulator right, by no more than its width, neither overflows nor loses the last bit shifted out (R465). -/
theorem accShift_right (a : Acc) {n : Int} (h : ¬ 0 ≤ n) (hn : -56 ≤ n) :
    accShift a n = (a.sshiftRight (-n).toNat, flagsZN (a.sshiftRight (-n).toNat).toInt + bitIf (wraps 0) (swV + swOVF) +
      bitIf (a.getLsbD ((-n).toNat - 1)) swC) := by
  have hk : (-n).toNat ≤ 56 := by omega
  simp only [accShift, if_neg h, if_pos hk, show bitIf (wraps 0) (swV + swOVF) = 0 from rfl, Nat.add_zero]

/-- A shift of an accumulator by −56 or more leaves what R457 and R465 say. -/
theorem landAll_accShift (d : Nat) (a : Acc) {n : Int} (hn : -56 ≤ n) (r : Regs) :
    landAll (accResult d (accShift a n)).writes r = r.shifted d a n := by
  by_cases h : 0 ≤ n
  · rw [accShift_left a h, landAll_accResult, Regs.shifted, if_pos h, Int.natCast_pow]
    rfl
  · rw [accShift_right a h hn, landAll_accResult, Regs.shifted, if_neg h]

/-- The count in BE is within the shifts of an accumulator. -/
theorem be_toInt_ge (be : BitVec 6) : -56 ≤ be.toInt := by
  have := BitVec.le_toInt be
  omega

/-- Settles O44: each operation is legal where the statement asks for it, and its writes land as the result with its flags. -/
theorem yarrowShifts : Obligations.YarrowShifts := by
  refine ⟨operates_of (fun _ _ _ _ _ => rfl) fun e w hsh => ?_, operates_of (fun _ _ _ _ _ => rfl) fun e w _ => ?_,
    operates_of (fun _ _ _ _ _ => rfl) fun e w hk => ?_, operates_of (fun _ _ _ _ _ => rfl) fun e w hk => ?_,
    operates_of (fun _ _ _ _ _ => rfl) fun e w hk => ?_⟩
  · exact ⟨_, if_pos hsh, landAll_accShift _ _ hsh.1⟩
  · exact ⟨_, rfl, landAll_accShift _ _ (be_toInt_ge e.r.be)⟩
  · exact ⟨_, if_pos hk, landAll_xResult _ _ _⟩
  · exact ⟨_, if_pos hk, landAll_xResult _ _ _⟩
  · exact ⟨_, if_pos hk, landAll_xResult _ _ _⟩

end Sys2Proof.Laws
end
